-- ==== Sys2Proof/Word.lean ====
section
/-! DEFINITION. The word types of the TZ48: bytes and words of cells and frames, samples, station times and zone sets. -/

namespace Sys2Proof

/-- One byte of a service cell (Table 1.8). -/
abbrev Byte := BitVec 8

/-- A two-byte payload field (Table 1.10). -/
abbrev Half := BitVec 16

/-- A trunk word or a four-byte payload field (Section 1.1, Table 1.10). -/
abbrev Word := BitVec 32

/-- A lane sample: signed, 24 bits (Table 1.5). -/
abbrev Sample := BitVec 24

/-- A clip sample: signed, 16 bits (Table 7.1). -/
abbrev ClipSample := BitVec 16

/-- Station time: an unsigned 32-bit count of ticks that wraps (R136). -/
abbrev Time := BitVec 32

/-- A set of zones 0 to 47: bit z is set when zone z is in the set (Table 1.10). -/
abbrev ZoneSet := BitVec 48

end Sys2Proof
end

