-- ==== Sys2Proof/Syntax.lean ====
section
/-! DEFINITION. The commands of the TZ48: one constructor per row of spec/opcode_table.json, with the row's operands. -/

namespace Sys2Proof

/-- The header of a command cell that is chosen by the controller (Table 1.8): unit address and tag. The cell kind is COMMAND and the code is the command's own. -/
structure Header where
  addr : BitVec 4
  tag  : Byte
  deriving DecidableEq, Repr, Inhabited

/-- The words of one ingress frame (Table 1.4): header, lane words I0-I39, service word, CRC word. -/
structure Frame where
  head    : Word
  lanes   : List Word
  service : Word
  crc     : Word
  deriving DecidableEq, Repr, Inhabited

/-- How much of a frame period a FRAME_PERIOD row stands for (log 1). `start` is the work on the state as it stood at the start of the period, which lets rows that follow be taken within the period; `whole` is the period to its end. -/
inductive PeriodPart where
  | start
  | whole
  deriving DecidableEq, Repr, Inhabited

/-- One template item as a TEMPLATE_SET cell carries it (R125): kind and argument. -/
structure ItemCell where
  kind : Byte
  arg  : Word
  deriving DecidableEq, Repr, Inhabited

/-- One trigger as a PLAN_SET cell carries it (R151), 17 bytes. -/
structure TriggerCell where
  role            : Byte
  offset          : Word
  template        : Byte
  target          : Byte
  cls             : Byte
  priority        : Byte
  flags           : Byte
  deadlinePresent : Byte
  deadlineOffset  : Word
  lateLimit       : Half
  deriving DecidableEq, Repr, Inhabited

/-- The fields of ANNOUNCE in the order of R71. -/
structure AnnounceFields where
  cls             : Byte
  priority        : Byte
  flags           : Byte
  requested       : ZoneSet
  minCoverage     : Half
  level           : Half
  sourceKind      : Byte
  template        : Byte
  lane            : Byte
  chime           : Half
  talkLimit       : Half
  deadlinePresent : Byte
  deadline        : Time
  deriving DecidableEq, Repr, Inhabited

/-- The fields of CALL_LOAD in the order of R155; `via` has four places. -/
structure CallFields where
  slot        : Byte
  number      : Half
  kind        : Byte
  destination : Half
  viaCount    : Half
  via         : List Half
  scheduled   : Time
  delay       : Word
  platform    : Byte
  plan        : Byte
  deriving DecidableEq, Repr, Inhabited

/-- The fields of PERIODIC_SET in the order of R169. -/
structure PeriodicFields where
  index    : Byte
  present  : Byte
  template : Byte
  flags    : Byte
  priority : Byte
  zones    : ZoneSet
  interval : Half
  firstDue : Time
  deriving DecidableEq, Repr, Inhabited

/-- The fields of QUERY after its kind (R179). -/
structure QueryFields where
  subject : Half
  part    : Byte
  flags   : Byte
  deriving DecidableEq, Repr, Inhabited

/-- The commands and events of the opcode table, in its order. -/
inductive Instr where
  /-- R185: power is applied; the operand is what the strap pins read. -/
  | powerOn (straps : BitVec 4)
  /-- R175: the RESET pin; the straps are read again. -/
  | pinReset (straps : BitVec 4)
  /-- R2: one frame period passes. -/
  | framePeriod (part : PeriodPart)
  /-- R1: an ingress frame classed good. -/
  | ingressGoodFrame (f : Frame)
  /-- R1: an ingress frame classed bad. -/
  | ingressBadFrame (f : Frame)
  /-- R1: no header at the expected position. -/
  | ingressMissingFrame
  /-- R4: the bad-run count has reached 48. -/
  | linkLost
  /-- R5: the good-run count has reached 16. -/
  | linkRecovered
  /-- R15: a complete cell whose kind is not COMMAND. -/
  | nonCommandCell (kind : BitVec 4) (h : Header)
  /-- R175: a complete command cell for another unit. -/
  | foreignCell (h : Header) (code : Byte)
  /-- R176: a taken command cell whose code no rule gives. -/
  | unknownCommand (h : Header) (code : Byte)
  /-- R14: the slot arbiter's choice at the first frame period of an egress cell period. -/
  | egressCellPeriod
  /-- R40: a zone's window count has reached 4,800. -/
  | windowEnd (zone : Nat)
  /-- R42: a zone's release count has run out. -/
  | releaseHoldEnd (zone : Nat)
  /-- R56: a zone's wake count reaches 0. -/
  | wakeEnd (zone : Nat)
  /-- R58: a zone's hang count has reached 0 at a tick end. -/
  | hangEnd (zone : Nat)
  /-- R138: the phase reaches the tick length. -/
  | tickEnd
  /-- R88: a live request's talk count has reached 0. -/
  | talkTimeout (handle : Nat)
  /-- R144: the holdover count has reached its limit. -/
  | holdoverEntry
  /-- R99: every zone of an engine's wait set is LIVE. -/
  | prerollExit (engine : Nat)
  /-- R104: an engine has produced the last sample of a fragment. -/
  | fragmentBoundary (engine : Nat)
  /-- R108: an engine's fade count has reached 0. -/
  | fadeEnd (engine : Nat)
  /-- R10, code 11h. -/
  | laneSet (h : Header) (lane role zone : Byte)
  /-- R31, code 21h. -/
  | routeSet (h : Header) (zone route lane : Byte) (coeff : Half)
  /-- R34, code 22h. -/
  | zoneMixSet (h : Header) (zone : Byte) (trim duckLevel rampStep : Half)
  /-- R47, code 31h. -/
  | ambientSet (h : Header) (zone flags : Byte) (threshold : Word) (slope ambMax stepMax hold : Half)
  /-- R60, code 41h. -/
  | zoneSet (h : Header) (zone flags : Byte) (preroll hang : Half)
  /-- R62, code 42h. -/
  | zoneFault (h : Header) (zone faultCode : Byte)
  /-- R63, code 43h. -/
  | zoneClear (h : Header) (zone : Byte)
  /-- R71, code 51h. -/
  | announce (h : Header) (a : AnnounceFields)
  /-- R91, code 52h. -/
  | release (h : Header) (handle mode : Byte)
  /-- R118, code 71h. -/
  | clipWrite (h : Header) (addr : Word) (samples : List ClipSample)
  /-- R120, code 73h. -/
  | clipRead (h : Header) (addr : Word)
  /-- R122, code 72h. -/
  | phraseSet (h : Header) (phrase : Half) (present : Byte) (start length : Word)
  /-- R125, code 74h; seven item places. -/
  | templateSet (h : Header) (template wordingCount wordingIndex itemCount firstItem : Byte) (items : List ItemCell)
  /-- R141, code 81h. -/
  | time (h : Header) (reference : Time) (flags : Byte)
  /-- R146, code 82h. -/
  | clockSet (h : Header) (window : Word) (limit : Half)
  /-- R149, code 91h. -/
  | platformSet (h : Header) (platform : Byte) (platformZones concourseZones : ZoneSet)
  /-- R151, code 92h; two trigger places. -/
  | planSet (h : Header) (plan triggerCount : Byte) (closeMargin threshold : Half) (firstTrigger : Byte) (triggers : List TriggerCell)
  /-- R155, code 93h. -/
  | callLoad (h : Header) (c : CallFields)
  /-- R162, code 94h. -/
  | callAmend (h : Header) (slot flags : Byte) (delay : Word) (platform : Byte)
  /-- R166, code 95h. -/
  | callCancel (h : Header) (slot : Byte)
  /-- R168, code 96h. -/
  | callClear (h : Header) (slot : Byte)
  /-- R169, code 97h. -/
  | periodicSet (h : Header) (p : PeriodicFields)
  /-- R179, R180, code A1h, kind 0. -/
  | queryStatus (h : Header) (q : QueryFields)
  /-- R181, code A1h, kind 1. -/
  | queryZone (h : Header) (q : QueryFields)
  /-- R182, code A1h, kind 2. -/
  | queryRequest (h : Header) (q : QueryFields)
  /-- R114, code A1h, kind 3. -/
  | queryEngine (h : Header) (q : QueryFields)
  /-- R173, code A1h, kind 4. -/
  | queryCall (h : Header) (q : QueryFields)
  /-- R180, code A1h, kind 5. -/
  | queryCounters (h : Header) (q : QueryFields)
  /-- R123, code A1h, kind 6. -/
  | queryPhrase (h : Header) (q : QueryFields)
  /-- R183, code A2h. -/
  | identify (h : Header)
  /-- R184, code A3h. -/
  | unitReset (h : Header)
  deriving DecidableEq, Repr

end Sys2Proof
end

