-- ==== Sys2Proof/WellFormed.lean ====
section
/-! DEFINITION. When a term of Instr is a command of the TZ48: its lists have as many places as the cell or frame has, its numbers name things the part has, and its row's premise can hold. Ranges that a command's own rule answers with BADARG are not checked here. -/

namespace Sys2Proof

/-- The command codes that a rule of the manual gives (R10, R31, R34, R47, R60, R62, R63, R71, R91, R118, R122, R120, R125, R141, R146, R149, R151, R155, R162, R166, R168, R169, R179, R183, R184). -/
def commandCodes : List Byte :=
  [0x11, 0x21, 0x22, 0x31, 0x41, 0x42, 0x43, 0x51, 0x52, 0x71, 0x72, 0x73, 0x74, 0x81, 0x82,
   0x91, 0x92, 0x93, 0x94, 0x95, 0x96, 0x97, 0xA1, 0xA2, 0xA3]

/-- The well-formed commands. -/
def Instr.wellFormed : Instr → Bool
  | .ingressGoodFrame f | .ingressBadFrame f => f.lanes.length == 40
  | .nonCommandCell kind _ => kind != 1
  | .foreignCell h _ => h.addr != 15
  | .unknownCommand _ code => !commandCodes.contains code
  | .windowEnd z | .releaseHoldEnd z | .wakeEnd z | .hangEnd z => decide (z < 48)
  | .talkTimeout k => decide (k < 96)
  | .prerollExit e | .fragmentBoundary e | .fadeEnd e => decide (e < 6)
  | .clipWrite _ _ samples => samples.length == 20
  | .templateSet _ _ _ _ _ _ items => items.length == 7
  | .planSet _ _ _ _ _ _ triggers => triggers.length == 2
  | .callLoad _ c => c.via.length == 4
  | .powerOn _ | .pinReset _ | .framePeriod _ | .ingressMissingFrame | .linkLost | .linkRecovered
  | .egressCellPeriod | .tickEnd | .holdoverEntry
  | .laneSet .. | .routeSet .. | .zoneMixSet .. | .ambientSet .. | .zoneSet .. | .zoneFault .. | .zoneClear ..
  | .announce .. | .release .. | .clipRead .. | .phraseSet .. | .time .. | .clockSet .. | .platformSet ..
  | .callAmend .. | .callCancel .. | .callClear .. | .periodicSet ..
  | .queryStatus .. | .queryZone .. | .queryRequest .. | .queryEngine .. | .queryCall .. | .queryCounters ..
  | .queryPhrase .. | .identify .. | .unitReset .. => true

end Sys2Proof
end

