-- ==== Sys2Proof/Decode.lean ====
section
/-! DEFINITION. Reading a complete service cell into its command (Tables 1.8 and 1.10, R17), total on any words. The opcode table gives its rows no bits, so decodeTableWord answers none. -/

namespace Sys2Proof

/-- The opcode table gives no row any bits (its rows have no fields and no fixed bits): no word spells a command. -/
def decodeTableWord (_nbits _w : Nat) : Option Instr := none

/-- The bytes of a word, most significant first (Section 1.7). -/
def wordBytes (w : Word) : List Byte :=
  [w.extractLsb' 24 8, w.extractLsb' 16 8, w.extractLsb' 8 8, w.extractLsb' 0 8]

/-- The bytes of a cell in service order: byte 0 is the most significant byte of the first word (Section 1.7). -/
def cellBytes (ws : List Word) : List Byte := ws.flatMap wordBytes

/-- The one-byte field at payload byte `i` of a cell; the payload starts at cell byte 4 (Table 1.8). -/
def pay1 (bs : List Byte) (i : Nat) : Byte := bs.getD (4 + i) 0

/-- The two-byte field at payload byte `i`, most significant byte first. -/
def pay2 (bs : List Byte) (i : Nat) : Half := pay1 bs i ++ pay1 bs (i + 1)

/-- The four-byte field at payload byte `i`, most significant byte first. -/
def pay4 (bs : List Byte) (i : Nat) : Word := pay2 bs i ++ pay2 bs (i + 2)

/-- The zone set field at payload byte `i` (six bytes, log 15). -/
def payZones (bs : List Byte) (i : Nat) : ZoneSet := pay4 bs i ++ pay2 bs (i + 4)

/-- The seven item places of TEMPLATE_SET, from payload byte 5 (R125). -/
def payItems (bs : List Byte) : List ItemCell :=
  (List.range 7).map fun k => ⟨pay1 bs (5 + 5 * k), pay4 bs (6 + 5 * k)⟩

/-- The two trigger places of PLAN_SET, from payload byte 7, 17 bytes each (R151). -/
def payTriggers (bs : List Byte) : List TriggerCell :=
  (List.range 2).map fun k =>
    let o := 7 + 17 * k
    { role := pay1 bs o, offset := pay4 bs (o + 1), template := pay1 bs (o + 5), target := pay1 bs (o + 6),
      cls := pay1 bs (o + 7), priority := pay1 bs (o + 8), flags := pay1 bs (o + 9),
      deadlinePresent := pay1 bs (o + 10), deadlineOffset := pay4 bs (o + 11), lateLimit := pay2 bs (o + 15) }

/-- The fields of ANNOUNCE (R71). -/
def payAnnounce (bs : List Byte) : AnnounceFields where
  cls := pay1 bs 0
  priority := pay1 bs 1
  flags := pay1 bs 2
  requested := payZones bs 3
  minCoverage := pay2 bs 9
  level := pay2 bs 11
  sourceKind := pay1 bs 13
  template := pay1 bs 14
  lane := pay1 bs 15
  chime := pay2 bs 16
  talkLimit := pay2 bs 18
  deadlinePresent := pay1 bs 20
  deadline := pay4 bs 21

/-- The fields of CALL_LOAD (R155). -/
def payCall (bs : List Byte) : CallFields where
  slot := pay1 bs 0
  number := pay2 bs 1
  kind := pay1 bs 3
  destination := pay2 bs 4
  viaCount := pay2 bs 6
  via := [pay2 bs 8, pay2 bs 10, pay2 bs 12, pay2 bs 14]
  scheduled := pay4 bs 16
  delay := pay4 bs 20
  platform := pay1 bs 24
  plan := pay1 bs 25

/-- The fields of PERIODIC_SET (R169). -/
def payPeriodic (bs : List Byte) : PeriodicFields where
  index := pay1 bs 0
  present := pay1 bs 1
  template := pay1 bs 2
  flags := pay1 bs 3
  priority := pay1 bs 4
  zones := payZones bs 5
  interval := pay2 bs 11
  firstDue := pay4 bs 13

/-- The fields of QUERY after its kind (R179). -/
def payQuery (bs : List Byte) : QueryFields := ⟨pay2 bs 1, pay1 bs 3, pay1 bs 4⟩

/-- What a complete cell is. -/
inductive CellMeaning where
  /-- A command of the table. -/
  | command (i : Instr)
  /-- A QUERY cell whose kind is above 6: R179 refuses it with BADARG, and no row of the table names it (log 25). -/
  | queryOfNoKind (h : Header)
  deriving DecidableEq, Repr

/-- QUERY by its kind (R179). -/
def decodeQuery (h : Header) (kind : Byte) (q : QueryFields) : CellMeaning :=
  match kind.toNat with
  | 0 => .command (.queryStatus h q)
  | 1 => .command (.queryZone h q)
  | 2 => .command (.queryRequest h q)
  | 3 => .command (.queryEngine h q)
  | 4 => .command (.queryCall h q)
  | 5 => .command (.queryCounters h q)
  | 6 => .command (.queryPhrase h q)
  | _ => .queryOfNoKind h

/-- The command of a code and a payload. Each field has the width that Table 1.10 gives its kind; the route of ROUTE_SET and the part of QUERY, whose kinds no table names, take one byte as an index does (DEDUCED, log 14). -/
def decodeCommand (h : Header) (code : Byte) (bs : List Byte) : CellMeaning :=
  match code.toNat with
  | 0x11 => .command (.laneSet h (pay1 bs 0) (pay1 bs 1) (pay1 bs 2))
  | 0x21 => .command (.routeSet h (pay1 bs 0) (pay1 bs 1) (pay1 bs 2) (pay2 bs 3))
  | 0x22 => .command (.zoneMixSet h (pay1 bs 0) (pay2 bs 1) (pay2 bs 3) (pay2 bs 5))
  | 0x31 => .command (.ambientSet h (pay1 bs 0) (pay1 bs 1) (pay4 bs 2) (pay2 bs 6) (pay2 bs 8) (pay2 bs 10) (pay2 bs 12))
  | 0x41 => .command (.zoneSet h (pay1 bs 0) (pay1 bs 1) (pay2 bs 2) (pay2 bs 4))
  | 0x42 => .command (.zoneFault h (pay1 bs 0) (pay1 bs 1))
  | 0x43 => .command (.zoneClear h (pay1 bs 0))
  | 0x51 => .command (.announce h (payAnnounce bs))
  | 0x52 => .command (.release h (pay1 bs 0) (pay1 bs 1))
  | 0x71 => .command (.clipWrite h (pay4 bs 0) ((List.range 20).map fun k => pay2 bs (4 + 2 * k)))
  | 0x72 => .command (.phraseSet h (pay2 bs 0) (pay1 bs 2) (pay4 bs 3) (pay4 bs 7))
  | 0x73 => .command (.clipRead h (pay4 bs 0))
  | 0x74 => .command (.templateSet h (pay1 bs 0) (pay1 bs 1) (pay1 bs 2) (pay1 bs 3) (pay1 bs 4) (payItems bs))
  | 0x81 => .command (.time h (pay4 bs 0) (pay1 bs 4))
  | 0x82 => .command (.clockSet h (pay4 bs 0) (pay2 bs 4))
  | 0x91 => .command (.platformSet h (pay1 bs 0) (payZones bs 1) (payZones bs 7))
  | 0x92 => .command (.planSet h (pay1 bs 0) (pay1 bs 1) (pay2 bs 2) (pay2 bs 4) (pay1 bs 6) (payTriggers bs))
  | 0x93 => .command (.callLoad h (payCall bs))
  | 0x94 => .command (.callAmend h (pay1 bs 0) (pay1 bs 1) (pay4 bs 2) (pay1 bs 6))
  | 0x95 => .command (.callCancel h (pay1 bs 0))
  | 0x96 => .command (.callClear h (pay1 bs 0))
  | 0x97 => .command (.periodicSet h (payPeriodic bs))
  | 0xA1 => decodeQuery h (pay1 bs 0) (payQuery bs)
  | 0xA2 => .command (.identify h)
  | 0xA3 => .command (.unitReset h)
  | _ => .command (.unknownCommand h code)

/-- The meaning of a complete cell of twelve words (Table 1.8). -/
def decodeCell (ws : List Word) : CellMeaning :=
  let bs := cellBytes ws
  let b0 := bs.getD 0 0
  let h : Header := ⟨b0.extractLsb' 4 4, bs.getD 1 0⟩
  let kind := b0.extractLsb' 0 4
  if kind = 1 then decodeCommand h (bs.getD 2 0) bs else .command (.nonCommandCell kind h)

end Sys2Proof
end

