-- ==== Sys2Proof/Config.lean ====
section
/-! DEFINITION. What the spec leaves open, as constants without a body: nothing in Lean can evaluate them or prove a value of them. -/

namespace Sys2Proof

/-- FREE VALUE (DESIGN CHOICE, log 12, safe). The sample that the stacked DRAM holds at a sample address which no CLIP_WRITE has written since the power-on of the given number: R116 says the part has not set it. -/
opaque Config.clipPowerOn (cycle addr : Nat) : ClipSample

/-- FREE VALUE (DESIGN CHOICE, log 11, safe). Whether the Zone Arbiter acts on a step notice before the Call Scheduler does: R186 gives both orders. -/
opaque Config.arbiterFirst (n : Nat) : Bool

/-- FREE VALUE (DESIGN CHOICE, log 13, safe). A result field whose value no rule states. `point` numbers the field, `n` is a fresh index. -/
opaque Config.openField (point n : Nat) : Word

end Sys2Proof
end

