-- ==== Sys2Proof/Machine/State.lean ====
section
/-! DEFINITION. The state of the TZ48 as plain data: one structure per block of Table 0.1, the model's own bookkeeping, and the queue of waiting commands. -/

namespace Sys2Proof.Machine

/-- What stops the machine with a fault. The spec names no such thing: a refused command is answered with a status (R176) and a damaged frame is counted (R1, R7), so there is no constructor. -/
inductive Fault where
  deriving DecidableEq, Repr

/-- A command that has no meaning in the model. -/
inductive Refusal where
  /-- Raised by an arm of exec that is not modelled yet; safe, since it claims nothing. No arm of this model raises it. -/
  | notModelled (mnemonic : String)
  deriving DecidableEq, Repr

/-! ### Ingress and egress trunk ports (Chapter 1) -/

/-- Link state (Table 1.1). -/
inductive LinkState where
  | down
  | sync
  | lost
  deriving DecidableEq, Repr, Inhabited

/-- Role of an ingress lane (Section 1.4). -/
inductive LaneRole where
  | unused
  | source
  | ambient (zone : Nat)
  deriving DecidableEq, Repr, Inhabited

/-- The Ingress Trunk Port. `expecting` says that an expected position is held in LOST (R1). -/
structure Itp where
  link      : LinkState
  badRun    : Nat
  goodRun   : Nat
  expecting : Bool
  crcErrors : Nat
  missing   : Nat
  roles     : Vector LaneRole 40
  lastGood  : Vector Sample 40
  deriving DecidableEq, Repr, Inhabited

/-- The Egress Trunk Port: the position in the egress cell period, the twelve words of the cell in progress, and the words of the egress frame built last (R12, R14). -/
structure Etp where
  slot    : Nat
  sending : Option (List Word)
  frame   : List Word
  deriving DecidableEq, Repr, Inhabited

/-! ### Cell Handler (Chapter 10) -/

/-- A payload field of a cell the part sends, in its width of Table 1.10. -/
inductive Field where
  | b1 (v : Byte)
  | b2 (v : Half)
  | b4 (v : Word)
  | zones (v : ZoneSet)
  deriving DecidableEq, Repr, Inhabited

/-- Reply status (Table 1.9). -/
inductive Status where
  | done
  | busy
  | full
  | badarg
  | noent
  | state
  deriving DecidableEq, Repr, Inhabited

/-- A reply cell (R177). -/
structure Reply where
  tag    : Byte
  code   : Byte
  status : Status
  result : List Field
  deriving DecidableEq, Repr, Inhabited

/-- An event cell (R178, Table 1.9). -/
structure Event where
  kind    : Byte
  cause   : Byte
  subject : Half
  time    : Time
  phase   : Nat
  detail  : List Field
  deriving DecidableEq, Repr, Inhabited

/-- The Cell Handler. `complete` is a complete cell that has not been taken yet (log 3). -/
structure Ch where
  unitAddr  : BitVec 4
  words     : List Word
  capture   : Option (Time × Nat)
  complete  : Option (List Word)
  replies   : List Reply
  events    : List Event
  eventLost : Bool
  discards  : Nat
  deriving DecidableEq, Repr, Inhabited

/-! ### Zone Mixer (Chapter 2) and Ambient Tracker (Chapter 3) -/

/-- An entry of the route table (Section 2.3). -/
structure Route where
  lane  : Option Nat
  coeff : Nat
  deriving DecidableEq, Repr, Inhabited

/-- The mixer's state of one zone: its four routes, its mix settings, its duck coefficient and its saturation counter. -/
structure MixZone where
  routes     : Vector Route 4
  trim       : Nat
  duckLevel  : Nat
  rampStep   : Nat
  duck       : Nat
  saturation : Nat
  deriving DecidableEq, Repr, Inhabited

/-- Gate state of a zone's estimator (Table 3.1). -/
inductive Gate where
  | open
  | holder
  | release
  deriving DecidableEq, Repr, Inhabited

/-- The estimator and the ambient settings of one zone (Tables 3.1 and 3.2). -/
structure AmbientZone where
  acc       : Nat
  count     : Nat
  level     : Nat
  peak      : Nat
  factor    : Nat
  gate      : Gate
  release   : Nat
  threshold : Nat
  slope     : Nat
  factorMax : Nat
  step      : Nat
  hold      : Nat
  deriving DecidableEq, Repr, Inhabited

/-! ### Zone Line Controller (Chapter 4) -/

/-- Line state of a zone (Table 4.2). -/
inductive LineState where
  | off
  | standby
  | waking
  | live
  | hang
  | fault
  deriving DecidableEq, Repr, Inhabited

/-- An entry of the zone table (Table 4.1). -/
structure ZoneLine where
  enable    : Bool
  width16   : Bool
  preroll   : Nat
  hang      : Nat
  keepAwake : Bool
  line      : LineState
  wakeCount : Nat
  hangCount : Nat
  faultCode : Byte
  routeLive : Bool
  deriving DecidableEq, Repr, Inhabited

/-! ### Zone Arbiter (Chapter 5) -/

/-- State of a request record (Table 5.2). -/
inductive RequestState where
  | free
  | waiting
  | granted
  | active
  | ending
  deriving DecidableEq, Repr, Inhabited

/-- Announcement class (Table 0.4). -/
inductive AnnClass where
  | evac
  | live
  | timed
  | info
  deriving DecidableEq, Repr, Inhabited

/-- Where a request came from (Table 5.1). -/
inductive Origin where
  | external (tag : Byte)
  | call (slot trigger : Nat)
  | periodic (index : Nat)
  deriving DecidableEq, Repr, Inhabited

/-- A resolved fragment (Table 5.1): a clip with its start address and length in samples, or a pause with its length in frame periods. -/
inductive Fragment where
  | clip (start length : Nat)
  | pause (frames : Nat)
  deriving DecidableEq, Repr, Inhabited

/-- What the holder term of a request reads (R24). -/
inductive CurrentSource where
  | engine
  | lane
  deriving DecidableEq, Repr, Inhabited

/-- Causes of an end (Table 5.3). -/
inductive EndCause where
  | complete
  | released
  | preempted
  | zoneLost
  | expired
  | talkTimeout
  | sourceLost
  | cancelled
  | withdrawn
  deriving DecidableEq, Repr, Inhabited

/-- Ending outcome of an ENDING request (Table 5.1). -/
inductive EndingOutcome where
  | none
  | ends (cause : EndCause)
  | returns
  deriving DecidableEq, Repr, Inhabited

/-- The flags of a request, in the order of Table 5.1. -/
structure RequestFlags where
  preempt       : Bool
  resume        : Bool
  repeats       : Bool
  isPartial     : Bool
  overrun       : Bool
  nochime       : Bool
  missingPhrase : Bool
  deriving DecidableEq, Repr, Inhabited

/-- A request record (Table 5.1). `live` says that the source is LIVE; `order` is the record's place in the admission order (R69, log 26). -/
structure Request where
  state         : RequestState
  cls           : AnnClass
  priority      : Nat
  origin        : Origin
  live          : Bool
  lane          : Nat
  fragments     : List Fragment
  talkLimit     : Nat
  current       : CurrentSource
  requested     : ZoneSet
  minCoverage   : Nat
  granted       : ZoneSet
  flags         : RequestFlags
  level         : Nat
  latestStart   : Option Time
  restarts      : Nat
  engine        : Option Nat
  talkCount     : Option Nat
  pendingEnd    : Option EndCause
  ending        : EndingOutcome
  duration      : Nat
  order         : Nat
  deriving DecidableEq, Repr, Inhabited

/-- A FREE record: no zones, engine, fragments or flags, and every other field 0 or absent (R68). -/
def freeRequest : Request where
  state := .free
  cls := .evac
  priority := 0
  origin := .external 0
  live := false
  lane := 0
  fragments := []
  talkLimit := 0
  current := .engine
  requested := 0
  minCoverage := 0
  granted := 0
  flags := ⟨false, false, false, false, false, false, false⟩
  level := 0
  latestStart := none
  restarts := 0
  engine := none
  talkCount := none
  pendingEnd := none
  ending := .none
  duration := 0
  order := 0

/-- An entry of the claim table (R70). -/
inductive Claim where
  | empty
  | pendingJoin (handle : Nat)
  | joined (handle : Nat)
  deriving DecidableEq, Repr, Inhabited

/-- The Zone Arbiter. `evacMark` is the engine marked as stopping for an EVAC request (R77). -/
structure Zar where
  requests  : Vector Request 96
  queue     : List Nat
  claims    : Vector Claim 48
  evacMark  : Option Nat
  nextOrder : Nat
  deriving DecidableEq, Repr, Inhabited

/-! ### Playout Engines (Chapter 6) -/

/-- Engine state (Table 6.2). -/
inductive EngineState where
  | idle
  | preroll
  | playing
  | stopping
  deriving DecidableEq, Repr, Inhabited

/-- The state of one engine (Table 6.1) and its playout lane in the last frame period (R96). -/
structure Engine where
  state    : EngineState
  handle   : Option Nat
  waitSet  : ZoneSet
  fragment : Option Nat
  position : Nat
  loops    : Nat
  fade     : Nat
  output   : Sample
  deriving DecidableEq, Repr, Inhabited

/-! ### Clip Memory Controller and Template Expander (Chapter 7) -/

/-- A present phrase directory entry (R121). -/
structure Phrase where
  start  : Nat
  length : Nat
  deriving DecidableEq, Repr, Inhabited

/-- The Clip Memory Controller. `memory` lists the samples written since the power-on numbered `powerCycle`, addresses strictly rising (log 12, log 32). -/
structure Cmc where
  memory     : List (Nat × ClipSample)
  powerCycle : Nat
  phrases    : Vector (Option Phrase) 1024
  useCounts  : Vector Nat 64
  deriving DecidableEq, Repr, Inhabited

/-- A template item (Table 7.2). -/
inductive Item where
  | phrase (id : Nat)
  | pause (frames : Nat)
  | schedTime
  | expectedTime
  | platform
  | destination
  | via
  | delayMinutes
  deriving DecidableEq, Repr, Inhabited

/-- A wording: its items in order and its worst-case fragment count (R124). -/
structure Wording where
  items : List Item
  worst : Nat
  deriving DecidableEq, Repr, Inhabited

/-- A loaded template table entry (R124). -/
structure Template where
  wordings  : List Wording
  callField : Bool
  deriving DecidableEq, Repr, Inhabited

/-- A wording of a template load: the item count its first cell gave, and the items received so far with their worst-case count (R126). -/
structure WordingLoad where
  itemCount : Nat
  items     : List Item
  worst     : Nat
  deriving DecidableEq, Repr, Inhabited

/-- The template load under way (R126). -/
structure TemplateLoad where
  template     : Nat
  wordingCount : Nat
  wordings     : List WordingLoad
  nextWording  : Nat
  nextFirst    : Nat
  deriving DecidableEq, Repr, Inhabited

/-- The Template Expander. -/
structure Tex where
  templates : Vector (Option Template) 64
  load      : Option TemplateLoad
  deriving DecidableEq, Repr, Inhabited

/-! ### Station Clock (Chapter 8) -/

/-- Time status (Table 8.2). -/
inductive TimeStatus where
  | unset
  | locked
  | holdover
  deriving DecidableEq, Repr, Inhabited

/-- The Station Clock (Table 8.1). -/
structure Stc where
  time          : Time
  phase         : Nat
  tickLength    : Nat
  slew          : Int
  status        : TimeStatus
  holdoverCount : Nat
  slewWindow    : Nat
  holdoverLimit : Nat
  deriving DecidableEq, Repr, Inhabited

/-! ### Call Scheduler (Chapter 9) -/

/-- An entry of the platform table (R148). -/
structure Platform where
  platformZones  : ZoneSet
  concourseZones : ZoneSet
  deriving DecidableEq, Repr, Inhabited

/-- Role of a trigger (Table 9.2). -/
inductive TriggerRole where
  | normal
  | alteration
  | delayNotice
  | cancellation
  deriving DecidableEq, Repr, Inhabited

/-- Target of a trigger (R148). -/
inductive Target where
  | platform
  | concourse
  | both
  deriving DecidableEq, Repr, Inhabited

/-- A trigger of a plan (Table 9.2). -/
structure Trigger where
  role      : TriggerRole
  offset    : Int
  template  : Nat
  target    : Target
  cls       : AnnClass
  priority  : Nat
  preempt   : Bool
  resume    : Bool
  deadline  : Option Int
  lateLimit : Nat
  deriving DecidableEq, Repr, Inhabited

/-- A loaded plan table entry (R150). -/
structure Plan where
  closeMargin : Nat
  threshold   : Nat
  triggers    : List Trigger
  deriving DecidableEq, Repr, Inhabited

/-- The plan load under way (R151). -/
structure PlanLoad where
  plan         : Nat
  triggerCount : Nat
  closeMargin  : Nat
  threshold    : Nat
  triggers     : List Trigger
  nextFirst    : Nat
  deriving DecidableEq, Repr, Inhabited

/-- Call state (Table 9.4). -/
inductive CallState where
  | free
  | scheduled
  | open
  | closed
  | cancelled
  deriving DecidableEq, Repr, Inhabited

/-- Trigger state (Table 9.5). -/
inductive TriggerState where
  | pending
  | fired
  | sounded
  | missed
  | superseded
  deriving DecidableEq, Repr, Inhabited

/-- What a call record holds for one trigger (Table 9.3). -/
structure CallTrigger where
  role   : TriggerRole
  fire   : Time
  state  : TriggerState
  handle : Option Nat
  deriving DecidableEq, Repr, Inhabited

/-- A call record (Table 9.3). -/
structure Call where
  state        : CallState
  number       : Nat
  arrival      : Bool
  destination  : Nat
  via          : List Nat
  scheduled    : Time
  delay        : Int
  platform     : Nat
  plan         : Nat
  triggers     : List CallTrigger
  lastNotified : Int
  deriving DecidableEq, Repr, Inhabited

/-- A FREE call record (R153). -/
def freeCall : Call where
  state := .free
  number := 0
  arrival := false
  destination := 0
  via := []
  scheduled := 0
  delay := 0
  platform := 0
  plan := 0
  triggers := []
  lastNotified := 0

/-- What a due list entry stands for (R156). -/
inductive DueItem where
  | trigger (slot index : Nat)
  | periodic (index : Nat)
  deriving DecidableEq, Repr, Inhabited

/-- An entry of the due list (R156). -/
structure DueEntry where
  time : Time
  item : DueItem
  deriving DecidableEq, Repr, Inhabited

/-- A periodic table entry (Table 9.6). -/
structure Periodic where
  present   : Bool
  template  : Nat
  preempt   : Bool
  resume    : Bool
  repeats   : Bool
  priority  : Nat
  zones     : ZoneSet
  interval  : Nat
  nextDue   : Time
  previous  : Option Nat
  skips     : Nat
  deriving DecidableEq, Repr, Inhabited

/-- The Call Scheduler (Table 9.1); platform p stands at index p - 1. -/
structure Csc where
  platforms : Vector Platform 32
  plans     : Vector (Option Plan) 32
  load      : Option PlanLoad
  calls     : Vector Call 256
  due       : List DueEntry
  periodics : Vector Periodic 16
  deriving DecidableEq, Repr, Inhabited

/-! ### The model's own bookkeeping -/

/-- The frame period under way (log 1). `started`: its start work is done. `tickTaken`: the tick end of the clock as it stands is taken; `tick` is the T that the last tick end of the period handed on (R138), `handed` the one that the last tick end or step handed on (R138, R142). `read`: after a step, the T and phase that blocks still read in this period (R136). `tested`: the zones whose end-of-frame test was made (R53); `windowEnded`: those whose window ended in it (R45); `tickZones`: those whose holder a tick-end notice changed (R138). `heldWakes` and `heldHangs`: the wake and hang ends that rows have called for and that the end of the period makes, in the order of the rows (R53). `loaded`: the call slots that the period has loaded, whose triggers do not fire in it (R155). -/
structure Period where
  started     : Bool
  tickTaken   : Bool
  tick        : Option Time
  handed      : Option Time
  read        : Option (Time × Nat)
  tested      : ZoneSet
  windowEnded : ZoneSet
  tickZones   : ZoneSet
  heldWakes   : List Nat
  heldHangs   : List Nat
  loaded      : List Nat
  deriving DecidableEq, Repr, Inhabited

/-- What an action has brought about and not yet done (R75, R160, log 5): a number of arbitration passes, a number of outcome walks; and how many triggers walks have admitted (R165). -/
structure Work where
  passesDue    : Nat
  walksDue     : Nat
  walkAdmitted : Nat
  deriving DecidableEq, Repr, Inhabited

/-- The TZ48: its blocks, the model's bookkeeping, the index of the next free value, and the waiting commands, first in, first out. -/
structure State where
  itp     : Itp
  etp     : Etp
  ch      : Ch
  zmx     : Vector MixZone 48
  amt     : Vector AmbientZone 48
  zlc     : Vector ZoneLine 48
  zar     : Zar
  engines : Vector Engine 6
  cmc     : Cmc
  tex     : Tex
  stc     : Stc
  csc     : Csc
  period  : Period
  work    : Work
  free    : Nat
  pending : List Instr
  deriving DecidableEq, Repr

/-! ### Updates of one block -/

/-- `s` with another Ingress Trunk Port. -/
def State.setItp (s : State) (x : Itp) : State := { s with itp := x }
/-- `s` with another Egress Trunk Port. -/
def State.setEtp (s : State) (x : Etp) : State := { s with etp := x }
/-- `s` with another Cell Handler. -/
def State.setCh (s : State) (x : Ch) : State := { s with ch := x }
/-- `s` with another Zone Mixer. -/
def State.setZmx (s : State) (x : Vector MixZone 48) : State := { s with zmx := x }
/-- `s` with another Ambient Tracker. -/
def State.setAmt (s : State) (x : Vector AmbientZone 48) : State := { s with amt := x }
/-- `s` with another zone table. -/
def State.setZlc (s : State) (x : Vector ZoneLine 48) : State := { s with zlc := x }
/-- `s` with another Zone Arbiter. -/
def State.setZar (s : State) (x : Zar) : State := { s with zar := x }
/-- `s` with other engines. -/
def State.setEngines (s : State) (x : Vector Engine 6) : State := { s with engines := x }
/-- `s` with another Clip Memory Controller. -/
def State.setCmc (s : State) (x : Cmc) : State := { s with cmc := x }
/-- `s` with another Template Expander. -/
def State.setTex (s : State) (x : Tex) : State := { s with tex := x }
/-- `s` with another Station Clock. -/
def State.setStc (s : State) (x : Stc) : State := { s with stc := x }
/-- `s` with another Call Scheduler. -/
def State.setCsc (s : State) (x : Csc) : State := { s with csc := x }
/-- `s` with another record of the frame period under way. -/
def State.setPeriod (s : State) (x : Period) : State := { s with period := x }
/-- `s` with other work still to do. -/
def State.setWork (s : State) (x : Work) : State := { s with work := x }
/-- `s` with another index of the next free value. -/
def State.setFree (s : State) (x : Nat) : State := { s with free := x }
/-- `s` with another queue of waiting commands. -/
def State.setPending (s : State) (x : List Instr) : State := { s with pending := x }

/-! ### Reset -/

/-- A frame period of which nothing is done yet. -/
def newPeriod : Period := ⟨false, false, none, none, none, 0, 0, 0, [], [], []⟩

/-- An IDLE engine (R95). -/
def idleEngine : Engine := ⟨.idle, none, 0, none, 0, 0, 0, 0⟩

/-- Mixer defaults of a zone (R30, R33). -/
def defaultMixZone : MixZone := ⟨Vector.replicate 4 ⟨none, 0⟩, 16384, 16384, 16384, 16384, 0⟩

/-- Tracker defaults of a zone (R50, Table 3.2). -/
def defaultAmbientZone : AmbientZone := ⟨0, 0, 0, 0, 16384, .open, 0, 0, 0, 16384, 512, 24000⟩

/-- Line controller defaults of a zone (R51, Table 4.1). -/
def defaultZoneLine : ZoneLine := ⟨false, false, 0, 0, false, .off, 0, 0, 0, false⟩

/-- An absent periodic entry (R169). -/
def absentPeriodic : Periodic := ⟨false, 0, false, false, false, 0, 0, 0, 0, none, 0⟩

/-- The Zone Arbiter after every kind of reset (R94). -/
def resetZar : Zar := ⟨Vector.replicate 96 freeRequest, [], Vector.replicate 48 .empty, none, 0⟩

/-- The machine right after power-on (R185 and the reset rules of each block: R3, R7, R9, R10, R14 to R16, R30, R33, R36, R50, R51, R94, R115 to R117, R121, R124, R126, R147, R174, R178). The unit address is DESIGN CHOICE 0 (log 18, unsafe); POWER_ON and PIN_RESET read the straps. -/
def State.reset : State where
  itp := ⟨.down, 0, 0, false, 0, 0, Vector.replicate 40 .unused, Vector.replicate 40 0⟩
  etp := ⟨0, none, []⟩
  ch := ⟨0, [], none, none, [], [], false, 0⟩
  zmx := Vector.replicate 48 defaultMixZone
  amt := Vector.replicate 48 defaultAmbientZone
  zlc := Vector.replicate 48 defaultZoneLine
  zar := resetZar
  engines := Vector.replicate 6 idleEngine
  cmc := ⟨[], 0, Vector.replicate 1024 none, Vector.replicate 64 0⟩
  tex := ⟨Vector.replicate 64 none, none⟩
  stc := ⟨0, 0, 480, 0, .unset, 0, 24000, 600⟩
  csc := ⟨Vector.replicate 32 ⟨0, 0⟩, Vector.replicate 32 none, none, Vector.replicate 256 freeCall, [],
    Vector.replicate 16 absentPeriodic⟩
  period := newPeriod
  work := ⟨0, 0, 0⟩
  free := 0
  pending := []

end Sys2Proof.Machine
end

