-- ==== Sys2Proof/Machine/Ops.lean ====
section
/-! DEFINITION. Named operations over tables, zone sets, counters, lists and station time, and the two cell queues. -/

namespace Sys2Proof.Machine

/-! ### Tables -/

/-- The entry of a table at a number; a number past the end reads as the type's default. -/
def tget {α : Type} {n : Nat} [Inhabited α] (t : Vector α n) (i : Nat) : α := t[i]?.getD default

/-- The table with the entry at a number replaced; a number past the end changes nothing. -/
def tset {α : Type} {n : Nat} (t : Vector α n) (i : Nat) (x : α) : Vector α n := t.setIfInBounds i x

/-- The table with the entry at a number changed. -/
def tmod {α : Type} {n : Nat} [Inhabited α] (t : Vector α n) (i : Nat) (f : α → α) : Vector α n :=
  tset t i (f (tget t i))

/-- The table with every entry changed, by its number and its value. -/
def tmapIdx {α β : Type} {n : Nat} (t : Vector α n) (f : Nat → α → β) : Vector β n :=
  ⟨(t.toList.zipIdx.map fun p => f p.2 p.1).toArray, by simp⟩

/-! ### Zone sets -/

/-- Whether zone `z` is in the set. -/
def zmem (s : ZoneSet) (z : Nat) : Bool := s.getLsbD z

/-- The set of one zone. -/
def zone1 (z : Nat) : ZoneSet := 1#48 <<< z

/-- The zones of the set, in order. -/
def zlist (s : ZoneSet) : List Nat := (List.range 48).filter (zmem s)

/-- The number of zones of the set. -/
def zcard (s : ZoneSet) : Nat := (zlist s).length

/-- The set of the zones that pass a test. -/
def zwhere (p : Nat → Bool) : ZoneSet :=
  (List.range 48).foldl (fun acc z => if p z then acc ||| zone1 z else acc) 0

/-- `a` less the zones of `b`. -/
def zdiff (a b : ZoneSet) : ZoneSet := a &&& ~~~b

/-- Whether every zone of `a` is in `b`. -/
def zsub (a b : ZoneSet) : Bool := a &&& b == a

/-! ### Counters and lists -/

/-- Add to a counter that stops at 65535 (00_scope.md, Counters and clamps). -/
def countUp (c k : Nat) : Nat := min 65535 (c + k)

/-- A list with its entry at an index changed. -/
def lmod {α : Type} (l : List α) (i : Nat) (f : α → α) : List α := l.modify i f

/-- A number kept in a range. -/
def clampInt (lo hi x : Int) : Int := max lo (min hi x)

/-! ### Station time -/

/-- The signed difference `a - b` of two station times (R139). -/
def timeDiff (a b : Time) : Int := (a - b).toInt

/-- `a` is earlier than `b` under the station-time comparison (R139). -/
def earlier (a b : Time) : Bool := decide (timeDiff a b < 0)

/-- A station time moved by a signed number of ticks, modulo 2^32. -/
def timeAdd (t : Time) (d : Int) : Time := t + BitVec.ofInt 32 d

/-- The station time and phase that blocks read in the frame period under way: those at its start, also after a step has changed the clock (R136). -/
def now (s : State) : Time × Nat := s.period.read.getD (s.stc.time, s.stc.phase)

/-- The state as an action on a notice reads it: with the notice's station time and phase. Clock and reading are as they were afterwards (R136, R138). -/
def withTime (t : Time) (phase : Nat) (f : State → State) (s : State) : State :=
  let r := f ((s.setStc { s.stc with time := t, phase := phase }).setPeriod { s.period with read := none })
  (r.setStc { r.stc with time := s.stc.time, phase := s.stc.phase }).setPeriod { r.period with read := s.period.read }

/-- An action on the tick-end notice of this frame period, and what it brings about: with the T handed on and phase 0 (R138). -/
def onTick (f : State → State) (s : State) : State := withTime (s.period.tick.getD s.stc.time) 0 f s

/-- The T that no WAITING request may fall behind: the one that the last tick end or step of this frame period has handed on, or the clock's (R87). -/
def lawTime (s : State) : Time := s.period.handed.getD s.stc.time

/-! ### The cell queues -/

/-- Raise an event: it is stamped with the station time and phase, and placed at the tail of the event queue, or discarded with EVENT_LOST set while the queue holds 32 (R178). -/
def pushEvent (kind cause : Byte) (subject : Nat) (detail : List Field) (s : State) : State :=
  if s.ch.events.length < 32 then
    s.setCh { s.ch with events := s.ch.events ++
      [⟨kind, cause, BitVec.ofNat 16 subject, s.stc.time, s.stc.phase, detail⟩] }
  else s.setCh { s.ch with eventLost := true }

/-- Place a reply at the tail of the reply queue (R177). The queue holds four; R176 says that it always has room, and a reply that finds none is dropped (DESIGN CHOICE, log 4, safe). -/
def pushReply (r : Reply) (s : State) : State :=
  if s.ch.replies.length < 4 then s.setCh { s.ch with replies := s.ch.replies ++ [r] } else s

/-- The next free value of an open result field (log 13). -/
def openValue (point : Nat) (s : State) : Word := Config.openField point s.free

/-- What a command answers: status, result fields, and the state after it. -/
structure Answer where
  status : Status
  result : List Field
  after  : State

/-- A refused command changes nothing and its reply carries no result fields (R176, R177). -/
def refuse (st : Status) (s : State) : Answer := ⟨st, [], s⟩

end Sys2Proof.Machine
end

