-- ==== Sys2Proof/Machine/Operands.lean ====
section
/-! DEFINITION. How the values of the part are written in cells: the codes of enumerated fields and the widths of Table 1.10. -/

namespace Sys2Proof.Machine

/-- A one-byte field from a number. -/
def f1 (n : Nat) : Field := .b1 (BitVec.ofNat 8 n)
/-- A two-byte field from a number. -/
def f2 (n : Nat) : Field := .b2 (BitVec.ofNat 16 n)
/-- A four-byte field from a number. -/
def f4 (n : Nat) : Field := .b4 (BitVec.ofNat 32 n)
/-- A four-byte signed field. -/
def f4i (n : Int) : Field := .b4 (BitVec.ofInt 32 n)
/-- A station time field. -/
def fTime (t : Time) : Field := .b4 t
/-- A zone set field. -/
def fZones (z : ZoneSet) : Field := .zones z
/-- A one-byte field that is FFh for none (Table 1.10). -/
def f1? (n : Option Nat) : Field := f1 (n.getD 0xFF)
/-- A flag as a one-byte 0 or 1. -/
def fBool (b : Bool) : Field := f1 b.toNat

/-- Line state codes (Section 4.1). -/
def lineCode : LineState → Nat
  | .off => 0 | .standby => 1 | .waking => 2 | .live => 3 | .hang => 4 | .fault => 5

/-- Link state codes (R6). -/
def linkCode : LinkState → Nat
  | .down => 0 | .sync => 1 | .lost => 2

/-- Class numbers (Table 0.4). -/
def classNum : AnnClass → Nat
  | .evac => 0 | .live => 1 | .timed => 2 | .info => 3

/-- The class of a number (Table 0.4). -/
def classOf : Nat → AnnClass
  | 0 => .evac | 1 => .live | 2 => .timed | _ => .info

/-- Request state codes (R182). -/
def requestCode : RequestState → Nat
  | .free => 0 | .waiting => 1 | .granted => 2 | .active => 3 | .ending => 4

/-- Origin kind codes (R81). -/
def originKind : Origin → Nat
  | .external _ => 0 | .call _ _ => 1 | .periodic _ => 2

/-- The tag, slot or periodic index of an origin (R81). -/
def originId : Origin → Nat
  | .external tag => tag.toNat | .call slot _ => slot | .periodic i => i

/-- The trigger index of an origin, FFh unless CALL (R81). -/
def originTrigger : Origin → Nat
  | .call _ i => i | .external _ | .periodic _ => 0xFF

/-- End cause codes (Table 5.3). -/
def causeCode : EndCause → Nat
  | .complete => 0 | .released => 1 | .preempted => 2 | .zoneLost => 3 | .expired => 4
  | .talkTimeout => 5 | .sourceLost => 6 | .cancelled => 7 | .withdrawn => 8

/-- Pending end codes (R91, R182). -/
def pendingCode : Option EndCause → Nat
  | none => 0 | some .cancelled => 2 | some _ => 1

/-- Current source codes (R182). -/
def currentCode : CurrentSource → Nat
  | .engine => 0 | .lane => 1

/-- Ending outcome codes with the cause, FFh unless END (R182). -/
def endingCode : EndingOutcome → Nat × Nat
  | .none => (0, 0xFF) | .ends c => (1, causeCode c) | .returns => (2, 0xFF)

/-- Engine state codes (R95). -/
def engineCode : EngineState → Nat
  | .idle => 0 | .preroll => 1 | .playing => 2 | .stopping => 3

/-- Time status codes (R145). -/
def statusCode : TimeStatus → Nat
  | .unset => 0 | .locked => 1 | .holdover => 2

/-- Call state codes (R153). -/
def callCode : CallState → Nat
  | .free => 0 | .scheduled => 1 | .open => 2 | .closed => 3 | .cancelled => 4

/-- Trigger state codes (Table 9.5). -/
def triggerCode : TriggerState → Nat
  | .pending => 0 | .fired => 1 | .sounded => 2 | .missed => 3 | .superseded => 4

/-- Trigger role codes (Table 9.2). -/
def roleCode : TriggerRole → Nat
  | .normal => 0 | .alteration => 1 | .delayNotice => 2 | .cancellation => 3

/-- The trigger role of a code (Table 9.2). -/
def roleOf : Nat → TriggerRole
  | 0 => .normal | 1 => .alteration | 2 => .delayNotice | _ => .cancellation

/-- The target of a code (Table 9.2). -/
def targetOf : Nat → Target
  | 0 => .platform | 1 => .concourse | _ => .both

/-- Reply status codes (Table 1.9). -/
def replyStatusCode : Status → Nat
  | .done => 0 | .busy => 1 | .full => 2 | .badarg => 3 | .noent => 4 | .state => 5

/-- A fragment's kind, start and length as cells carry them (R93, R182). -/
def fragmentFields : Fragment → List Field
  | .clip start length => [f1 0, f4 start, f4 length]
  | .pause frames => [f1 1, f4 0, f4 frames]

/-- The bytes of a field, most significant first (Table 1.10, log 15). -/
def fieldBytes : Field → List Byte
  | .b1 v => [v]
  | .b2 v => [v.extractLsb' 8 8, v.extractLsb' 0 8]
  | .b4 v => [v.extractLsb' 24 8, v.extractLsb' 16 8, v.extractLsb' 8 8, v.extractLsb' 0 8]
  | .zones v => [v.extractLsb' 40 8, v.extractLsb' 32 8, v.extractLsb' 24 8, v.extractLsb' 16 8,
      v.extractLsb' 8 8, v.extractLsb' 0 8]

/-- The fields of a payload in order with no gap (R17). -/
def payloadBytes (fs : List Field) : List Byte := fs.flatMap fieldBytes

end Sys2Proof.Machine
end

