-- ==== Sys2Proof/Machine/Flags.lean ====
section
/-! DEFINITION. The flags bytes of cells: one bit per named flag, the first-named flag in bit 0 (Table 1.10). -/

namespace Sys2Proof.Machine

/-- A flags byte from its flags, the first in bit 0. -/
def flagByte (flags : List Bool) : Nat := flags.foldr (fun b acc => b.toNat + 2 * acc) 0

/-- The flags of a request in the order of Table 5.1 (R68). -/
def requestFlags (f : RequestFlags) : Nat :=
  flagByte [f.preempt, f.resume, f.repeats, f.isPartial, f.overrun, f.nochime, f.missingPhrase]

/-- ENABLE, WIDTH16 and KEEP_AWAKE of a zone (R60). -/
def zoneFlags (z : ZoneLine) : Nat := flagByte [z.enable, z.width16, z.keepAwake]

/-- WIDTH16, KEEP_AWAKE and route-live of a zone as QUERY ZONE returns them (R181). -/
def zoneQueryFlags (z : ZoneLine) : Nat := flagByte [z.width16, z.keepAwake, z.routeLive]

/-- The status flags of QUERY STATUS: EVENT_LOST in bit 0 (R180). -/
def statusFlags (ch : Ch) : Nat := flagByte [ch.eventLost]

/-- Bit `i` of a received flags byte. -/
def flagBit (b : Byte) (i : Nat) : Bool := b.getLsbD i

/-- Whether a zone's line is one whose WAKE tag is set (R13, R52). -/
def wakeLine : LineState → Bool
  | .waking | .live | .hang => true
  | .off | .standby | .fault => false

/-- Whether a zone's line state lets it be granted (R52). -/
def usableLine : LineState → Bool
  | .off | .fault => false
  | .standby | .waking | .live | .hang => true

/-- Whether a zone is mixed (R19). -/
def mixedLine : LineState → Bool
  | .live | .hang => true
  | .off | .standby | .waking | .fault => false

/-- The egress tag of a zone: WAKE, HELD, CLASS and WIDTH16 (Table 1.7, R13); `held` is the class of a JOINED holder. -/
def egressTag (line : LineState) (held : Option AnnClass) (width16 : Bool) : Byte :=
  BitVec.ofNat 8 ((wakeLine line).toNat * 128 + held.isSome.toNat * 64 +
    (held.map classNum).getD 0 * 16 + width16.toNat * 8)

end Sys2Proof.Machine
end

