-- ==== Sys2Proof/Machine/Trunk.lean ====
section
/-! DEFINITION. The audio trunk (Chapter 1): frame check values, ingress frame classes, lane delivery, cell assembly, the egress slot arbiter and the egress frame. -/

namespace Sys2Proof.Machine

/-! ### Check values (R1) -/

/-- One bit through the check register. -/
def crcBit (r : Word) (b : Bool) : Word :=
  if (r.msb != b) = true then (r <<< 1) ^^^ 0x04C11DB7#32 else r <<< 1

/-- One word through the check register, most significant bit first. -/
def crcWord (r w : Word) : Word := (List.range 32).foldl (fun acc i => crcBit acc (w.getLsbD (31 - i))) r

/-- The check value of a run of words. -/
def checkValue (ws : List Word) : Word := ~~~(ws.foldl crcWord 0xFFFFFFFF#32)

/-- The header word carries the sync pattern and the ingress link code (Table 1.3). -/
def headerFound (f : Frame) : Bool := f.head.extractLsb' 8 24 == 0xC35A28#24

/-- A good frame: its header is found and its CRC word is the check value of header, lane words and service word (R1). -/
def frameGood (f : Frame) : Bool :=
  headerFound f && f.crc == checkValue (f.head :: f.lanes ++ [f.service])

/-- The cell-start flag (Table 1.3). -/
def cellStart (f : Frame) : Bool := f.head.getLsbD 7

/-- The last good sample that a good frame writes for a lane: its sample, or 0 with the MUTE flag set (R9, Tables 1.5 and 1.6). -/
def goodSample (f : Frame) (lane : Nat) : Sample :=
  let w := f.lanes.getD lane 0
  if w.getLsbD 7 then 0 else w.extractLsb' 8 24

/-! ### Cell assembly (R15, R16, R140) -/

/-- A bad or missing frame, or a new cell start, drops a partial cell and counts it (R16). -/
def discardPartial (s : State) : State :=
  if s.ch.words = [] then s
  else s.setCh { s.ch with words := [], capture := none, discards := countUp s.ch.discards 1 }

/-- The service word of a good frame of SYNC (R15). The first word of a cell captures station time and phase (R140). -/
def takeServiceWord (start : Bool) (w : Word) (s : State) : State :=
  if start then
    let s := discardPartial s
    s.setCh { s.ch with words := [w], capture := some (now s) }
  else if s.ch.words = [] then s
  else if s.ch.words.length = 11 then
    s.setCh { s.ch with words := [], complete := some (s.ch.words ++ [w]) }
  else s.setCh { s.ch with words := s.ch.words ++ [w] }

/-! ### Frame classes and link state (R1, R3, R4, R5, R7, R9) -/

/-- Raise LINK_STATE for a change from `old` to `new` (R6). -/
def raiseLinkState (old new : LinkState) (badRun : Nat) (s : State) : State :=
  pushEvent 0x01 (BitVec.ofNat 8 (linkCode new)) 0 [f1 (linkCode old), f2 badRun] s

/-- A good frame. In DOWN it makes the link SYNC (R3); in SYNC it clears the bad run (R4); in LOST it adds to the good run, and the sixteenth is already taken as a frame of SYNC (R5, R15). The change from LOST itself is LINK_RECOVERED. -/
def goodFrame (f : Frame) (s : State) : State :=
  let lastGood := tmapIdx s.itp.lastGood fun i _ => goodSample f i
  match s.itp.link with
  | .down =>
    let s := raiseLinkState .down .sync s.itp.badRun
      (s.setItp { s.itp with link := .sync, badRun := 0, lastGood := lastGood })
    takeServiceWord (cellStart f) f.service s
  | .sync => takeServiceWord (cellStart f) f.service (s.setItp { s.itp with badRun := 0, lastGood := lastGood })
  | .lost =>
    let run := min 16 (s.itp.goodRun + 1)
    let s := s.setItp { s.itp with goodRun := run, expecting := true, lastGood := lastGood }
    if run = 16 then takeServiceWord (cellStart f) f.service s else discardPartial s

/-- A bad frame: a header whose check value fails (R1). -/
def badFrame (s : State) : State :=
  let errors := countUp s.itp.crcErrors 1
  match s.itp.link with
  | .down => s.setItp { s.itp with crcErrors := errors }
  | .sync => discardPartial (s.setItp { s.itp with crcErrors := errors, badRun := min 48 (s.itp.badRun + 1) })
  | .lost => discardPartial (s.setItp { s.itp with crcErrors := errors, goodRun := 0 })

/-- A missing frame: no header at the expected position. Where no position is expected (DOWN, and LOST before its first good frame or after a missing frame) there is no missing frame (R1). -/
def missingFrame (s : State) : State :=
  let count := countUp s.itp.missing 1
  match s.itp.link with
  | .down => s
  | .sync => discardPartial (s.setItp { s.itp with missing := count, badRun := min 48 (s.itp.badRun + 1) })
  | .lost =>
    if s.itp.expecting then
      discardPartial (s.setItp { s.itp with missing := count, goodRun := 0, expecting := false })
    else s

/-- An ingress frame, classed by R1. -/
def ingressFrame (f : Frame) (s : State) : State :=
  if frameGood f then goodFrame f s else if headerFound f then badFrame s else missingFrame s

/-! ### Delivery (R8) -/

/-- The sixteenth good frame of LOST is delivered as the first frame of SYNC (R5). -/
def recovering (s : State) : Bool := s.itp.link == .lost && s.itp.goodRun == 16

/-- Whether the frame period is one of SYNC for delivery and for the Ambient Tracker (R8, R44). -/
def syncPeriod (s : State) : Bool := s.itp.link == .sync || recovering s

/-- The delivered value of a lane before its role is regarded (Table 1.2). After a good frame the last good sample is the lane's sample or 0 under MUTE; in a run of 1 to 3 bad or missing frames it is held; from the fourth on the value is 0. -/
def delivered (s : State) (lane : Nat) : Int :=
  if syncPeriod s && (recovering s || decide (s.itp.badRun ≤ 3)) then (tget s.itp.lastGood lane).toInt else 0

/-- The value a lane delivers to programme routes and holder terms (R8). -/
def sourceValue (s : State) (lane : Nat) : Int :=
  if tget s.itp.roles lane = .source then delivered s lane else 0

/-- The ambient lane of a zone, if it has one (Section 1.4). -/
def ambientLane (s : State) (zone : Nat) : Option Nat :=
  (List.range 40).find? fun i => tget s.itp.roles i == .ambient zone

/-! ### The egress slot (R14) and cells (Tables 1.8 and 1.9) -/

/-- A word from four bytes, the first the most significant. -/
def packWord (a b c d : Byte) : Word := a ++ b ++ c ++ d

/-- Bytes gathered into words; a last group that is not whole is dropped. -/
def packWords : List Byte → List Word
  | a :: b :: c :: d :: rest => packWord a b c d :: packWords rest
  | _ => []

/-- The twelve words of a cell from its bytes; bytes after the last field are 0 (R17). -/
def cellWords (bs : List Byte) : List Word := packWords ((bs ++ List.replicate 48 0).take 48)

/-- Byte 0 of a cell: unit address and cell kind (Table 1.8). -/
def cellHead (addr kind : BitVec 4) : Byte := addr ++ kind

/-- The words of a reply cell (Table 1.9). -/
def replyWords (addr : BitVec 4) (r : Reply) : List Word :=
  cellWords ([cellHead addr 2, r.tag, r.code, BitVec.ofNat 8 (replyStatusCode r.status)] ++ payloadBytes r.result)

/-- The words of an event cell (Table 1.9). -/
def eventWords (addr : BitVec 4) (e : Event) : List Word :=
  cellWords ([cellHead addr 3, 0, e.kind, e.cause] ++
    payloadBytes ([.b2 e.subject, .b4 e.time, f2 e.phase] ++ e.detail))

/-- The words of an idle cell: cell kind IDLE, everything after the unit address 0 (R14; DEDUCED, log 27). -/
def idleWords (addr : BitVec 4) : List Word := cellWords [cellHead addr 0]

/-- The choice of the slot arbiter: the head reply, else the head event, else an idle cell (R14). It is made once, at the first frame period of an egress cell period. -/
def chooseCell (s : State) : State :=
  if s.etp.slot = 0 ∧ s.etp.sending = none then
    match s.ch.replies, s.ch.events with
    | r :: rest, _ =>
      (s.setEtp { s.etp with sending := some (replyWords s.ch.unitAddr r) }).setCh { s.ch with replies := rest }
    | [], e :: rest =>
      (s.setEtp { s.etp with sending := some (eventWords s.ch.unitAddr e) }).setCh { s.ch with events := rest }
    | [], [] => s.setEtp { s.etp with sending := some (idleWords s.ch.unitAddr) }
  else s

/-- EGRESS_CELL_PERIOD (R14). FRAME_PERIOD makes the same choice where no row has made it. -/
def execEgressCellPeriod (s : State) : Host.Outcome State Fault Refusal := .next (chooseCell s)

/-- The egress frame of a frame period: header, lane words, service word and CRC word (R12, Tables 1.3 and 1.4). -/
def egressFrame (slot : Nat) (sending : Option (List Word)) (lanes : List Word) : List Word :=
  let head : Word := if slot = 0 then 0xC35A3080 else 0xC35A3000
  let service := (sending.getD []).getD slot 0
  let body := head :: lanes ++ [service]
  body ++ [checkValue body]

/-! ### Ingress rows. They come first in their frame period, after the slot arbiter's choice, which reads the queues as they stand at its start (R14). -/

/-- INGRESS_GOOD_FRAME (R1, R3 to R5, R9, R15). R1 classes the frame by its words. -/
def execIngressGoodFrame (f : Frame) (s : State) : Host.Outcome State Fault Refusal := .next (ingressFrame f (chooseCell s))

/-- INGRESS_BAD_FRAME (R1, R4, R5, R7, R16). R1 classes the frame by its words. -/
def execIngressBadFrame (f : Frame) (s : State) : Host.Outcome State Fault Refusal := .next (ingressFrame f (chooseCell s))

/-- INGRESS_MISSING_FRAME (R1, R4, R5, R7, R16). -/
def execIngressMissingFrame (s : State) : Host.Outcome State Fault Refusal := .next (missingFrame (chooseCell s))

/-! ### Cells that carry no command for this part -/

/-- NON_COMMAND_CELL: dropped without reply and without count (R15). -/
def execNonCommandCell (_kind : BitVec 4) (_h : Header) (s : State) : Host.Outcome State Fault Refusal := .next s

/-- FOREIGN_CELL: not checked, not carried out, not counted and not answered (R175). -/
def execForeignCell (_h : Header) (_code : Byte) (s : State) : Host.Outcome State Fault Refusal := .next s

end Sys2Proof.Machine
end

