-- ==== Sys2Proof/Machine/Mixer.lean ====
section
/-! DEFINITION. The Zone Mixer (Chapter 2): the mix of a zone in a frame period. -/

namespace Sys2Proof.Machine

/-- Round14: the floor of (x + 8192) / 16384 on the exact value (R18). Lean's `/` on Int floors for a positive divisor. -/
def round14 (x : Int) : Int := (x + 8192) / 16384

/-- The programme term of one route (R20). -/
def routeTerm (s : State) (r : Route) : Int :=
  match r.lane with
  | none => 0
  | some i => round14 (sourceValue s i * r.coeff)

/-- The programme sum P of a zone: its four terms, each rounded by itself (R20). -/
def programmeSum (s : State) (m : MixZone) : Int :=
  ((List.range 4).map fun r => routeTerm s (tget m.routes r)).sum

/-- The claim entry of a zone. -/
def claim (s : State) (z : Nat) : Claim := tget s.zar.claims z

/-- The request a claim entry names. -/
def claimHandle : Claim → Option Nat
  | .empty => none
  | .pendingJoin h | .joined h => some h

/-- The class of the request that a claim entry names. -/
def claimClass (s : State) (c : Claim) : Option AnnClass :=
  (claimHandle c).map fun h => (tget s.zar.requests h).cls

/-- The duck target t of a zone (R21). -/
def duckTarget (s : State) (c : Claim) (duckLevel : Nat) : Nat :=
  match claimClass s c with
  | none => 16384
  | some .evac => 0
  | some .live | some .timed | some .info => duckLevel

/-- One ramp step of `d` toward `t` by at most `k` (R22). -/
def rampToward (d t k : Nat) : Nat :=
  if d ≤ t then (if t - d ≤ k then t else d + k) else (if d - t ≤ k then t else d - k)

/-- The sample of a request's current source in a frame period (R24): its lane by R8, or its engine's playout lane. -/
def holderSample (s : State) (playout : Nat → Int) (r : Request) : Int :=
  match r.current with
  | .lane => sourceValue s r.lane
  | .engine => match r.engine with
    | some e => playout e
    | none => 0

/-- The holder term A of a zone (R24). -/
def holderTerm (s : State) (playout : Nat → Int) : Claim → Int
  | .joined h =>
    let r := tget s.zar.requests h
    round14 (holderSample s playout r * r.level)
  | .empty | .pendingJoin _ => 0

/-- The gain G of a zone (R25). -/
def zoneGain (trim factor : Nat) : Int := min 65535 (round14 ((trim : Int) * factor))

/-- The output Y before clamping (R26). -/
def mixOutput (p : Int) (duck : Nat) (a : Int) (gain : Int) : Int := round14 ((round14 (p * duck) + a) * gain)

/-- A value clamped to the sample range (R26). -/
def clampSample (y : Int) : Int := clampInt (-8388608) 8388607 y

/-- The narrowing of a clamped output to 16 bits, before and after its own clamp (R27). -/
def narrow16 (y : Int) : Int × Int :=
  let n := (y + 128) / 256
  (n, clampInt (-32768) 32767 n)

/-- The egress sample of a mixed zone from its output, and how many clamps changed it (R26, R27, R28). -/
def finishSample (width16 : Bool) (y : Int) : Int × Nat :=
  let yc := clampSample y
  let first := (decide (yc ≠ y)).toNat
  if width16 then
    let n := narrow16 yc
    (n.2 * 256, first + (decide (n.1 ≠ n.2)).toNat)
  else (yc, first)

/-- The duck coefficient of a zone after the ramp step of this frame period (R22). -/
def duckAfter (s : State) (z : Nat) : Nat :=
  let m := tget s.zmx z
  rampToward m.duck (duckTarget s (tget s.zar.claims z) m.duckLevel) m.rampStep

/-- The mix of one zone in a frame period on the state as it stands at the period's start: the egress sample and the saturations counted (R19 to R29). -/
def mixZone (s : State) (playout : Nat → Int) (z : Nat) : Int × Nat :=
  let m := tget s.zmx z
  let line := tget s.zlc z
  if mixedLine line.line then
    finishSample line.width16
      (mixOutput (programmeSum s m) (duckAfter s z) (holderTerm s playout (tget s.zar.claims z))
        (zoneGain m.trim (tget s.amt z).factor))
  else (0, 0)

/-- The class of a zone's JOINED holder (R13). -/
def heldClass (s : State) : Claim → Option AnnClass
  | .joined h => some (tget s.zar.requests h).cls
  | .empty | .pendingJoin _ => none

/-- The egress lane word of a zone: its sample and its tag (R12, R13, Table 1.5). -/
def laneWord (s : State) (sample : Int) (z : Nat) : Word :=
  let line := tget s.zlc z
  BitVec.ofInt 24 sample ++ egressTag line.line (heldClass s (tget s.zar.claims z)) line.width16

/-- What a frame period does to the mixer's own state: every duck coefficient takes its step (R22) and every saturation is counted (R28). -/
def mixState (s : State) (playout : Nat → Int) : Vector MixZone 48 :=
  tmapIdx s.zmx fun z m =>
    { m with duck := duckAfter s z, saturation := countUp m.saturation (mixZone s playout z).2 }

end Sys2Proof.Machine
end

