-- ==== Sys2Proof/Machine/Tracker.lean ====
section
/-! DEFINITION. The Ambient Tracker (Chapter 3): gates, samples, window ends, clears, and RELEASE_HOLD_END. -/

namespace Sys2Proof.Machine

/-- A clear of the estimator of a zone; settings, gate and release count stay (R46). -/
def clearedEstimator (a : AmbientZone) : AmbientZone :=
  { a with acc := 0, count := 0, level := 0, peak := 0, factor := 16384 }

/-- Clear the estimators of a list of zones (R46). -/
def clearEstimators (zs : List Nat) (s : State) : State :=
  s.setAmt (zs.foldl (fun t z => tmod t z clearedEstimator) s.amt)

/-- The gate state and release count of a zone after the update of a frame period (R42). -/
def gateUpdate (c : Claim) (a : AmbientZone) : AmbientZone :=
  match c with
  | .joined _ => { a with gate := .holder, release := a.hold }
  | .empty | .pendingJoin _ =>
    if a.release > 0 then { a with gate := .release, release := a.release - 1 } else { a with gate := .open }

/-- The sample of a frame period: with an ambient lane, an OPEN gate and a SYNC period, the magnitude of the delivered value is added (R39, R44). -/
def ambientSample (s : State) (z : Nat) (a : AmbientZone) : AmbientZone :=
  match ambientLane s z with
  | none => a
  | some i =>
    if a.gate = .open ∧ syncPeriod s = true then
      { a with acc := a.acc + (delivered s i).natAbs, count := a.count + 1 }
    else a

/-- The target ambient factor for a level (R41). -/
def ambientTarget (a : AmbientZone) (level : Nat) : Nat :=
  min a.factorMax (16384 + a.slope * (level - a.threshold) / 65536)

/-- Whether a zone's window end is due: the sample taken has raised the window count to 4,800 (R40). -/
def windowDue (a : AmbientZone) : Bool := decide (4800 ≤ a.count)

/-- A window end: level, peak, one move of the factor, and a new window (R40, R41). -/
def endWindow (a : AmbientZone) : AmbientZone :=
  let level := a.acc / 4800
  { a with acc := 0, count := 0, level := level, peak := max a.peak level,
           factor := rampToward a.factor (ambientTarget a level) a.step }

/-- The window end of a zone, where it is due; the period remembers it for R45. -/
def windowEnd (z : Nat) (s : State) : State :=
  if z < 48 ∧ windowDue (tget s.amt z) = true then
    (s.setAmt (tmod s.amt z endWindow)).setPeriod { s.period with windowEnded := s.period.windowEnded ||| zone1 z }
  else s

/-- The peak of a zone when its line leaves STANDBY: 0, or the level of a window that ended in the same frame period (R45). -/
def clearPeak (z : Nat) (s : State) : State :=
  s.setAmt (tmod s.amt z fun a => { a with peak := if zmem s.period.windowEnded z then a.level else 0 })

/-- RELEASE_HOLD_END on a zone: the gate returns to OPEN at the start of the frame period that finds the release count at 0 and no JOINED holder (R42). -/
def releaseHoldEnd (z : Nat) (s : State) : State :=
  let a := tget s.amt z
  let c := tget s.zar.claims z
  if s.period.started = false ∧ a.gate = .release ∧ a.release = 0 ∧ (heldClass s c).isNone then
    s.setAmt (tset s.amt z { a with gate := .open })
  else s

/-- RELEASE_HOLD_END (R42). It belongs to the start of a frame period; an end that is not due does not happen (log 2). -/
def execReleaseHoldEnd (zone : Nat) (s : State) : Host.Outcome State Fault Refusal := .next (releaseHoldEnd zone s)

end Sys2Proof.Machine
end

