-- ==== Sys2Proof/Machine/Clips.lean ====
section
/-! DEFINITION. The Clip Memory Controller (Chapter 7): clip memory and bank use counts. -/

namespace Sys2Proof.Machine

/-! ### Clip memory (R116, log 12, log 32) -/

/-- The sample that a list of written samples holds at an address. -/
def memLookup (m : List (Nat × ClipSample)) (a : Nat) : Option ClipSample :=
  (m.find? fun c => c.1 == a).map (·.2)

/-- The list with a sample written; addresses stay strictly rising. -/
def memWrite : List (Nat × ClipSample) → Nat → ClipSample → List (Nat × ClipSample)
  | [], a, v => [(a, v)]
  | c :: rest, a, v =>
    if a < c.1 then (a, v) :: c :: rest
    else if a = c.1 then (a, v) :: rest
    else c :: memWrite rest a v

/-- Addresses strictly rising: the canonical form of the clip memory. -/
def memSorted : List (Nat × ClipSample) → Bool
  | [] => true
  | [_] => true
  | a :: b :: rest => decide (a.1 < b.1) && memSorted (b :: rest)

/-- Samples of the clip memory (Table 7.1). -/
def clipCapacity : Nat := 67108864

/-- The canonical form of the clip memory: addresses strictly rising and within the memory. -/
def memWf (m : List (Nat × ClipSample)) : Bool := memSorted m && m.all fun c => decide (c.1 < clipCapacity)

/-- The sample at an address: the one written there, or the free value the DRAM holds since power-on (R116, log 12). -/
def clipAt (m : Cmc) (a : Nat) : ClipSample := (memLookup m.memory a).getD (Config.clipPowerOn m.powerCycle a)

/-- Write samples at successive addresses; those past the end of the memory are ignored (R119). -/
def writeClips (m : Cmc) (a : Nat) : List ClipSample → Cmc
  | [] => m
  | v :: rest => writeClips (if a < clipCapacity then { m with memory := memWrite m.memory a v } else m) (a + 1) rest

/-- The bank of a sample address (R116). -/
def bankOf (a : Nat) : Nat := a / 1048576

/-- The bank of a fragment's clip; a pause has none. -/
def fragmentBank : Fragment → Option Nat
  | .clip start _ => some (bankOf start)
  | .pause _ => none

/-- Raise the use count of the bank of every clip fragment of a list (R72 step 4, R117). -/
def useBanks (frags : List Fragment) (s : State) : State :=
  s.setCmc { s.cmc with useCounts := (frags.filterMap fragmentBank).foldl (fun t b => tmod t b (· + 1)) s.cmc.useCounts }

/-- Lower the use count of the bank of every clip fragment of a list (R84 step 5, R117). -/
def unuseBanks (frags : List Fragment) (s : State) : State :=
  s.setCmc { s.cmc with useCounts := (frags.filterMap fragmentBank).foldl (fun t b => tmod t b (· - 1)) s.cmc.useCounts }

end Sys2Proof.Machine
end

