-- ==== Sys2Proof/Machine/Engines.lean ====
section
/-! DEFINITION. The Playout Engines (Chapter 6): fragment lengths, clip samples, the output and advance of a frame period, binding, release and entry to STOPPING. -/

namespace Sys2Proof.Machine

/-- A fragment's length in frames (R100). -/
def fragmentFrames : Fragment → Nat
  | .clip _ length => 2 * length
  | .pause frames => frames

/-- The duration of a fragment list (R133). -/
def listDuration (fs : List Fragment) : Nat := (fs.map fragmentFrames).sum

/-- The output sample of a fragment at a position (R101, R102). -/
def fragmentSample (m : Cmc) (f : Fragment) (pos : Nat) : Int :=
  match f with
  | .pause _ => 0
  | .clip start length =>
    let j := pos / 2
    let a := (clipAt m (start + j)).toInt
    if pos % 2 = 1 ∧ j + 1 < length then (a + (clipAt m (start + j + 1)).toInt) / 2 * 256 else a * 256

/-- The fragment list of the request an engine is bound to. -/
def engineList (s : State) (e : Engine) : List Fragment :=
  match e.handle with
  | some h => (tget s.zar.requests h).fragments
  | none => []

/-- The fragment an engine is at, if any. -/
def engineFragment (s : State) (e : Engine) : Option Fragment := e.fragment.bind fun i => (engineList s e)[i]?

/-- The base sample of an engine: the sample of its list at its fragment and position, 0 past the end and without a fragment (R100, R107). -/
def baseSample (s : State) (e : Engine) : Int :=
  match engineFragment s e with
  | some f => if e.position < fragmentFrames f then fragmentSample s.cmc f e.position else 0
  | none => 0

/-- An engine whose fragment is over takes the next one, without a boundary, while one follows (R107). -/
def passFragment (s : State) (e : Engine) : Engine :=
  match e.fragment, engineFragment s e with
  | some i, some f =>
    if fragmentFrames f ≤ e.position ∧ i + 1 < (engineList s e).length then
      { e with fragment := some (i + 1), position := 0 }
    else e
  | _, _ => e

/-- The position after a frame period; past the end of the last fragment it is held at the fragment's length (Table 6.1, R107). -/
def advancePosition (s : State) (e : Engine) : Engine :=
  match engineFragment s e with
  | some f => { e with position := min (fragmentFrames f) (e.position + 1) }
  | none => e

/-- An engine through the output of one frame period: its sample (R96, R100, R107), its fade count and its position. -/
def engineStep (s : State) (e : Engine) : Engine :=
  match e.state with
  | .idle | .preroll => { e with output := 0 }
  | .playing => { advancePosition s e with output := BitVec.ofInt 24 (baseSample s e) }
  | .stopping =>
    let e := passFragment s e
    let r := e.fade - 1
    { passFragment s (advancePosition s e) with fade := r, output := BitVec.ofInt 24 (baseSample s e * r / 64) }

/-- The sample an engine puts on its playout lane in a frame period, from its state at the period's start (R96). -/
def playoutSample (s : State) (e : Nat) : Int := (engineStep s (tget s.engines e)).output.toInt

/-- Whether a playing engine has produced the last sample of its fragment and the boundary is not taken yet (R104). -/
def boundaryDue (s : State) (e : Engine) : Bool :=
  e.state == .playing && match engineFragment s e with
    | some f => e.position == fragmentFrames f
    | none => false

/-- Whether a stopping engine's fade count has reached 0 (R108). -/
def fadeDue (e : Engine) : Bool := e.state == .stopping && e.fade == 0

/-- Set one engine. -/
def setEngine (e : Nat) (x : Engine) (s : State) : State := s.setEngines (tset s.engines e x)

/-- Bind an engine at a grant: PREROLL, with the granted set as wait set (R97). -/
def bindEngine (e h : Nat) (granted : ZoneSet) (s : State) : State :=
  setEngine e { tget s.engines e with state := .preroll, handle := some h, waitSet := granted, fragment := none,
                                      position := 0, loops := 0, fade := 0 } s

/-- Release an engine to IDLE: it keeps its loop count (R95), and the mark of R77 is cleared when it carries it. -/
def releaseEngine (e : Nat) (s : State) : State :=
  let x := { tget s.engines e with state := EngineState.idle, handle := none, waitSet := 0, fragment := none,
                                   position := 0, fade := 0 }
  let s := setEngine e x s
  if s.zar.evacMark = some e then s.setZar { s.zar with evacMark := none } else s

/-- Release the engine of a request, if it has one. -/
def releaseEngine? : Option Nat → State → State
  | some e, s => releaseEngine e s
  | none, s => s

/-- Put an engine into STOPPING with a fade count of 64; its wait set is emptied and its place in the list kept (R106). -/
def stopEngine (e : Nat) (s : State) : State :=
  setEngine e { tget s.engines e with state := .stopping, waitSet := 0, fade := 64 } s

/-- The lowest-numbered IDLE engine (R76). -/
def idleEngine? (s : State) : Option Nat := (List.range 6).find? fun e => (tget s.engines e).state == .idle

end Sys2Proof.Machine
end

