-- ==== Sys2Proof/Machine/Start.lean ====
section
/-! DEFINITION. The start of a frame period (R2): the work on the state as it stands there, and the taking of a command, which falls after it. -/

namespace Sys2Proof.Machine

/-! ### The start work -/

/-- The gates and the ambient samples of a frame period (R39, R42). -/
def trackerPeriod (s : State) : Vector AmbientZone 48 :=
  tmapIdx s.amt fun z a => ambientSample s z (gateUpdate (claim s z) a)

/-- The egress lane words of a frame period (R12, R19). -/
def egressLanes (s : State) (playout : Nat → Int) : List Word :=
  (List.range 48).map fun z => laneWord s (mixZone s playout z).1 z

/-- The work on the state as it stands at the start of the frame period: slot choice, engine output, mix, egress frame, duck steps, gates and ambient samples (R12, R14, R19, R22, R39, R42, R96). -/
def beginPeriod (s : State) : State :=
  let s := chooseCell s
  let engines := s.engines.map (engineStep s)
  let playout := fun e => (tget engines e).output.toInt
  { s with
    etp := { s.etp with frame := egressFrame s.etp.slot s.etp.sending (egressLanes s playout) }
    zmx := mixState s playout
    amt := trackerPeriod s
    engines := engines
    period := { s.period with started := true } }

/-- The start work, once in a frame period. Every row that acts within a frame period begins with it, so that what the row changes is seen from the next period on (R19, R52, log 1). -/
def startPeriod (s : State) : State := if s.period.started then s else beginPeriod s

/-! ### Taking a command (R175, R176, R177) -/

/-- The command is for this unit: broadcast, or its own address (R175). -/
def addressed (h : Header) (s : State) : Bool := h.addr == 15 || h.addr == s.ch.unitAddr

/-- Carry out a command in a frame period that has begun: a command to the unit's own address is answered by one reply, a broadcast one is not. The index of free values moves on at every command taken (log 13). -/
def carryOut (h : Header) (code : Byte) (run : State → Answer) (s : State) : State :=
  let a := run s
  let t := a.after.setFree (s.free + 1)
  if h.addr = 15 then t else pushReply ⟨h.tag, code, a.status, a.result⟩ t

/-- Take a complete command cell (R175, R176, R177). A cell for another unit is ignored. -/
def takeCommand (h : Header) (code : Byte) (run : State → Answer) (s : State) : State :=
  if addressed h s then carryOut h code run (startPeriod s) else s

/-- A taken command whose code no rule gives is answered NOENT, its payload unread (R176). -/
def unknownCommand (h : Header) (code : Byte) (s : State) : State :=
  if commandCodes.contains code then s else takeCommand h code (refuse .noent) s

/-- UNKNOWN_COMMAND (R176). With a code that a rule gives, the row's event does not happen (log 2). -/
def execUnknownCommand (h : Header) (code : Byte) (s : State) : Host.Outcome State Fault Refusal :=
  .next (unknownCommand h code s)

end Sys2Proof.Machine
end

