-- ==== Sys2Proof/Machine/Settings.lean ====
section
/-! DEFINITION. The commands on mixer, tracker and clip memory: ROUTE_SET, ZONE_MIX_SET, AMBIENT_SET, LANE_SET, CLIP_WRITE, CLIP_READ and PHRASE_SET; and WINDOW_END. -/

namespace Sys2Proof.Machine

/-- WINDOW_END (R40). A window end that is not due does not happen (log 2). -/
def execWindowEnd (zone : Nat) (s : State) : Host.Outcome State Fault Refusal := .next (windowEnd zone (startPeriod s))

/-! ### ROUTE_SET and ZONE_MIX_SET -/

/-- At least one route names a lane and has a nonzero coefficient (R32, R54). -/
def routesLive (m : MixZone) : Bool :=
  (List.range 4).any fun r => (tget m.routes r).lane.isSome && (tget m.routes r).coeff != 0

/-- ROUTE_SET on the mixer and the zone table's route-live flag (R31, R32). The route is one byte of the cell and of the reply, as an index is (DEDUCED, log 14). -/
def routeSet (zone route lane : Byte) (coeff : Half) (s : State) : Answer :=
  let z := zone.toNat
  let r := route.toNat
  if z > 47 ∨ r > 3 ∨ (lane.toNat > 39 ∧ lane ≠ 0xFF) then refuse .badarg s else
  let old := tget (tget s.zmx z).routes r
  let entry : Route := ⟨if lane = 0xFF then none else some lane.toNat, coeff.toNat⟩
  let m := { tget s.zmx z with routes := tset (tget s.zmx z).routes r entry }
  ⟨.done, [.b1 zone, .b1 route, .b1 lane, .b2 coeff, f1? old.lane, f2 old.coeff],
    (s.setZmx (tset s.zmx z m)).setZlc (tmod s.zlc z fun l => { l with routeLive := routesLive m })⟩

/-- ROUTE_SET, code 21h (R31). -/
def execRouteSet (h : Header) (zone route lane : Byte) (coeff : Half) (s : State) : Host.Outcome State Fault Refusal :=
  .next (takeCommand h 0x21 (routeSet zone route lane coeff) s)

/-- ZONE_MIX_SET on the mixer (R34). -/
def zoneMixSet (zone : Byte) (trim duckLevel rampStep : Half) (s : State) : Answer :=
  let z := zone.toNat
  if z > 47 ∨ duckLevel.toNat > 16384 ∨ rampStep = 0 ∨ rampStep.toNat > 16384 then refuse .badarg s else
  let m := tget s.zmx z
  ⟨.done, [.b1 zone, .b2 trim, .b2 duckLevel, .b2 rampStep, f2 m.trim, f2 m.duckLevel, f2 m.rampStep, f2 m.duck],
    s.setZmx (tset s.zmx z
      { m with trim := trim.toNat, duckLevel := duckLevel.toNat, rampStep := rampStep.toNat })⟩

/-- ZONE_MIX_SET, code 22h (R34). -/
def execZoneMixSet (h : Header) (zone : Byte) (trim duckLevel rampStep : Half) (s : State) :
    Host.Outcome State Fault Refusal :=
  .next (takeCommand h 0x22 (zoneMixSet zone trim duckLevel rampStep) s)

/-! ### AMBIENT_SET -/

/-- AMBIENT_SET on the tracker (R47, R48). A window end of the same frame period uses the settings held before (R48), so one that is due is made first. -/
def ambientSet (zone flags : Byte) (threshold : Word) (slope ambMax stepMax hold : Half) (s : State) : Answer :=
  let z := zone.toNat
  if z > 47 ∨ flags.toNat > 1 ∨ threshold.toNat > 8388608 ∨ ambMax.toNat < 16384 ∨ stepMax = 0 then refuse .badarg s else
  let s := windowEnd z s
  let a := { tget s.amt z with threshold := threshold.toNat, slope := slope.toNat, factorMax := ambMax.toNat,
                               step := stepMax.toNat, hold := hold.toNat }
  let a := if flagBit flags 0 then { a with factor := min a.factor ambMax.toNat } else clearedEstimator a
  ⟨.done, [.b1 zone, f1? (ambientLane s z), .b4 threshold, .b2 slope, .b2 ambMax, .b2 stepMax, .b2 hold, .b1 flags,
      f2 a.factor, f4 a.level, f4 a.peak],
    s.setAmt (tset s.amt z a)⟩

/-- AMBIENT_SET, code 31h (R47). -/
def execAmbientSet (h : Header) (zone flags : Byte) (threshold : Word) (slope ambMax stepMax hold : Half) (s : State) :
    Host.Outcome State Fault Refusal :=
  .next (takeCommand h 0x31 (ambientSet zone flags threshold slope ambMax stepMax hold) s)

/-! ### LANE_SET -/

/-- A lane is the source lane of a live request that is not FREE (R10). -/
def laneInUse (s : State) (lane : Nat) : Bool :=
  s.zar.requests.toList.any fun r => r.state != .free && r.live && r.lane == lane

/-- The zone a role names. -/
def roleZone : LaneRole → Option Nat
  | .ambient z => some z
  | .unused | .source => none

/-- LANE_SET on the lane role table and the estimators (R10, R11). -/
def laneSet (lane role zone : Byte) (s : State) : Answer :=
  let i := lane.toNat
  let z := zone.toNat
  if i > 39 ∨ role.toNat > 2 ∨ (role = 2 ∧ z > 47) then refuse .badarg s else
  if laneInUse s i then refuse .state s else
  let new : LaneRole := if role = 2 then .ambient z else if role = 1 then .source else .unused
  let oldZone := roleZone (tget s.itp.roles i)
  let displaced := if role = 2 then (List.range 40).find? fun j => j != i && tget s.itp.roles j == .ambient z else none
  let released := if oldZone = roleZone new then none else oldZone
  let gained := if oldZone = roleZone new then none else roleZone new
  let roles := (displaced.toList.foldl (fun t j => tset t j LaneRole.unused) s.itp.roles)
  let s' := s.setItp { s.itp with roles := tset roles i new }
  ⟨.done, [.b1 lane, .b1 role, f1? (roleZone new), f1? displaced, f1? released],
    clearEstimators (gained.toList ++ released.toList) s'⟩

/-- LANE_SET, code 11h (R10). -/
def execLaneSet (h : Header) (lane role zone : Byte) (s : State) : Host.Outcome State Fault Refusal :=
  .next (takeCommand h 0x11 (laneSet lane role zone) s)

/-! ### CLIP_WRITE and CLIP_READ -/

/-- The sample address of CLIP_WRITE and CLIP_READ is out of range (R118, R120). -/
def clipAddressBad (a : Nat) : Bool := a % 20 != 0 || decide (a > 67108860)

/-- The number of addresses of a block that lie within the memory (R118, R119). -/
def blockSize (a : Nat) : Nat := min 20 (clipCapacity - a)

/-- The first bank a block touches. -/
def firstBank (a : Nat) : Nat := bankOf a

/-- The second bank a block touches, when it straddles a bank boundary (R118). -/
def secondBank (a : Nat) : Option Nat :=
  let last := bankOf (a + blockSize a - 1)
  if last = bankOf a then none else some last

/-- CLIP_WRITE on the clip memory (R118, R119). The DONE reply names two banks, as the BUSY reply does, the second FFh when the block touches one (DEDUCED, log 45). -/
def clipWrite (addr : Word) (samples : List ClipSample) (s : State) : Answer :=
  let a := addr.toNat
  if clipAddressBad a then refuse .badarg s else
  let use1 := tget s.cmc.useCounts (firstBank a)
  let use2 := ((secondBank a).map fun b => tget s.cmc.useCounts b).getD 0
  if use1 > 0 ∨ use2 > 0 then
    ⟨.busy, [.b4 addr, f1 (firstBank a), f2 use1, f1? (secondBank a), f2 use2], s⟩
  else
    ⟨.done, [.b4 addr, f2 (blockSize a), f1 (firstBank a), f1? (secondBank a)],
      s.setCmc (writeClips s.cmc a (samples.take 20))⟩

/-- CLIP_WRITE, code 71h (R118). -/
def execClipWrite (h : Header) (addr : Word) (samples : List ClipSample) (s : State) :
    Host.Outcome State Fault Refusal :=
  .next (takeCommand h 0x71 (clipWrite addr samples) s)

/-- CLIP_READ on the clip memory: samples past the end of the memory are 0 (R120). -/
def clipRead (addr : Word) (s : State) : Answer :=
  let a := addr.toNat
  if clipAddressBad a then refuse .badarg s else
  ⟨.done, .b4 addr :: (List.range 20).map fun k =>
      .b2 (if a + k < clipCapacity then clipAt s.cmc (a + k) else 0), s⟩

/-- CLIP_READ, code 73h (R120). -/
def execClipRead (h : Header) (addr : Word) (s : State) : Host.Outcome State Fault Refusal :=
  .next (takeCommand h 0x73 (clipRead addr) s)

/-! ### PHRASE_SET -/

/-- The clip of PHRASE_SET is refused: its length, its end or its banks (R122). -/
def phraseClipBad (start length : Nat) : Bool :=
  length == 0 || decide (length > 1048576) || decide (start + length > clipCapacity) ||
    bankOf start != bankOf (start + length - 1)

/-- The start and length of an entry as a reply gives them: those of an absent entry are stated by no rule (log 13). -/
def phraseFields (s : State) (point : Nat) : Option Phrase → List Field
  | some p => [f4 p.start, f4 p.length]
  | none => [.b4 (openValue point s), .b4 (openValue (point + 1) s)]

/-- PHRASE_SET on the phrase directory (R122). -/
def phraseSet (phrase : Half) (present : Byte) (start length : Word) (s : State) : Answer :=
  let id := phrase.toNat
  if id > 1023 ∨ present.toNat > 1 ∨ (present = 1 ∧ phraseClipBad start.toNat length.toNat = true) then
    refuse .badarg s else
  let old := tget s.cmc.phrases id
  let new : Option Phrase := if present = 1 then some ⟨start.toNat, length.toNat⟩ else none
  ⟨.done, [.b2 phrase, .b1 present] ++ phraseFields s 1 new ++ [f1? (new.map fun p => bankOf p.start)] ++
      [fBool old.isSome] ++ phraseFields s 3 old,
    s.setCmc { s.cmc with phrases := tset s.cmc.phrases id new }⟩

/-- PHRASE_SET, code 72h (R122). -/
def execPhraseSet (h : Header) (phrase : Half) (present : Byte) (start length : Word) (s : State) :
    Host.Outcome State Fault Refusal :=
  .next (takeCommand h 0x72 (phraseSet phrase present start length) s)

end Sys2Proof.Machine
end

