-- ==== Sys2Proof/Machine/DueList.lean ====
section
/-! DEFINITION. The due list and the scheduler's record of what becomes of a trigger (Chapter 9, R156, R161, R170, R172). -/

namespace Sys2Proof.Machine

/-- Order of the due list among entries of equal time: call triggers by slot and index, then periodic entries by index (R156). -/
def itemBefore : DueItem → DueItem → Bool
  | .trigger a i, .trigger b j => decide (a < b) || (a == b && decide (i < j))
  | .trigger _ _, .periodic _ => true
  | .periodic _, .trigger _ _ => false
  | .periodic a, .periodic b => decide (a < b)

/-- Order of the due list: by time under the station-time comparison, then by item (R156). -/
def dueBefore (a b : DueEntry) : Bool := if a.time = b.time then itemBefore a.item b.item else earlier a.time b.time

/-- Insert an entry at its place. -/
def dueInsert (e : DueEntry) : List DueEntry → List DueEntry
  | [] => [e]
  | b :: rest => if dueBefore e b then e :: b :: rest else b :: dueInsert e rest

/-- Remove the entry of an item. -/
def dueRemove (i : DueItem) (l : List DueEntry) : List DueEntry := l.filter fun e => e.item != i

/-- Place an item at a time, moving it when it is already in the list. -/
def duePlace (i : DueItem) (t : Time) (s : State) : State :=
  s.setCsc { s.csc with due := dueInsert ⟨t, i⟩ (dueRemove i s.csc.due) }

/-- Take an item out of the due list. -/
def dueDrop (i : DueItem) (s : State) : State := s.setCsc { s.csc with due := dueRemove i s.csc.due }

/-- Set a call record. -/
def setCall (slot : Nat) (c : Call) (s : State) : State := s.setCsc { s.csc with calls := tset s.csc.calls slot c }

/-- The expected time of a call (Section 9.3). -/
def expectedTime (c : Call) : Time := timeAdd c.scheduled c.delay

/-- The plan a call follows, if it is loaded. -/
def callPlan (s : State) (c : Call) : Option Plan := tget s.csc.plans c.plan

/-- A trigger of the plan a call follows. -/
def planTrigger (s : State) (c : Call) (i : Nat) : Option Trigger := (callPlan s c).bind fun p => p.triggers[i]?

/-- The fire time of a NORMAL trigger: the call's expected time plus its offset (R156). -/
def fireTime (c : Call) (t : Trigger) : Time := timeAdd (expectedTime c) t.offset

/-- What a call record holds for a trigger. -/
def callTrigger (c : Call) (i : Nat) : CallTrigger := c.triggers.getD i default

/-- Change what a call record holds for a trigger. -/
def modTrigger (slot i : Nat) (f : CallTrigger → CallTrigger) (s : State) : State :=
  let c := tget s.csc.calls slot
  setCall slot { c with triggers := lmod c.triggers i f } s

/-- TRIGGER_MISSED (R172). -/
def raiseMissed (slot i reason : Nat) (cause : Option EndCause) (handle : Option Nat) (s : State) : State :=
  let c := tget s.csc.calls slot
  let t := callTrigger c i
  pushEvent 0x0A (BitVec.ofNat 8 reason) slot
    [f1 i, f1 (roleCode t.role), f2 c.number, fTime t.fire, f1? (cause.map causeCode), f1? handle] s

/-- A trigger becomes MISSED by a failed firing: it leaves the due list, and TRIGGER_MISSED is raised (R157 to R159, R164). -/
def missTrigger (slot i reason : Nat) (s : State) : State :=
  raiseMissed slot i reason none none
    (dueDrop (.trigger slot i) (modTrigger slot i (fun t => { t with state := .missed }) s))

/-- CALL_STATE for a call that has just left `old` (R172). -/
def raiseCallState (slot : Nat) (old : CallState) (s : State) : State :=
  let c := tget s.csc.calls slot
  pushEvent 0x0C (BitVec.ofNat 8 (callCode c.state)) slot
    ([f1 (callCode old), f2 c.number, fBool c.arrival, fTime (expectedTime c)] ++
      (List.range 8).map fun i => f1? (c.triggers[i]?.map fun t => triggerCode t.state)) s

/-- One more outcome walk is due (R160). -/
def needWalk (s : State) : State := s.setWork { s.work with walksDue := s.work.walksDue + 1 }

/-- One further arbitration pass is due (R75). -/
def needPass (s : State) : State := s.setWork { s.work with passesDue := s.work.passesDue + 1 }

/-- A withdrawn trigger is PENDING again: a NORMAL one is placed at its fire time from the call's fields as they now stand, a special one is armed (R161). -/
def rearmTrigger (slot i : Nat) (s : State) : State :=
  let c := tget s.csc.calls slot
  match (callTrigger c i).role, planTrigger s c i with
  | .normal, some t =>
    let fire := fireTime c t
    duePlace (.trigger slot i) fire
      (modTrigger slot i (fun x => { x with state := .pending, handle := none, fire := fire }) s)
  | _, _ => modTrigger slot i (fun x => { x with state := .pending, handle := none }) s

/-- The scheduler records the end of a request of origin CALL (R161). -/
def recordCallEnd (slot i h : Nat) (cause : EndCause) (s : State) : State :=
  match cause with
  | .complete => modTrigger slot i (fun t => { t with state := .sounded, handle := none }) s
  | .cancelled => modTrigger slot i (fun t => { t with state := .superseded, handle := none }) s
  | .withdrawn => rearmTrigger slot i s
  | .released | .preempted | .zoneLost | .expired | .talkTimeout | .sourceLost =>
    raiseMissed slot i 6 (some cause) (some h)
      (modTrigger slot i (fun t => { t with state := .missed, handle := none }) s)

/-- The end of a request of origin PERIODIC clears the entry's previous request (R170). -/
def recordPeriodicEnd (i : Nat) (s : State) : State :=
  s.setCsc { s.csc with periodics := tmod s.csc.periodics i fun p => { p with previous := none } }

/-- The arbiter tells the scheduler of an end (R84 step 6); the walk of R160 becomes due. -/
def tellScheduler (o : Origin) (h : Nat) (cause : EndCause) (s : State) : State :=
  match o with
  | .external _ => s
  | .call slot i => needWalk (recordCallEnd slot i h cause s)
  | .periodic i => needWalk (recordPeriodicEnd i s)

end Sys2Proof.Machine
end

