-- ==== Sys2Proof/Machine/Arbiter.lean ====
section
/-! DEFINITION. The Zone Arbiter (Chapter 5): joins, ends, losses of zones, the arbitration pass, fragment boundaries and the exit from PREROLL. -/

namespace Sys2Proof.Machine

/-! ### Records, queue and claims -/

/-- The record of a handle. -/
def request (s : State) (h : Nat) : Request := tget s.zar.requests h

/-- Set the record of a handle. -/
def setRequest (h : Nat) (r : Request) (s : State) : State :=
  s.setZar { s.zar with requests := tset s.zar.requests h r }

/-- The line state of a zone. -/
def lineOf (s : State) (z : Nat) : LineState := (tget s.zlc z).line

/-- The zones whose claim entry passes a test are given an entry. -/
def writeClaims (zs : ZoneSet) (c : Claim) (s : State) : State :=
  s.setZar { s.zar with claims := tmapIdx s.zar.claims fun z old => if zmem zs z then c else old }

/-- The zones that a request holds in the claim table. -/
def claimedZones (s : State) (h : Nat) : ZoneSet := zwhere fun z => claimHandle (claim s z) == some h

/-- The zones in which a request is JOINED. -/
def joinedZones (s : State) (h : Nat) : ZoneSet := zwhere fun z => claim s z == .joined h

/-- Order of standing: class, then priority, then admission order (R69). -/
def standsBefore (a b : Request) : Bool :=
  let ca := classNum a.cls
  let cb := classNum b.cls
  decide (ca < cb) || (ca == cb && (decide (a.priority < b.priority) ||
    (a.priority == b.priority && decide (a.order < b.order))))

/-- Insert a handle into a list ordered by standing. -/
def insertHandle (s : State) (h : Nat) : List Nat → List Nat
  | [] => [h]
  | k :: rest => if standsBefore (request s h) (request s k) then h :: k :: rest else k :: insertHandle s h rest

/-- Handles ordered by standing. -/
def orderHandles (s : State) (hs : List Nat) : List Nat := hs.foldl (fun acc h => insertHandle s h acc) []

/-- Put a handle into the waiting queue at its place (R69). -/
def enqueue (h : Nat) (s : State) : State := s.setZar { s.zar with queue := insertHandle s h s.zar.queue }

/-- Take a handle out of the waiting queue. -/
def dequeue (h : Nat) (s : State) : State := s.setZar { s.zar with queue := s.zar.queue.filter (· != h) }

/-- PARTIAL as it follows from the granted and the requested set: set while the granted set is non-empty and smaller (R68). -/
def withPartial (r : Request) : Request :=
  { r with flags := { r.flags with isPartial := r.granted != 0 && r.granted != r.requested } }

/-! ### Ends (R84, R85, R113) -/

/-- The loop count and fragment index that a request's engine hands on at its end (R113). -/
def handedOn (s : State) (r : Request) : Nat × Option Nat :=
  match r.engine with
  | some e => ((tget s.engines e).loops, (tget s.engines e).fragment)
  | none => (0, none)

/-- ANNOUNCE_ENDED (R85). -/
def raiseEnded (h : Nat) (cause : EndCause) (r : Request) (handed : Nat × Option Nat) (s : State) : State :=
  pushEvent 0x04 (BitVec.ofNat 8 (causeCode cause)) h
    [f1 (originKind r.origin), f1 (originId r.origin), f1 (originTrigger r.origin), f1 (requestCode r.state),
     fZones r.granted, f1 (requestFlags r.flags), f2 r.restarts, f2 handed.1, f1? handed.2] s

/-- A request ends with a cause: steps 1 to 7 of R84, with the scheduler's walk and then the pass of step 8 left due (log 5). -/
def endRequest (h : Nat) (cause : EndCause) (s : State) : State :=
  let r := request s h
  let handed := handedOn s r
  let s := writeClaims (claimedZones s h) .empty s
  let s := releaseEngine? r.engine s
  let s := dequeue h s
  let s := raiseEnded h cause r handed s
  let s := unuseBanks r.fragments s
  let s := tellScheduler r.origin h cause s
  needPass (setRequest h freeRequest s)

/-- A request enters ENDING with an ending outcome and its engine enters STOPPING (R77, R83, R90, R106). The pending end and the talk count exist only in GRANTED and ACTIVE (R68). -/
def enterEnding (h : Nat) (outcome : EndingOutcome) (s : State) : State :=
  let r := request s h
  let s := setRequest h { r with state := .ending, ending := outcome, pendingEnd := none, talkCount := none } s
  match r.engine with
  | some e => stopEngine e s
  | none => s

/-- An end that must silence a playing engine is made through ENDING, any other at once (R88, R89, R90). -/
def endLive (h : Nat) (cause : EndCause) (s : State) : State :=
  if (request s h).current = .lane then endRequest h cause s else enterEnding h (.ends cause) s

/-! ### Joins (R79, R80, R81) -/

/-- The PENDING_JOIN zones of a request whose line is LIVE. -/
def pendingLive (s : State) (h : Nat) : ZoneSet :=
  zwhere fun z => claim s z == .pendingJoin h && lineOf s z == .live

/-- ANNOUNCE_STARTED (R81). -/
def raiseStarted (h : Nat) (joined : ZoneSet) (s : State) : State :=
  let r := request s h
  pushEvent 0x03 (BitVec.ofNat 8 (classNum r.cls)) h
    [f1 (originKind r.origin), f1 (originId r.origin), f1 (originTrigger r.origin), f1? r.engine,
     fZones joined, fZones r.granted, f1 (requestFlags r.flags), f2 r.restarts] s

/-- Every PENDING_JOIN zone of a request whose line is LIVE becomes JOINED. At the first join the request enters ACTIVE, a LIVE source loads its talk count (R79), and ANNOUNCE_STARTED is raised (R81). -/
def joinLive (h : Nat) (s : State) : State :=
  let zs := pendingLive s h
  if zs = 0 then s else
  let s := writeClaims zs (.joined h) s
  let r := request s h
  if r.state = .granted then
    raiseStarted h zs (setRequest h
      { r with state := .active, talkCount := if r.live then some (100 * r.talkLimit) else none } s)
  else s

/-- A request with current source LANE joins in every zone that is LIVE (R79). -/
def joinLane (h : Nat) (s : State) : State :=
  let r := request s h
  if r.current = .lane ∧ (r.state = .granted ∨ r.state = .active) then joinLive h s else s

/-! ### The exit from PREROLL (R80, R99) -/

/-- Whether an engine in PREROLL may leave it: every zone of its wait set is LIVE (R99). -/
def prerollReady (s : State) (x : Engine) : Bool :=
  x.state == .preroll && (zlist x.waitSet).all fun z => lineOf s z == .live

/-- An engine leaves PREROLL: a boundary. A pending end ends the request; otherwise its LIVE zones join and the list begins (R80, R99). -/
def leavePreroll (e : Nat) (s : State) : State :=
  let x := tget s.engines e
  if prerollReady s x then
    match x.handle with
    | none => s
    | some h =>
      match (request s h).pendingEnd with
      | some c => endRequest h c s
      | none => joinLive h (setEngine e { x with state := .playing, waitSet := 0, fragment := some 0, position := 0 } s)
  else s

/-- The engine of a request, where it has one, makes the test of R99. -/
def testEngine (e? : Option Nat) (s : State) : State :=
  match e? with
  | some e => leavePreroll e s
  | none => s

/-! ### Losing zones (R82, R83) -/

/-- Why a zone leaves its holder (R82). -/
inductive RemovalCause where
  | preemption
  | fault
  | off
  deriving DecidableEq, Repr

/-- Removal cause codes (R82). -/
def removalCode : RemovalCause → Nat
  | .preemption => 0 | .fault => 1 | .off => 2

/-- A request emptied of zones is displaced (R83). -/
def displace (h : Nat) (cause : RemovalCause) (s : State) : State :=
  let r := request s h
  if r.live = false ∧ r.flags.resume = true ∧ r.restarts < 3 then
    enterEnding h (if r.pendingEnd = some .cancelled then .ends .cancelled else .returns) s
  else endRequest h (if cause = .preemption then .preempted else .zoneLost) s

/-- Zones leave the wait set of an engine in PREROLL (R98). -/
def unwait (e? : Option Nat) (zs : ZoneSet) (s : State) : State :=
  match e? with
  | some e =>
    let x := tget s.engines e
    if x.state = .preroll then setEngine e { x with waitSet := zdiff x.waitSet zs } s else s
  | none => s

/-- Zones leave their holder (R82): the claim entries are emptied, the granted set and the wait set shrink, PARTIAL is set, ZONES_LOST is raised, and an emptied holder is displaced. One that keeps zones makes the test of R99 at this removal: an engine in PREROLL leaves it when what is left of its wait set is all LIVE (R98). -/
def loseZones (h : Nat) (zs : ZoneSet) (cause : RemovalCause) (taker : Option Nat) (s : State) : State :=
  let r := request s h
  let s := writeClaims zs .empty s
  let r' := withPartial { r with granted := zdiff r.granted zs }
  let s := unwait r.engine zs (setRequest h r' s)
  let s := pushEvent 0x05 (BitVec.ofNat 8 (removalCode cause)) h [f1? taker, fZones zs, fZones r'.granted] s
  if r'.granted = 0 ∧ (r.state = .granted ∨ r.state = .active) then displace h cause s
  else testEngine r.engine s

/-! ### The arbitration pass (R74 to R78) -/

/-- The zone of a holder may be taken for a request (R74). -/
def preemptible (holder r : Request) : Bool :=
  decide (classNum holder.cls > classNum r.cls) && holder.cls != .evac && (r.cls == .evac || r.flags.preempt)

/-- The zone is free, or pre-emptible for a request (R76). -/
def takeable (s : State) (r : Request) (z : Nat) : Bool :=
  match claimHandle (claim s z) with
  | none => true
  | some k => preemptible (request s k) r

/-- The obtainable set of a request (R76). -/
def obtainable (s : State) (r : Request) : ZoneSet :=
  zwhere fun z => zmem r.requested z && usableLine (lineOf s z) && takeable s r z

/-- The holders that a grant takes zones from, with the zones of each. -/
def holdersOf (s : State) (zs : ZoneSet) : List (Nat × ZoneSet) :=
  (List.range 96).filterMap fun k =>
    let mine := zs &&& claimedZones s k
    if mine = 0 then none else some (k, mine)

/-- A grant (R76, R97). The engine is chosen after the zones are taken, so one that this grant has released from another request counts (DESIGN CHOICE, log 41). `bind` says that an engine is to be bound; a LIVE source that is granted without its chime carries NOCHIME. -/
def grant (h : Nat) (zs : ZoneSet) (bind : Bool) (s : State) : State :=
  let r := request s h
  let chimeless := r.live && r.current == .engine && !bind
  let r := withPartial { r with state := .granted, granted := zs,
                                current := if chimeless then .lane else r.current }
  let r := { r with flags := { r.flags with nochime := r.flags.nochime || chimeless } }
  let s := setRequest h r (dequeue h s)
  let s := (holdersOf s zs).foldl (fun s k => loseZones k.1 k.2 .preemption (some h) s) s
  let s := writeClaims zs (.pendingJoin h) s
  let s := match bind, idleEngine? s with
    | true, some e => bindEngine e h zs (setRequest h { request s h with engine := some e } s)
    | _, _ => s
  joinLane h s

/-- A request may be the victim of R77: not EVAC, source PLAYOUT, engine in PREROLL or PLAYING. -/
def victimEngine (s : State) (h : Nat) : Option Nat :=
  let r := request s h
  match r.engine with
  | some e =>
    let st := (tget s.engines e).state
    if r.cls ≠ .evac ∧ r.live = false ∧ (st = .preroll ∨ st = .playing) then some e else none
  | none => none

/-- The victim of R77 and its engine: numerically highest class, then worst priority, then latest admission order. -/
def victim (s : State) : Option (Nat × Nat) :=
  (List.range 96).foldl (fun best h =>
    match victimEngine s h, best with
    | none, _ => best
    | some e, none => some (h, e)
    | some e, some (k, f) => if standsBefore (request s k) (request s h) then some (h, e) else some (k, f)) none

/-- The arbiter acts on the lack of an engine for an EVAC request (R77). -/
def stopVictim (s : State) : State :=
  if s.zar.evacMark.isSome then s else
  match victim s with
  | none => s
  | some (h, e) =>
    let r := request s h
    let outcome : EndingOutcome := match r.pendingEnd with
      | some c => .ends c
      | none => if r.flags.resume = true ∧ r.restarts < 3 then .returns else .ends .preempted
    let s := enterEnding h outcome s
    s.setZar { s.zar with evacMark := some e }

/-- A request needs an engine: its source is PLAYOUT, or LIVE with a chime fragment to be played. -/
def wantsEngine (r : Request) : Bool := !r.live || (r.current == .engine && !r.fragments.isEmpty)

/-- The waiting walk takes one request (R76, R77). The flag says that an earlier request of the walk was found blocked for lack of an engine. -/
def walkRequest (p : State × Bool) (h : Nat) : State × Bool :=
  let (s, blocked) := p
  let r := request s h
  if r.state ≠ .waiting then p else
  let zs := obtainable s r
  let need := if r.cls = .evac then 1 else r.minCoverage
  if zcard zs < need ∨ zs = 0 ∨ (r.live = true ∧ s.itp.link = .lost) then p else
  let available := !blocked && (idleEngine? s).isSome
  if r.live || available then (grant h zs (wantsEngine r && available) s, blocked)
  else if r.cls = .evac then (stopVictim s, true)
  else p

/-- The waiting walk (R76). -/
def waitingWalk (s : State) : State := (s.zar.queue.foldl walkRequest (s, false)).1

/-- Zones join the wait set of an engine in PREROLL (R98). -/
def addWait (e? : Option Nat) (zs : ZoneSet) (s : State) : State :=
  match e? with
  | some e =>
    let x := tget s.engines e
    if x.state = .preroll then setEngine e { x with waitSet := x.waitSet ||| zs } s else s
  | none => s

/-- The zones that a request takes by late join: requested, usable and free (R78). -/
def lateZones (s : State) (r : Request) : ZoneSet :=
  zwhere fun z => zmem r.requested z && usableLine (lineOf s z) && claim s z == .empty

/-- The late-join walk takes one GRANTED or ACTIVE request (R78, R98). -/
def lateJoin (s : State) (h : Nat) : State :=
  let r := request s h
  if r.state ≠ .granted ∧ r.state ≠ .active then s else
  let zs := lateZones s r
  if zs = 0 then s else
  joinLane h (addWait r.engine zs
    (setRequest h (withPartial { r with granted := r.granted ||| zs }) (writeClaims zs (.pendingJoin h) s)))

/-- The late-join walk (R78), in the order of the queue keys. -/
def lateJoinWalk (s : State) : State :=
  (orderHandles s ((List.range 96).filter fun h =>
    (request s h).state == .granted || (request s h).state == .active)).foldl lateJoin s

/-- One arbitration pass, taken whole: of the passes due, one is made, and whatever causes it brings about make one further pass due (R75). -/
def pass (s : State) : State :=
  let t := lateJoinWalk (waitingWalk (s.setWork { s.work with passesDue := 0 }))
  t.setWork { t.work with passesDue := s.work.passesDue - 1 + min 1 t.work.passesDue }

/-! ### Passes and boundaries (R75, R80, R99, R104, R105, R111) -/

/-- Every engine in PREROLL makes its test (R99). After a pass this is the test of a bind, which R99 places there; the order of the engines is the model's (DESIGN CHOICE, log 7). -/
def prerollTests (s : State) : State := (List.range 6).foldl (fun s e => leavePreroll e s) s

/-- A pass with the tests of R99 that follow it. -/
def passWithTests (s : State) : State := prerollTests (pass s)

/-- Passes for as long as one is due (R75). The bound is never reached: every further pass needs an end in the one before it, and there are 96 records (log 6). -/
def passes : Nat → State → State
  | 0, s => s
  | n + 1, s => if s.work.passesDue > 0 then passes n (passWithTests s) else s

/-- The bound on successive passes (log 6). -/
def passBound : Nat := 256

/-- The passes of one cause that is acted on at once, whatever passes are due outside it (R75): those stay due. -/
def ownPasses (s : State) (cause : State → State) : State :=
  let t := passes passBound (cause (s.setWork { s.work with passesDue := 0 }))
  t.setWork { t.work with passesDue := t.work.passesDue + s.work.passesDue }

/-- LOOP (R105). -/
def raiseLoop (h e loops : Nat) (s : State) : State :=
  let r := request s h
  pushEvent 0x07 (BitVec.ofNat 8 e) h [f2 loops, fZones r.granted, fZones (joinedZones s h), f2 r.restarts] s

/-- The engine goes on after a boundary: the next fragment, or the list again with LOOP (R104, R105). -/
def continueList (e h i : Nat) (s : State) : State :=
  let x := tget s.engines e
  let r := request s h
  if i + 1 < r.fragments.length then setEngine e { x with fragment := some (i + 1), position := 0 } s
  else
    let loops := countUp x.loops 1
    raiseLoop h e loops (setEngine e { x with fragment := some 0, position := 0, loops := loops } s)

/-- The chime is over: its engine is released and the lane becomes the current source (R80 step 3, R111). -/
def handOver (e h : Nat) (s : State) : State :=
  let r := request s h
  needPass (releaseEngine e (setRequest h { r with engine := none, current := .lane } s))

/-- The arbiter acts on the boundary of a fragment (R80, R104). -/
def takeBoundary (e h i : Nat) (s : State) : State :=
  match (request s h).pendingEnd with
  | some c => endRequest h c s
  | none =>
    let s := joinLive h s
    let r := request s h
    if r.live then handOver e h s
    else if i + 1 = r.fragments.length ∧ r.flags.repeats = false then endRequest h .complete s
    else continueList e h i s

/-- The boundary of an engine that is due (R104); its passes and walks are left due. -/
def boundary (e : Nat) (s : State) : State :=
  let x := tget s.engines e
  match boundaryDue s x, x.handle, x.fragment with
  | true, some h, some i => takeBoundary e h i s
  | _, _, _ => s

/-! ### Returns (R86) -/

/-- A request returns to the waiting queue (R86). -/
def requeue (h : Nat) (s : State) : State :=
  let r := request s h
  let s := releaseEngine? r.engine (writeClaims (claimedZones s h) .empty s)
  let r' := withPartial { r with state := .waiting, granted := 0, engine := none, ending := .none,
                                 restarts := r.restarts + 1 }
  let s := enqueue h (setRequest h r' s)
  needPass (pushEvent 0x06 (BitVec.ofNat 8 r'.restarts) h
    [f1 (originKind r.origin), f1 (originId r.origin), f1 (originTrigger r.origin), fZones r.requested] s)

/-- A request has a latest start that is earlier than T: than the T that blocks read (R136), or than the T that a notice of this frame period has handed on, so that no request that a notice would have ended comes to wait after it (R87; DESIGN CHOICE, log 40). -/
def pastLatest (s : State) (r : Request) : Bool :=
  match r.latestStart with
  | some t => earlier t (now s).1 || earlier t (lawTime s)
  | none => false

/-- An ENDING request whose engine has become IDLE takes its ending outcome (R86). -/
def takeOutcome (h : Nat) (s : State) : State :=
  let r := request s h
  match r.ending with
  | .ends c => endRequest h c s
  | .returns =>
    if pastLatest s r then endRequest h .expired s
    else if s.zar.queue.length ≥ 64 then endRequest h .preempted s
    else requeue h s
  | .none => s

/-- An engine's fade has ended (R108): it becomes IDLE, the mark is cleared, and the request takes its outcome. -/
def endFade (e : Nat) (s : State) : State :=
  let x := tget s.engines e
  if fadeDue x then
    match x.handle with
    | some h => needPass (releaseEngine e (takeOutcome h s))
    | none => needPass (releaseEngine e s)
  else s

/-! ### Admission of a record (R72 steps 3 to 5) -/

/-- The lowest-numbered FREE record (R72). -/
def freeHandle? (s : State) : Option Nat := (List.range 96).find? fun h => (request s h).state == .free

/-- Whether a request finds no record or no room in the queue (R71, R73). -/
def noRoom (s : State) : Bool := (freeHandle? s).isNone || decide (s.zar.queue.length ≥ 64)

/-- A record is taken: banks are referenced, the request is WAITING and enters the queue, and a pass is due (R72 steps 3 to 6). -/
def admitRecord (h : Nat) (r : Request) (s : State) : State :=
  let r := { r with state := .waiting, order := s.zar.nextOrder }
  let s := setRequest h r s
  let s := s.setZar { s.zar with nextOrder := s.zar.nextOrder + 1 }
  needPass (enqueue h (useBanks r.fragments s))

end Sys2Proof.Machine
end

