-- ==== Sys2Proof/Machine/Expander.lean ====
section
/-! DEFINITION. The Template Expander's expansions (Chapter 7, R128 to R135): fragments of items, durations, the choice of a wording and the latest start. -/

namespace Sys2Proof.Machine

/-- The call fields that a firing of a call trigger supplies (R128). -/
structure CallInfo where
  scheduled   : Time
  delay       : Int
  platform    : Nat
  destination : Nat
  via         : List Nat
  deriving DecidableEq, Repr

/-- The call fields of a call record (R158 step 2). -/
def callInfo (c : Call) : CallInfo := ⟨c.scheduled, c.delay, c.platform, c.destination, c.via⟩

/-- The clip fragment of a phrase, if its directory entry is present (R129, R132). -/
def phraseFragment (s : State) (id : Nat) : Option Fragment :=
  (tget s.cmc.phrases id).map fun p => .clip p.start p.length

/-- Ticks in one minute. -/
def ticksPerMinute : Nat := 6000

/-- The phrases that speak a time of day (R130). -/
def timePhrases (t : Time) : List Nat :=
  let minute := t.toNat / ticksPerMinute % 1440
  let h := minute / 60
  let m := minute % 60
  if m = 0 then [h, 100] else if m ≤ 9 then [h, 101, m] else [h, m]

/-- The phrase that speaks a delay in whole minutes (R131). -/
def delayPhrase (delay : Int) : Nat := if delay < 0 then 0 else min 99 (delay.toNat / ticksPerMinute)

/-- The fragments of a call-field item: without call fields it gives none and counts as missing (R132). -/
def callParts (call : Option CallInfo) (f : CallInfo → List (Option Fragment)) : List (Option Fragment) :=
  match call with
  | some c => f c
  | none => [none]

/-- What an item expands to, in order; `none` stands for a fragment left out with MISSING_PHRASE (R129 to R132). -/
def itemParts (s : State) (call : Option CallInfo) : Item → List (Option Fragment)
  | .phrase id => [phraseFragment s id]
  | .pause n => [some (.pause n)]
  | .schedTime => callParts call fun c => (timePhrases c.scheduled).map (phraseFragment s)
  | .expectedTime => callParts call fun c => (timePhrases (timeAdd c.scheduled c.delay)).map (phraseFragment s)
  | .platform => callParts call fun c => [if c.platform = 0 then none else phraseFragment s c.platform]
  | .destination => callParts call fun c => [phraseFragment s c.destination]
  | .via => callParts call fun c => c.via.map (phraseFragment s)
  | .delayMinutes => callParts call fun c => [phraseFragment s (delayPhrase c.delay)]

/-- An expanded wording: its fragments and whether it skipped any (R128, R132). -/
structure WordingExpansion where
  fragments : List Fragment
  missing   : Bool
  deriving DecidableEq, Repr

/-- The expansion of one wording (R128). -/
def expandWording (s : State) (call : Option CallInfo) (w : Wording) : WordingExpansion :=
  let parts := w.items.flatMap (itemParts s call)
  ⟨parts.filterMap id, parts.any Option.isNone⟩

/-- The longest candidate within a budget, the earlier of equals (R134). -/
def longestWithin (budget : Int) (ws : List WordingExpansion) : Option WordingExpansion :=
  ws.foldl (fun best w =>
    if w.fragments = [] ∨ budget < (listDuration w.fragments : Int) then best else
    match best with
    | none => some w
    | some b => if listDuration b.fragments < listDuration w.fragments then some w else some b) none

/-- The shortest wording that is not empty, the earlier of equals (R134). -/
def shortestOf (ws : List WordingExpansion) : Option WordingExpansion :=
  ws.foldl (fun best w =>
    if w.fragments = [] then best else
    match best with
    | none => some w
    | some b => if listDuration w.fragments < listDuration b.fragments then some w else some b) none

/-- The budget of a deadline, in frame periods (R134). -/
def expansionBudget (s : State) (deadline : Time) : Int := timeDiff deadline (now s).1 * 480 - (now s).2

/-- The chosen wording, and whether it overruns its deadline (R134). -/
def chooseWording (s : State) (deadline : Option Time) (ws : List WordingExpansion) : Option (WordingExpansion × Bool) :=
  match deadline with
  | none => (ws.head?.filter fun w => !w.fragments.isEmpty).map fun w => (w, false)
  | some d =>
    match longestWithin (expansionBudget s d) ws with
    | some w => some (w, false)
    | none => (shortestOf ws).map fun w => (w, true)

/-- An EXPANDED answer (R128). -/
structure Expanded where
  fragments   : List Fragment
  duration    : Nat
  overrun     : Bool
  missing     : Bool
  latestStart : Option Time
  deriving DecidableEq, Repr

/-- The latest start (R135). `late` is the fire time and the late limit that the scheduler supplies. -/
def latestStartOf (deadline : Option Time) (overrun : Bool) (duration : Nat) (late : Option (Time × Nat)) : Option Time :=
  match deadline, late with
  | some d, _ => some (if overrun then d else timeAdd d (-(((duration + 479) / 480 : Nat) : Int)))
  | none, some (fire, limit) => some (timeAdd fire limit)
  | none, none => none

/-- An expansion; `none` is the answer EMPTY (R128). -/
def expand (s : State) (template : Nat) (deadline : Option Time) (call : Option CallInfo) (late : Option (Time × Nat)) :
    Option Expanded :=
  (tget s.tex.templates template).bind fun t =>
    (chooseWording s deadline (t.wordings.map (expandWording s call))).map fun p =>
      let d := listDuration p.1.fragments
      ⟨p.1.fragments, d, p.2, p.1.missing, latestStartOf deadline p.2 d late⟩

end Sys2Proof.Machine
end

