-- ==== Sys2Proof/Machine/Scheduler.lean ====
section
/-! DEFINITION. The Call Scheduler's walks (Chapter 9): zone sets, firings, periodic entries, outcome walks, the close test, special triggers, and what follows an action until nothing is due. -/

namespace Sys2Proof.Machine

/-! ### Firing (R73, R148, R158, R159) -/

/-- The union of the concourse zone sets of all 32 platforms (R148). -/
def allConcourses (s : State) : ZoneSet := s.csc.platforms.toList.foldl (fun acc p => acc ||| p.concourseZones) 0

/-- The platform table entry of platform 1 to 32. -/
def platformEntry (s : State) (p : Nat) : Platform := tget s.csc.platforms (p - 1)

/-- A trigger with this target needs a platform that the call has not (R148, R157, R164). -/
def needsPlatform (c : Call) (t : Target) : Bool := t != .concourse && c.platform == 0

/-- The zone set of a target and a call (R148). -/
def targetZones (s : State) (c : Call) (t : Target) : ZoneSet :=
  if c.platform = 0 then (match t with
    | .concourse => allConcourses s
    | .platform | .both => 0)
  else
    let p := platformEntry s c.platform
    match t with
    | .platform => p.platformZones
    | .concourse => p.concourseZones
    | .both => p.platformZones ||| p.concourseZones

/-- The zones whose line is OFF. -/
def offZones (s : State) : ZoneSet := zwhere fun z => lineOf s z == .off

/-- The arbiter's answer to a firing (R73). -/
inductive Admission where
  | admitted
  | zoneLost
  | expired
  | full
  deriving DecidableEq, Repr

/-- Admission of a request that the scheduler hands over (R73, steps 3 to 6 of R72). `record` is what the scheduler notes of the handle; it is noted as the record is taken, so that the pass of the admission finds it (log 5). -/
def schedulerAdmit (r : Request) (record : Nat → State → State) (s : State) : State × Admission :=
  let zones := zdiff r.requested (offZones s)
  let r := { r with requested := zones, minCoverage := 1, level := 16384 }
  if zones = 0 then (s, .zoneLost)
  else if pastLatest s r then (s, .expired)
  else if s.zar.queue.length ≥ 64 then (s, .full)
  else match freeHandle? s with
    | none => (s, .full)
    | some h => (ownPasses s fun s => record h (admitRecord h r s), .admitted)

/-- A PLAYOUT request of the scheduler from an expansion (R158 step 4, R170). -/
def firedRequest (cls : AnnClass) (priority : Nat) (preempt resume repeats : Bool) (zones : ZoneSet) (x : Expanded)
    (o : Origin) : Request :=
  { freeRequest with
    cls := cls, priority := priority, origin := o, fragments := x.fragments, requested := zones,
    flags := { preempt := preempt, resume := resume, repeats := repeats, isPartial := false, overrun := x.overrun,
               nochime := false, missingPhrase := x.missing },
    latestStart := x.latestStart, duration := x.duration }

/-- A trigger becomes FIRED with its handle and leaves the due list (R159). -/
def recordFired (slot i h : Nat) (s : State) : State :=
  dueDrop (.trigger slot i) (modTrigger slot i (fun t => { t with state := .fired, handle := some h }) s)

/-- A SCHEDULED call enters OPEN at its first admission (R159). -/
def openCall (slot : Nat) (s : State) : State :=
  let c := tget s.csc.calls slot
  if c.state = .scheduled then raiseCallState slot .scheduled (setCall slot { c with state := .open } s) else s

/-- What came of a firing (R158, R159). -/
inductive Firing where
  | admitted
  | missed
  | kept
  deriving DecidableEq, Repr

/-- The request of a trigger's firing (R158 step 4). -/
def triggerRequest (s : State) (slot i : Nat) (t : Trigger) (x : Expanded) : Request :=
  firedRequest t.cls t.priority t.preempt t.resume false (targetZones s (tget s.csc.calls slot) t.target) x (.call slot i)

/-- A call trigger is fired with a fire time (R158, R159). Of a special trigger FULL makes it MISSED with reason FULL. -/
def fireTrigger (slot i : Nat) (t : Trigger) (fire : Time) (s : State) : State × Firing :=
  let c := tget s.csc.calls slot
  let deadline := t.deadline.map (timeAdd (expectedTime c))
  match expand s t.template deadline (some (callInfo c)) (some (fire, t.lateLimit)) with
  | none => (missTrigger slot i 1 s, .missed)
  | some x =>
    match schedulerAdmit (triggerRequest s slot i t x) (recordFired slot i) s with
    | (s, .admitted) => (openCall slot s, .admitted)
    | (s, .zoneLost) => (missTrigger slot i 2 s, .missed)
    | (s, .expired) => (missTrigger slot i 3 s, .missed)
    | (s, .full) => if t.role = .normal then (s, .kept) else (missTrigger slot i 4 s, .missed)

/-! ### The walk (R157, R170) -/

/-- A trigger of the slot fires in no walk of this frame period: the period has loaded the slot (R155). -/
def justLoaded (s : State) (slot : Nat) : Bool := s.period.loaded.contains slot

/-- The walk takes a due call trigger: LATE, held, or fired (R157). In the frame period of its load it keeps its place instead of firing (R155, log 43). -/
def takeTrigger (slot i : Nat) (s : State) : State :=
  let c := tget s.csc.calls slot
  match planTrigger s c i with
  | none => s
  | some t =>
    let fire := (callTrigger c i).fire
    if timeDiff (now s).1 fire > t.lateLimit then missTrigger slot i 0 s
    else if needsPlatform c t.target || justLoaded s slot then s
    else
      match fireTrigger slot i t fire s with
      | (s, .admitted) => s.setWork { s.work with walkAdmitted := s.work.walkAdmitted + 1 }
      | (s, .missed) | (s, .kept) => s

/-- The first multiple of an interval after T, counted from a due time at or before T (R170). -/
def nextDueTime (t due : Time) (step : Nat) : Time :=
  let k := (-timeDiff due t).toNat / step + 1
  due + BitVec.ofNat 32 (k * step)

/-- A periodic entry adds to its skip count (R170). -/
def skipPeriodic (i : Nat) (s : State) : State :=
  s.setCsc { s.csc with periodics := tmod s.csc.periodics i fun p => { p with skips := countUp p.skips 1 } }

/-- The handle of an admitted periodic firing becomes the entry's previous request (R170). -/
def recordPeriodic (i h : Nat) (s : State) : State :=
  s.setCsc { s.csc with periodics := tmod s.csc.periodics i fun p => { p with previous := some h } }

/-- The request of a periodic firing (R170). -/
def periodicRequest (p : Periodic) (x : Expanded) (i : Nat) : Request :=
  firedRequest .info p.priority p.preempt p.resume p.repeats p.zones x (.periodic i)

/-- The firing of a due periodic entry (R170, first step). -/
def firePeriodic (i : Nat) (s : State) : State :=
  let p := tget s.csc.periodics i
  if p.previous.isSome then skipPeriodic i s else
  match expand s p.template none none (some ((now s).1, 100 * p.interval)) with
  | none => skipPeriodic i s
  | some x =>
    match schedulerAdmit (periodicRequest p x i) (recordPeriodic i) s with
    | (s, .admitted) => s
    | (s, .zoneLost) | (s, .expired) | (s, .full) => skipPeriodic i s

/-- The next due of a periodic entry, however the firing went (R170, second step). -/
def rebasePeriodic (i : Nat) (s : State) : State :=
  let p := tget s.csc.periodics i
  let next := nextDueTime (now s).1 p.nextDue (100 * p.interval)
  duePlace (.periodic i) next
    (s.setCsc { s.csc with periodics := tset s.csc.periodics i { p with nextDue := next } })

/-- The walk takes one due entry (R157). -/
def takeEntry (s : State) (e : DueEntry) : State :=
  match e.item with
  | .trigger slot i => takeTrigger slot i s
  | .periodic i => rebasePeriodic i (firePeriodic i s)

/-- The due entries, in list order: those whose time is at or before T under the station-time comparison (R139, R156). -/
def dueEntries (s : State) : List DueEntry := s.csc.due.filter fun e => decide (timeDiff e.time (now s).1 ≤ 0)

/-- A walk of the due list (R157). -/
def walk (s : State) : State := (dueEntries s).foldl takeEntry s

/-- The scheduler fires only in LOCKED and HOLDOVER (R157, R171). -/
def schedulerRuns (s : State) : Bool := s.stc.status != .unset

/-! ### What follows an action -/

/-- Carry out what an action has brought about, until nothing is due: the outcome walks of R160 first, then the passes of R75, one for each cause (log 5). The bound is never reached in a run (log 6). -/
def settleFor : Nat → State → State
  | 0, s => s
  | n + 1, s =>
    if s.work.walksDue > 0 then
      let s := s.setWork { s.work with walksDue := s.work.walksDue - 1 }
      settleFor n (if schedulerRuns s then walk s else s)
    else if s.work.passesDue > 0 then settleFor n (passWithTests s)
    else s

/-- The bound on what follows an action (log 6). -/
def settleBound : Nat := 4096

/-- Everything that an action has brought about is carried out. -/
def settle (s : State) : State := settleFor settleBound s

/-- The ends that one cause makes of several requests: each in its order, and when all are made the walks and passes that they bring about, so that no pass of one of them decides over another (R75, R84, R87 to R89; DEDUCED, log 5). -/
def endAll (f : Nat → State → State) (hs : List Nat) (s : State) : State :=
  if hs = [] then s else settle (hs.foldl (fun s h => f h s) s)

/-! ### The close test (R167) -/

/-- None of the triggers of a call is FIRED. -/
def noneFired (c : Call) : Bool := c.triggers.all fun t => t.state != .fired

/-- A PENDING trigger that passes a test becomes SUPERSEDED. -/
def supersedeTrigger (p : CallTrigger → Bool) (t : CallTrigger) : CallTrigger :=
  if t.state = .pending ∧ p t = true then { t with state := .superseded } else t

/-- PENDING triggers that pass a test become SUPERSEDED and leave the due list (R166, R167). -/
def supersede (slot : Nat) (p : CallTrigger → Bool) (s : State) : State :=
  let c := tget s.csc.calls slot
  let s := (List.range c.triggers.length).foldl (fun s i =>
    if supersedeTrigger p (callTrigger c i) = callTrigger c i then s else dueDrop (.trigger slot i) s) s
  setCall slot { c with triggers := c.triggers.map (supersedeTrigger p) } s

/-- A call is past its close (R167). -/
def closeDue (s : State) (c : Call) : Bool :=
  (c.state == .scheduled || c.state == .open) && noneFired c &&
    match callPlan s c with
    | some p => decide (0 ≤ timeDiff (now s).1 (timeAdd (expectedTime c) p.closeMargin))
    | none => false

/-- The close test of one call (R167). -/
def closeCall (s : State) (slot : Nat) : State :=
  let old := tget s.csc.calls slot
  if closeDue s old then
    let s := supersede slot (fun _ => true) s
    raiseCallState slot old.state (setCall slot { tget s.csc.calls slot with state := .closed } s)
  else s

/-- The close test of every call (R167). R167 gives no order of the calls that close at one test; the model takes slot order (DESIGN CHOICE, log 42). -/
def closeCalls (s : State) : State := (List.range 256).foldl closeCall s

/-- What the scheduler does on a tick end or a step notice: the walk, what it brings about, and the close test (R157, R167, R171). -/
def schedulerNotice (s : State) : State := if schedulerRuns s then closeCalls (settle (walk s)) else s

/-! ### Requests to the arbiter (R92) -/

/-- A withdrawal: a WAITING request ends WITHDRAWN, any other is left (R92). -/
def withdraw (h : Nat) (s : State) : State :=
  if (request s h).state = .waiting then endRequest h .withdrawn s else s

/-- Whether a cancel changes something (R92, log 23). -/
def cancelTakes (r : Request) : Bool :=
  match r.state with
  | .waiting => true
  | .granted | .active => r.pendingEnd.isNone
  | .ending => r.ending == .returns
  | .free => false

/-- A cancel (R92). -/
def cancelRequest (h : Nat) (s : State) : State :=
  let r := request s h
  if cancelTakes r then
    match r.state with
    | .waiting => endRequest h .cancelled s
    | .granted | .active => setRequest h { r with pendingEnd := some .cancelled } s
    | .ending => setRequest h { r with ending := .ends .cancelled } s
    | .free => s
  else s

/-! ### Special triggers (R164) -/

/-- The outcome of a special trigger as replies carry it (R165, R166). -/
inductive SpecialOutcome where
  | none
  | admitted
  | skipped
  | missed
  deriving DecidableEq, Repr

/-- Codes of the outcome (R165, R166). -/
def specialCode : SpecialOutcome → Nat
  | .none => 0 | .admitted => 1 | .skipped => 2 | .missed => 3

/-- The index of a call's trigger of a special role. -/
def roleIndex (c : Call) (role : TriggerRole) : Option Nat := c.triggers.findIdx? fun t => t.role == role

/-- TRIGGER_SKIPPED (R172). -/
def raiseSkipped (slot i : Nat) (s : State) : State :=
  let c := tget s.csc.calls slot
  let t := callTrigger c i
  pushEvent 0x0B (BitVec.ofNat 8 (roleCode t.role)) slot [f1 i, f2 c.number, f1? t.handle] s

/-- A special trigger is fired, skipped or missed (R164); what it brings about is carried out. -/
def fireSpecial (slot i : Nat) (s : State) : State × SpecialOutcome :=
  let c := tget s.csc.calls slot
  match planTrigger s c i with
  | none => (s, .none)
  | some t =>
    if schedulerRuns s = false then (s, .none)
    else if (callTrigger c i).state = .fired then (raiseSkipped slot i s, .skipped)
    else if needsPlatform c t.target then (missTrigger slot i 5 s, .missed)
    else
      match fireTrigger slot i t (now s).1 s with
      | (s, .admitted) => (settle s, .admitted)
      | (s, .missed) | (s, .kept) => (settle s, .missed)

end Sys2Proof.Machine
end

