-- ==== Sys2Proof/Machine/Lines.lean ====
section
/-! DEFINITION. The Zone Line Controller (Chapter 4): the timed tests R55 to R58, ZONE_SET, ZONE_FAULT and ZONE_CLEAR, and the events WAKE_END and HANG_END. -/

namespace Sys2Proof.Machine

/-! ### The line state machine -/

/-- A zone is programme-awake (R54). -/
def programmeAwake (l : ZoneLine) : Bool := l.keepAwake && l.routeLive

/-- A zone has a holder or is programme-awake (R55, R57, R58). -/
def wanted (s : State) (z : Nat) : Bool := (claimHandle (claim s z)).isSome || programmeAwake (tget s.zlc z)

/-- Change the zone table entry of a zone. -/
def modLine (z : Nat) (f : ZoneLine → ZoneLine) (s : State) : State := s.setZlc (tmod s.zlc z f)

/-- The zone has made its one timed transition of this frame period, or is first tested in the next (R53). -/
def markTested (z : Nat) (s : State) : State :=
  s.setPeriod { s.period with tested := s.period.tested ||| zone1 z }

/-- Whether the zone's test of this frame period is still to come (R53). -/
def untested (s : State) (z : Nat) : Bool := !zmem s.period.tested z

/-- The zones whose holder differs between two states. -/
def changedHolders (s t : State) : ZoneSet := zwhere fun z => claimHandle (claim s z) != claimHandle (claim t z)

/-- An action on the tick-end notice: the zones whose holder it changes are noted, for the line tests that it brings about (R138). -/
def tickNotice (f : State → State) (s : State) : State :=
  let t := onTick f s
  t.setPeriod { t.period with tickZones := t.period.tickZones ||| changedHolders s t }

/-- A line test of a zone: where a tick-end notice of this frame period has changed the zone's holder, the tick end brings the test's outcome about, and it reads and stamps the new T (R138; DESIGN CHOICE, log 39). -/
def lineTest (z : Nat) (f : State → State) (s : State) : State := if zmem s.period.tickZones z then onTick f s else f s

/-- ZONE_STATE (R65). -/
def raiseZoneState (z : Nat) (old new : LineState) (reason : Nat) (fault : Byte) (s : State) : State :=
  pushEvent 0x02 (BitVec.ofNat 8 (lineCode new)) z [f1 (lineCode old), f1 reason, .b1 fault] s

/-- The engines in PREROLL that wait for a zone make their test (R99). -/
def testWaiting (z : Nat) (s : State) : State :=
  (List.range 6).foldl (fun s e => if zmem (tget s.engines e).waitSet z then leavePreroll e s else s) s

/-- The arbiter is told that a zone has entered LIVE (R64, R79, R99). -/
def reportLive (z : Nat) (s : State) : State :=
  let s := match claim s z with
    | .pendingJoin h => joinLane h s
    | .empty | .joined _ => s
  settle (testWaiting z s)

/-- A zone enters LIVE, with both counts at 0, and is reported (R55, R56, R58). -/
def enterLive (z : Nat) (s : State) : State :=
  reportLive z (markTested z (modLine z (fun l => { l with line := .live, wakeCount := 0, hangCount := 0 }) s))

/-- A STANDBY zone wakes: its peak is cleared, and it enters WAKING, or LIVE with a pre-roll of 0 (R55). -/
def wakeZone (z : Nat) (s : State) : State :=
  let s := clearPeak z s
  if (tget s.zlc z).preroll = 0 then enterLive z s
  else markTested z (modLine z (fun l => { l with line := .waking, wakeCount := l.preroll }) s)

/-- A test that may take a zone into LIVE: R58's first case, and R55 with a pre-roll of 0. -/
def testToLive (s : State) (z : Nat) : State :=
  let l := tget s.zlc z
  if untested s z && wanted s z then
    match l.line with
    | .hang => lineTest z (enterLive z) s
    | .standby => if l.preroll = 0 then lineTest z (wakeZone z) s else s
    | .off | .waking | .live | .fault => s
  else s

/-- Rounds of the tests that take zones into LIVE, until a round moves none: what one entry to LIVE brings about is seen by the others (R53). -/
def liveRounds : Nat → State → State
  | 0, s => s
  | n + 1, s =>
    let s' := (List.range 48).foldl testToLive s
    if s'.period.tested = s.period.tested then s' else liveRounds n s'

/-- R57: an idle LIVE zone enters HANG, or STANDBY with a hang of 0. What the stamp of the ZONE_STATE is in a frame period with a tick end, `lineTest` says (log 39). -/
def idleTest (z : Nat) (s : State) : State :=
  let l := tget s.zlc z
  if wanted s z then s
  else if l.hang = 0 then
    raiseZoneState z .live .standby 4 0 (markTested z (modLine z (fun l => { l with line := .standby }) s))
  else markTested z (modLine z (fun l => { l with line := .hang, hangCount := l.hang }) s)

/-- A tick has ended in this frame period and the hang count of the zone has reached 0 (R58). -/
def hangOver (s : State) (z : Nat) : Bool :=
  let l := tget s.zlc z
  l.line == .hang && l.hangCount == 0 && s.period.tick.isSome && untested s z

/-- A hang end is due: the hang is over and nothing wants the zone (R58). -/
def hangDue (s : State) (z : Nat) : Bool := hangOver s z && !wanted s z

/-- A hang end, where it is due: the zone enters STANDBY and ZONE_STATE is raised with the new T (R58, R65, R138). -/
def hangEnd (z : Nat) (s : State) : State :=
  if z < 48 ∧ hangDue s z = true then
    onTick (raiseZoneState z .hang .standby 3 0)
      (markTested z (modLine z (fun l => { l with line := .standby }) s))
  else s

/-- The tests that tell the arbiter nothing: waking into WAKING, idle and hang end (R55, R57, R58). -/
def quietTest (s : State) (z : Nat) : State :=
  if untested s z then
    match (tget s.zlc z).line with
    | .standby => if wanted s z then lineTest z (wakeZone z) s else s
    | .live => lineTest z (idleTest z) s
    | .hang => hangEnd z s
    | .off | .waking | .fault => s
  else s

/-- The wake count of a zone in WAKING reaches 0 at the end of this frame period (R56). -/
def wakeOver (s : State) (z : Nat) : Bool :=
  let l := tget s.zlc z
  l.line == .waking && decide (l.wakeCount ≤ 1) && untested s z

/-- A wake end, where it is due: the zone enters LIVE and the arbiter is told (R56). Its wake count brings it about and no tick end does, so what follows reads and stamps the T of the frame period, also where a tick end of the period has changed the zone's holder (DESIGN CHOICE, log 39). -/
def wakeEnd (z : Nat) (s : State) : State := if z < 48 ∧ wakeOver s z = true then enterLive z s else s

/-- The wake test of a zone in WAKING: its count decreases by 1, and at 0 the wake ends (R56). -/
def wakeTest (s : State) (z : Nat) : State :=
  let l := tget s.zlc z
  if l.line = .waking ∧ untested s z = true then
    if l.wakeCount ≤ 1 then wakeEnd z s else modLine z (fun l => { l with wakeCount := l.wakeCount - 1 }) s
  else s

/-- The wake ends that rows of this frame period have called for, in their order (R53, log 8). -/
def heldWakes (s : State) : State := s.period.heldWakes.foldl (fun s z => wakeEnd z s) s

/-- The timed tests of every zone at the end of a frame period (R53, log 8). -/
def lineTests (s : State) : State :=
  let s := (List.range 48).foldl wakeTest s
  let s := liveRounds 48 s
  let s := s.period.heldHangs.foldl (fun s z => hangEnd z s) s
  (List.range 48).foldl quietTest s

/-! ### The rows WAKE_END and HANG_END. A timed test is made at the end of its frame period and finds what the commands, grants and ends of the period have left, whichever came first (R53, R58): the row holds its zone's end until then (log 8). -/

/-- A wake end is held for the end of the frame period, where the wake is over (R53, R56). -/
def holdWake (z : Nat) (s : State) : State :=
  if z < 48 ∧ wakeOver s z = true ∧ z ∉ s.period.heldWakes then
    s.setPeriod { s.period with heldWakes := s.period.heldWakes ++ [z] }
  else s

/-- A hang end is held for the end of the frame period, where the hang is over (R53, R58). -/
def holdHang (z : Nat) (s : State) : State :=
  if z < 48 ∧ hangOver s z = true ∧ z ∉ s.period.heldHangs then
    s.setPeriod { s.period with heldHangs := s.period.heldHangs ++ [z] }
  else s

/-- WAKE_END (R56). A wake end that is not due does not happen (log 2). -/
def execWakeEnd (zone : Nat) (s : State) : Host.Outcome State Fault Refusal := .next (holdWake zone (startPeriod s))

/-- HANG_END (R58). A hang end that is not due does not happen (log 2). -/
def execHangEnd (zone : Nat) (s : State) : Host.Outcome State Fault Refusal := .next (holdHang zone (startPeriod s))

/-! ### Leaving and entering service (R61 to R65) -/

/-- The arbiter takes a zone from its holder and runs a pass (R64, R82). -/
def zoneLost (z : Nat) (cause : RemovalCause) (s : State) : State :=
  let s := match claimHandle (claim s z) with
    | none => s
    | some h =>
      loseZones h (zone1 z) cause none s
  settle (needPass s)

/-- The peak of a zone is cleared when its line leaves STANDBY (R45). -/
def leaveStandby (z : Nat) (old : LineState) (s : State) : State := if old = .standby then clearPeak z s else s

/-! ### ZONE_SET -/

/-- The settings of a zone as ZONE_SET writes them (R60). -/
def writeSettings (flags : Byte) (preroll hang : Half) (l : ZoneLine) : ZoneLine :=
  { l with width16 := flagBit flags 1, keepAwake := flagBit flags 2, preroll := preroll.toNat, hang := hang.toNat }

/-- The enable flag of an accepted ZONE_SET moves the line state (R61). -/
def applyEnable (z : Nat) (enable : Bool) (s : State) : State :=
  let l := tget s.zlc z
  match enable, l.line with
  | true, .off =>
    let s := markTested z (modLine z (fun l => { l with enable := true, line := .standby }) s)
    raiseZoneState z .off .standby 0 0 (settle (needPass s))
  | false, .standby | false, .waking | false, .live | false, .hang | false, .fault =>
    let s := leaveStandby z l.line (modLine z (fun l =>
      { l with enable := false, line := .off, wakeCount := 0, hangCount := 0, faultCode := 0 }) s)
    raiseZoneState z l.line .off 0 (if l.line = .fault then l.faultCode else 0) (zoneLost z .off s)
  | true, .standby | true, .waking | true, .live | true, .hang | true, .fault | false, .off => s

/-- ZONE_SET on the zone table (R60, R61). -/
def zoneSet (zone flags : Byte) (preroll hang : Half) (s : State) : Answer :=
  let z := zone.toNat
  if z > 47 ∨ flags.toNat > 7 then refuse .badarg s else
  let l := tget s.zlc z
  if flagBit flags 1 ≠ l.width16 ∧ (claimHandle (claim s z)).isSome = true then refuse .state s else
  let s' := applyEnable z (flagBit flags 0) (modLine z (writeSettings flags preroll hang) s)
  ⟨.done, [.b1 zone, f1 (lineCode (lineOf s' z)), .b1 flags, f1 (zoneFlags l), .b2 preroll, .b2 hang,
      f2 l.preroll, f2 l.hang], s'⟩

/-- ZONE_SET, code 41h (R60). -/
def execZoneSet (h : Header) (zone flags : Byte) (preroll hang : Half) (s : State) : Host.Outcome State Fault Refusal :=
  .next (takeCommand h 0x41 (zoneSet zone flags preroll hang) s)

/-! ### ZONE_FAULT and ZONE_CLEAR -/

/-- ZONE_FAULT on a zone in STANDBY, WAKING, LIVE or HANG (R62, steps 1 to 5). -/
def faultZone (z : Nat) (code : Byte) (s : State) : State :=
  let old := lineOf s z
  let s := leaveStandby z old (modLine z (fun l =>
    { l with line := .fault, wakeCount := 0, hangCount := 0, faultCode := code }) s)
  raiseZoneState z old .fault 1 code (zoneLost z .fault s)

/-- ZONE_FAULT on the zone table (R62). -/
def zoneFault (zone faultCode : Byte) (s : State) : Answer :=
  let z := zone.toNat
  if z > 47 then refuse .badarg s else
  let l := tget s.zlc z
  if l.line = .off then refuse .state s
  else if l.line = .fault then ⟨.done, [.b1 zone, f1 (lineCode .fault), .b1 l.faultCode, f1? none], s⟩
  else ⟨.done, [.b1 zone, f1 (lineCode l.line), .b1 faultCode, f1? (claimHandle (claim s z))],
    faultZone z faultCode s⟩

/-- ZONE_FAULT, code 42h (R62). -/
def execZoneFault (h : Header) (zone faultCode : Byte) (s : State) : Host.Outcome State Fault Refusal :=
  .next (takeCommand h 0x42 (zoneFault zone faultCode) s)

/-- ZONE_CLEAR on a zone in FAULT (R63, steps 1 to 4). -/
def clearZone (z : Nat) (s : State) : State :=
  let code := (tget s.zlc z).faultCode
  let s := markTested z (modLine z (fun l => { l with line := .standby, faultCode := 0 }) s)
  raiseZoneState z .fault .standby 2 code (settle (needPass s))

/-- ZONE_CLEAR on the zone table (R63). -/
def zoneClear (zone : Byte) (s : State) : Answer :=
  let z := zone.toNat
  if z > 47 then refuse .badarg s
  else if lineOf s z ≠ .fault then refuse .state s
  else ⟨.done, [.b1 zone, .b1 (tget s.zlc z).faultCode], clearZone z s⟩

/-- ZONE_CLEAR, code 43h (R63). -/
def execZoneClear (h : Header) (zone : Byte) (s : State) : Host.Outcome State Fault Refusal :=
  .next (takeCommand h 0x43 (zoneClear zone) s)

end Sys2Proof.Machine
end

