-- ==== Sys2Proof/Machine/Requests.lean ====
section
/-! DEFINITION. The arbiter's commands and timed ends (Chapter 5): ANNOUNCE, RELEASE, expiry, talk counts and TALK_TIMEOUT, and the ends of a lost link. -/

namespace Sys2Proof.Machine

/-! ### ANNOUNCE (R71, R72) -/

/-- A field of ANNOUNCE is outside its range, or its flags do not go with its class and source (R71, BADARG). -/
def announceBad (a : AnnounceFields) (s : State) : Bool :=
  let live := a.sourceKind == 1
  decide (a.cls.toNat > 3) || decide (a.priority.toNat > 15) || decide (a.flags.toNat > 7) ||
  decide (a.sourceKind.toNat > 1) || decide (a.deadlinePresent.toNat > 1) ||
  a.minCoverage == 0 || decide (a.minCoverage.toNat > 48) ||
  (!live && decide (a.template.toNat > 63)) ||
  (live && (decide (a.lane.toNat > 39) || (decide (a.chime.toNat > 1023) && a.chime != 0xFFFF))) ||
  (flagBit a.flags 2 && (a.cls == 1 || a.cls == 2 || live)) ||
  (flagBit a.flags 1 && live) ||
  a.requested == 0 || zdiff a.requested (offZones s) == 0 ||
  (!live && match tget s.tex.templates a.template.toNat with
    | some t => t.callField
    | none => false)

/-- The deadline of ANNOUNCE, when it is sent (R71). -/
def announceDeadline (a : AnnounceFields) : Option Time := if a.deadlinePresent = 1 then some a.deadline else none

/-- The talk limit after clamping (R71). -/
def clampTalk (n : Nat) : Nat := if n = 0 ∨ n > 600 then 600 else n

/-- The record of ANNOUNCE before its source is resolved (R72 steps 1 and 3). Its lane and talk limit, which R71 reads for LIVE alone, are 0 in a PLAYOUT record, and the reply reports that 0 (DEDUCED from R182, log 13). -/
def announceBase (a : AnnounceFields) (tag : Byte) (s : State) : Request :=
  let zones := zdiff a.requested (offZones s)
  { freeRequest with
    cls := classOf a.cls.toNat, priority := a.priority.toNat, origin := .external tag, requested := zones,
    minCoverage := min a.minCoverage.toNat (zcard zones), level := a.level.toNat,
    flags := { preempt := flagBit a.flags 0, resume := flagBit a.flags 1, repeats := flagBit a.flags 2, isPartial := false,
               overrun := false, nochime := false, missingPhrase := false } }

/-- The record of a PLAYOUT source, unless the expansion is EMPTY (R72 step 2). -/
def announcePlayout (a : AnnounceFields) (tag : Byte) (s : State) : Option Request :=
  let base := announceBase a tag s
  (expand s a.template.toNat (announceDeadline a) none none).map fun x =>
    { base with fragments := x.fragments, duration := x.duration, latestStart := x.latestStart,
                flags := { base.flags with overrun := x.overrun, missingPhrase := x.missing } }

/-- The record of a LIVE source: with its chime, without one, or without one for an absent phrase (R72 step 2, R112). -/
def announceLive (a : AnnounceFields) (tag : Byte) (s : State) : Request :=
  let base := { announceBase a tag s with
    live := true, lane := a.lane.toNat, talkLimit := clampTalk a.talkLimit.toNat, latestStart := announceDeadline a,
    current := .lane }
  if a.chime = 0xFFFF then base else
  match phraseFragment s a.chime.toNat with
  | some f => { base with fragments := [f], current := .engine, duration := fragmentFrames f }
  | none => { base with flags := { base.flags with nochime := true, missingPhrase := true } }

/-- The request of ANNOUNCE, by its source (R72). -/
def announceRequest (a : AnnounceFields) (tag : Byte) (s : State) : Option Request :=
  if a.sourceKind = 1 then some (announceLive a tag s) else announcePlayout a tag s

/-- The STATE checks of ANNOUNCE (R71). -/
def announceState (r : Request) (s : State) : Bool :=
  (r.live && tget s.itp.roles r.lane != .source) || pastLatest s r

/-- The result fields of ANNOUNCE: the record as the admitting pass leaves it (R72, log 24). -/
def announceResult (h : Nat) (s : State) : List Field :=
  let r := request s h
  [f1 h, f1 (requestCode r.state), f1 (requestFlags r.flags), fZones r.requested, fZones r.granted,
   f2 r.minCoverage, f2 r.talkLimit, fBool r.latestStart.isSome, .b4 (r.latestStart.getD (openValue 5 s)),
   f2 r.fragments.length, f4 r.duration]

/-- ANNOUNCE on the arbiter (R71, R72). -/
def announce (a : AnnounceFields) (tag : Byte) (s : State) : Answer :=
  if announceBad a s = true then refuse .badarg s else
  match announceRequest a tag s with
  | none => refuse .noent s
  | some r =>
    if announceState r s = true then refuse .state s else
    match freeHandle? s with
    | none => refuse .full s
    | some h =>
      if s.zar.queue.length ≥ 64 then refuse .full s else
      let passed := pass (admitRecord h r s)
      ⟨.done, announceResult h passed, settle (prerollTests passed)⟩

/-- ANNOUNCE, code 51h (R71). -/
def execAnnounce (h : Header) (a : AnnounceFields) (s : State) : Host.Outcome State Fault Refusal :=
  .next (takeCommand h 0x51 (announce a h.tag) s)

/-! ### RELEASE (R91) -/

/-- What an accepted RELEASE does to its request (R91). -/
def releaseRequest (k : Nat) (hard : Bool) (s : State) : State :=
  let r := request s k
  if r.state = .waiting ∨ (r.live = true ∧ r.current = .lane) then endRequest k .released s
  else if r.live then enterEnding k (.ends .released) s
  else if hard then enterEnding k (.ends (r.pendingEnd.getD .released)) s
  else if r.pendingEnd.isSome then s
  else setRequest k { r with pendingEnd := some .released } s

/-- RELEASE on the arbiter (R91). -/
def release (handle mode : Byte) (s : State) : Answer :=
  let k := handle.toNat
  if k > 95 ∨ mode.toNat > 1 then refuse .badarg s else
  let r := request s k
  if r.state = .free then refuse .noent s
  else if r.state = .ending then refuse .state s
  else
    let done := releaseRequest k (mode == 1) s
    let after := request done k
    ⟨.done, [.b1 handle, f1 (originKind r.origin), f1 (requestCode r.state), f1 (requestCode after.state),
        f1 (pendingCode after.pendingEnd)], settle done⟩

/-- RELEASE, code 52h (R91). -/
def execRelease (h : Header) (handle mode : Byte) (s : State) : Host.Outcome State Fault Refusal :=
  .next (takeCommand h 0x52 (release handle mode) s)

/-! ### Expiry (R87) -/

/-- The WAITING requests whose latest start is earlier than T, in queue order (R87, log 21). -/
def expiring (s : State) : List Nat :=
  s.zar.queue.filter fun h => (request s h).state == .waiting && pastLatest s (request s h)

/-- The expiry test of every WAITING request: each that fails it ends EXPIRED (R87). -/
def expireAll (s : State) : State := endAll (fun h => endRequest h .expired) (expiring s) s

/-! ### Talk counts (R88) -/

/-- A GRANTED or ACTIVE request with a LIVE source. -/
def liveHolder (r : Request) : Bool := r.live && (r.state == .granted || r.state == .active)

/-- The talk count of one request at a tick end (R88). -/
def countTalkOf (r : Request) : Request :=
  if liveHolder r then { r with talkCount := r.talkCount.map (· - 1) } else r

/-- The talk counts at a tick end (R88). -/
def countTalk (s : State) : State := s.setZar { s.zar with requests := s.zar.requests.map countTalkOf }

/-- A talk timeout is due: the count has reached 0 at the tick end of this frame period (R88). -/
def talkDue (s : State) (h : Nat) : Bool :=
  liveHolder (request s h) && (request s h).talkCount == some 0 && s.period.tick.isSome

/-- The talk timeouts of those of some requests for which one is due; an action on the tick-end notice (R88, R138). -/
def talkTimeouts (hs : List Nat) (s : State) : State :=
  match hs.filter (talkDue s) with
  | [] => s
  | due => tickNotice (endAll (fun h => endLive h .talkTimeout) due) s

/-- The talk timeout of one request, where it is due (R88). -/
def talkTimeout (h : Nat) (s : State) : State := if h < 96 then talkTimeouts [h] s else s

/-- TALK_TIMEOUT (R88). A timeout that is not due does not happen (log 2). -/
def execTalkTimeout (handle : Nat) (s : State) : Host.Outcome State Fault Refusal :=
  .next (talkTimeout handle (startPeriod s))

/-! ### Link loss and recovery (R4, R5, R6, R89) -/

/-- Every GRANTED or ACTIVE request with a LIVE source is ended with cause SOURCE_LOST, in the order of handles (R89, log 21). -/
def loseSources (s : State) : State :=
  endAll (fun h => endLive h .sourceLost) ((List.range 96).filter fun h => liveHolder (request s h)) s

/-- LINK_LOST, where the bad-run count has reached 48 in SYNC (R4, R6, R89). -/
def linkLost (s : State) : State :=
  if s.itp.link = .sync ∧ 48 ≤ s.itp.badRun then
    loseSources (raiseLinkState .sync .lost s.itp.badRun
      (s.setItp { s.itp with link := .lost, goodRun := 0, expecting := false }))
  else s

/-- LINK_LOST (R4). A loss that is not due does not happen (log 2). -/
def execLinkLost (s : State) : Host.Outcome State Fault Refusal := .next (linkLost (startPeriod s))

/-- LINK_RECOVERED, where the good-run count has reached 16 in LOST (R5, R6, R75). -/
def linkRecovered (s : State) : State :=
  if s.itp.link = .lost ∧ 16 ≤ s.itp.goodRun then
    let s := raiseLinkState .lost .sync s.itp.badRun
      (s.setItp { s.itp with link := .sync, badRun := 0, goodRun := 0, expecting := false })
    settle (needPass s)
  else s

/-- LINK_RECOVERED (R5). A recovery that is not due does not happen (log 2). -/
def execLinkRecovered (s : State) : Host.Outcome State Fault Refusal := .next (linkRecovered (startPeriod s))

/-! ### Engine events (R80, R99, R104, R108) -/

/-- PREROLL_EXIT (R99). An exit that is not due does not happen (log 2). -/
def execPrerollExit (engine : Nat) (s : State) : Host.Outcome State Fault Refusal :=
  .next (settle (leavePreroll engine (startPeriod s)))

/-- FRAGMENT_BOUNDARY (R104). A boundary that is not due does not happen (log 2). -/
def execFragmentBoundary (engine : Nat) (s : State) : Host.Outcome State Fault Refusal :=
  .next (settle (boundary engine (startPeriod s)))

/-- FADE_END (R108). A fade end that is not due does not happen (log 2). -/
def execFadeEnd (engine : Nat) (s : State) : Host.Outcome State Fault Refusal :=
  .next (settle (endFade engine (startPeriod s)))

end Sys2Proof.Machine
end

