-- ==== Sys2Proof/Machine/Templates.lean ====
section
/-! DEFINITION. Template loads (Chapter 7, R124 to R127): TEMPLATE_SET. -/

namespace Sys2Proof.Machine

/-- The item of a cell's kind and argument (Table 7.2); the argument of kinds 2 to 7 is ignored (R125). -/
def itemOf (c : ItemCell) : Item :=
  match c.kind.toNat with
  | 0 => .phrase c.arg.toNat
  | 1 => .pause c.arg.toNat
  | 2 => .schedTime
  | 3 => .expectedTime
  | 4 => .platform
  | 5 => .destination
  | 6 => .via
  | _ => .delayMinutes

/-- The worst-case fragments of an item (Table 7.2). -/
def itemWorst : Item → Nat
  | .schedTime | .expectedTime => 3
  | .via => 4
  | .phrase _ | .pause _ | .platform | .destination | .delayMinutes => 1

/-- Call-field items (Table 7.2). -/
def itemCallField : Item → Bool
  | .phrase _ | .pause _ => false
  | .schedTime | .expectedTime | .platform | .destination | .via | .delayMinutes => true

/-- An item that R125 refuses. -/
def itemBad (c : ItemCell) : Bool :=
  decide (c.kind.toNat > 7) || (c.kind == 0 && decide (c.arg.toNat > 1023)) ||
    (c.kind == 1 && (c.arg == 0 || decide (c.arg.toNat > 480000)))

/-- The worst-case fragments of a list of items (R124). -/
def worstOf (items : List Item) : Nat := (items.map itemWorst).sum

/-- The item places of a cell that it carries (R125). -/
def carriedItems (itemCount first : Nat) (items : List ItemCell) : List ItemCell := items.take (min 7 (itemCount - first))

/-- A cell with a wording count of 1 to 4 is outside its ranges (R125). -/
def templateCellBad (wordingCount wordingIndex itemCount first : Nat) (items : List ItemCell) : Bool :=
  decide (wordingIndex ≥ wordingCount) || itemCount == 0 || decide (itemCount > 24) ||
    !([0, 7, 14, 21].contains first) || decide (first ≥ itemCount) || (carriedItems itemCount first items).any itemBad

/-- The load that a cell continues or begins, unless the cell does not fit (R126, the table). -/
def templateLoadFor (load : Option TemplateLoad) (template wordingCount wordingIndex itemCount first : Nat) :
    Option TemplateLoad :=
  if wordingIndex = 0 ∧ first = 0 then some ⟨template, wordingCount, [], 0, 0⟩ else
  match load with
  | none => none
  | some l =>
    if l.template ≠ template ∨ l.wordingCount ≠ wordingCount ∨ l.nextWording ≠ wordingIndex ∨ l.nextFirst ≠ first then none
    else if first > 0 ∧ (l.wordings.getLast?.map (·.itemCount)) ≠ some itemCount then none
    else some l

/-- The wordings of a load with a cell's items taken (R126). -/
def takeItems (ws : List WordingLoad) (itemCount first : Nat) (items : List Item) : List WordingLoad :=
  if first = 0 then ws ++ [⟨itemCount, items, worstOf items⟩]
  else lmod ws (ws.length - 1) fun w => { w with items := w.items ++ items, worst := w.worst + worstOf items }

/-- The next position of a load, or none when it is complete (R126). -/
def nextPosition (wordingCount wordingIndex itemCount first : Nat) : Option (Nat × Nat) :=
  if first + 7 < itemCount then some (wordingIndex, first + 7)
  else if wordingIndex + 1 < wordingCount then some (wordingIndex + 1, 0)
  else none

/-- The table entry of a completed load (R124, R127). -/
def loadedTemplate (ws : List WordingLoad) : Template :=
  ⟨ws.map fun w => ⟨w.items, w.worst⟩, ws.any fun w => w.items.any itemCallField⟩

/-- A removal: any load under way is discarded and the entry becomes not loaded (R127). -/
def removeTemplate (template : Nat) (s : State) : State :=
  s.setTex ⟨tset s.tex.templates template none, none⟩

/-- The template id of the load under way. -/
def loadId (s : State) : Option Nat := s.tex.load.map (·.template)

/-- The worst-case count of the wording a load is at. -/
def lastWorst (ws : List WordingLoad) : Nat := (ws.getLast?.map (·.worst)).getD 0

/-- TEMPLATE_SET on the template table (R125 to R127). -/
def templateSet (template wordingCount wordingIndex itemCount firstItem : Byte) (items : List ItemCell) (s : State) : Answer :=
  let id := template.toNat
  let wc := wordingCount.toNat
  let wi := wordingIndex.toNat
  let ic := itemCount.toNat
  let first := firstItem.toNat
  if id > 63 ∨ wc > 4 then refuse .badarg s
  else if wc = 0 then
    ⟨.done, [.b1 template, f1 2, f1? none, f1? none, f2 0, f1? (loadId s), fBool false], removeTemplate id s⟩
  else if templateCellBad wc wi ic first items = true then refuse .badarg s
  else match templateLoadFor s.tex.load id wc wi ic first with
    | none => refuse .state s
    | some l =>
      let ws := takeItems l.wordings ic first ((carriedItems ic first items).map itemOf)
      if lastWorst ws > 32 then refuse .badarg s else
      let discarded := if wi = 0 ∧ first = 0 then loadId s else none
      match nextPosition wc wi ic first with
      | some (w, f) =>
        ⟨.done, [.b1 template, f1 0, f1 w, f1 f, f2 (lastWorst ws), f1? discarded, fBool false],
          s.setTex { s.tex with load := some { l with wordings := ws, nextWording := w, nextFirst := f } }⟩
      | none =>
        let t := loadedTemplate ws
        ⟨.done, [.b1 template, f1 1, f1? none, f1? none, f2 (lastWorst ws), f1? discarded, fBool t.callField],
          s.setTex ⟨tset s.tex.templates id (some t), none⟩⟩

/-- TEMPLATE_SET, code 74h (R125). -/
def execTemplateSet (h : Header) (template wordingCount wordingIndex itemCount firstItem : Byte) (items : List ItemCell)
    (s : State) : Host.Outcome State Fault Refusal :=
  .next (takeCommand h 0x74 (templateSet template wordingCount wordingIndex itemCount firstItem items) s)

end Sys2Proof.Machine
end

