-- ==== Sys2Proof/Machine/Clock.lean ====
section
/-! DEFINITION. The Station Clock (Chapter 8): tick ends, the advance of the phase, TIME, CLOCK_SET and HOLDOVER_ENTRY. -/

namespace Sys2Proof.Machine

/-- CLOCK_STATE (R145): the detail is the previous status, the holdover count at the change and the slew remainder. -/
def raiseClockState (old : TimeStatus) (count : Nat) (s : State) : State :=
  pushEvent 0x09 (BitVec.ofNat 8 (statusCode s.stc.status)) 0 [f1 (statusCode old), f4 count, f4i s.stc.slew] s

/-! ### Tick ends (R136, R138) -/

/-- Whether the frame period under way holds a tick end that is not yet taken (R136). -/
def tickDue (s : State) : Bool := !s.period.tickTaken && decide (s.stc.tickLength ≤ s.stc.phase + 1)

/-- The hang count of one zone at a tick end (R58). -/
def countHangOf (l : ZoneLine) : ZoneLine := if l.line = .hang then { l with hangCount := l.hangCount - 1 } else l

/-- The hang counts at a tick end (R58). -/
def countHang (s : State) : State := s.setZlc (s.zlc.map countHangOf)

/-- The holdover count at a tick end (R144). It stops at the limit; the entry to HOLDOVER is HOLDOVER_ENTRY. -/
def countHoldover (s : State) : State :=
  if s.stc.status = .locked then
    s.setStc { s.stc with holdoverCount := min (100 * s.stc.holdoverLimit) (s.stc.holdoverCount + 1) }
  else s

/-- What the neighbours do with a tick end (R138). R138 calls their order immaterial, yet it decides whether a call whose last FIRED request expires at this tick end closes now or at the next: the model takes the arbiter first (DESIGN CHOICE, log 42). -/
def tickActions (s : State) : State := countHoldover (schedulerNotice (countHang (countTalk (expireAll s))))

/-- A tick end, where it is due: the notices carry the new T with phase 0 (R138). T itself advances with the frame period (R136). -/
def tickEnd (s : State) : State :=
  if tickDue s then
    tickNotice tickActions (s.setPeriod
      { s.period with tickTaken := true, tick := some (s.stc.time + 1), handed := some (s.stc.time + 1) })
  else s

/-- TICK_END (R138). A tick end that is not due does not happen (log 2). -/
def execTickEnd (s : State) : Host.Outcome State Fault Refusal := .next (tickEnd (startPeriod s))

/-- The tick length of a tick that begins, and the slew remainder after it (R137). -/
def tickLengthFor (slew : Int) : Nat × Int :=
  if slew > 0 then (479, slew - 1) else if slew < 0 then (481, slew + 1) else (480, 0)

/-- The clock's advance at the end of a frame period (R136, R137). -/
def advanceClock (c : Stc) : Stc :=
  if c.phase + 1 < c.tickLength then { c with phase := c.phase + 1 }
  else
    let n := tickLengthFor c.slew
    { c with time := c.time + 1, phase := 0, tickLength := n.1, slew := n.2 }

/-! ### Holdover (R144) -/

/-- The status becomes HOLDOVER with CLOCK_STATE, and the count stays as it is (R144, R145, R146). -/
def enterHoldover (s : State) : State :=
  raiseClockState .locked s.stc.holdoverCount (s.setStc { s.stc with status := .holdover })

/-- The holdover count of a LOCKED clock is at or past the limit (R144, R146). -/
def holdoverDue (c : Stc) : Bool := c.status == .locked && decide (100 * c.holdoverLimit ≤ c.holdoverCount)

/-- The entry to HOLDOVER, where it is due; it is an action on the tick-end notice (R138, R144). A TIME or CLOCK_SET that is taken between the tick end and this entry and leaves the count below the limit makes it lapse (DESIGN CHOICE, log 47). -/
def holdoverEntry (s : State) : State :=
  if holdoverDue s.stc ∧ s.period.tick.isSome = true then onTick enterHoldover s else s

/-- HOLDOVER_ENTRY (R144). An entry that is not due does not happen (log 2). -/
def execHoldoverEntry (s : State) : Host.Outcome State Fault Refusal := .next (holdoverEntry (startPeriod s))

/-! ### TIME (R140 to R145) -/

/-- The captured time and phase of a TIME command: those of its cell (R140), or the present ones for a command given without its cell (log 10). -/
def captured (s : State) : Time × Nat := s.ch.capture.getD (s.stc.time, s.stc.phase)

/-- dT (R141). -/
def timeDT (reference : Time) (s : State) : Int := timeDiff reference (captured s).1

/-- The offset, in frame periods (R141). -/
def timeOffset (reference : Time) (s : State) : Int := timeDT reference s * 480 - (captured s).2

/-- The reason of a step, or none for a slew (R141, the table). -/
def stepReason (reference : Time) (force : Bool) (s : State) : Option Nat :=
  if s.stc.status = .unset then some 0
  else if force then some 1
  else if (timeOffset reference s).natAbs > s.stc.slewWindow then some 2
  else none

/-- The clock after a step by an offset (R142). Lean's `/` and `%` on Int floor for a positive divisor. -/
def stepClock (offset : Int) (c : Stc) : Stc :=
  let sum : Int := c.phase + offset
  { c with time := timeAdd c.time (sum / 480), phase := (sum % 480).toNat, slew := 0, tickLength := 480 }

/-- The status becomes LOCKED and the holdover count 0 (R144). -/
def lockClock (c : Stc) : Stc := { c with status := .locked, holdoverCount := 0 }

/-- CLOCK_STATE of a TIME command, unless it found the status LOCKED (R145). -/
def raiseLocked (old : Stc) (s : State) : State :=
  if old.status = .locked then s else raiseClockState old.status old.holdoverCount s

/-- A WAITING request that the step expires (R87). -/
def anyExpires (s : State) : Bool := !(expiring s).isEmpty

/-- The step notice: the arbiter and the scheduler each act, in an order that the spec leaves open where it matters (R142, R186, log 11). -/
def stepNotice (s : State) : State :=
  if anyExpires s = true ∧ Config.arbiterFirst s.free = false then expireAll (schedulerNotice s)
  else schedulerNotice (expireAll s)

/-- The clock after a step, and the frame period with it: a tick end may be due again (log 9). -/
def stepState (reference : Time) (s : State) : State :=
  let c := lockClock (stepClock (timeOffset reference s) s.stc)
  (s.setStc c).setPeriod { s.period with tickTaken := false, handed := some c.time, read := none }

/-- TIME_STEP (R145). -/
def raiseTimeStep (reference : Time) (reason : Nat) (old : State) (s : State) : State :=
  pushEvent 0x08 (BitVec.ofNat 8 reason) 0
    [f4i (timeDT reference old), f2 (captured old).2, fTime old.stc.time, f2 old.stc.phase] s

/-- A TIME command applied as a step: TIME_STEP, CLOCK_STATE, then the notices, which read the new T and phase (R142, R145). Whatever else the frame period brings reads the T and phase of its start (R136). -/
def applyStep (reference : Time) (reason : Nat) (s : State) : State :=
  let t := stepNotice (raiseLocked s.stc (raiseTimeStep reference reason s (stepState reference s)))
  t.setPeriod { t.period with read := some (now s) }

/-- A TIME command applied as a slew (R143). -/
def applySlew (reference : Time) (s : State) : State :=
  raiseLocked s.stc (s.setStc (lockClock { s.stc with slew := timeOffset reference s }))

/-- TIME on the Station Clock (R141). -/
def timeCommand (reference : Time) (flags : Byte) (s : State) : Answer :=
  if flags.toNat > 1 then refuse .badarg s else
  let reason := stepReason reference (flagBit flags 0) s
  let s' := match reason with
    | some n => applyStep reference n s
    | none => applySlew reference s
  ⟨.done, [fBool reason.isSome, f1? reason, f4i (timeDT reference s), fTime (captured s).1, f2 (captured s).2,
      fTime s'.stc.time, f2 s'.stc.phase, f4i s'.stc.slew, f1 (statusCode s.stc.status), f1 (statusCode s'.stc.status)], s'⟩

/-- TIME, code 81h (R141). -/
def execTime (h : Header) (reference : Time) (flags : Byte) (s : State) : Host.Outcome State Fault Refusal :=
  .next (takeCommand h 0x81 (timeCommand reference flags) s)

/-! ### CLOCK_SET (R146) -/

/-- CLOCK_SET on the Station Clock (R146). -/
def clockSet (window : Word) (limit : Half) (s : State) : Answer :=
  if window.toNat > 1048575 ∨ limit = 0 then refuse .badarg s else
  let s1 := s.setStc { s.stc with slewWindow := window.toNat, holdoverLimit := limit.toNat }
  let s2 := if holdoverDue s1.stc then enterHoldover s1 else s1
  ⟨.done, [.b4 window, .b2 limit, f4 s.stc.slewWindow, f2 s.stc.holdoverLimit, f1 (statusCode s2.stc.status),
      f4 s2.stc.holdoverCount], s2⟩

/-- CLOCK_SET, code 82h (R146). -/
def execClockSet (h : Header) (window : Word) (limit : Half) (s : State) : Host.Outcome State Fault Refusal :=
  .next (takeCommand h 0x82 (clockSet window limit) s)

end Sys2Proof.Machine
end

