-- ==== Sys2Proof/Machine/Plans.lean ====
section
/-! DEFINITION. The tables of the Call Scheduler (Chapter 9): PLATFORM_SET, PLAN_SET and PERIODIC_SET. -/

namespace Sys2Proof.Machine

/-! ### PLATFORM_SET (R149) -/

/-- PLATFORM_SET on the platform table (R149). -/
def platformSet (platform : Byte) (platformZones concourseZones : ZoneSet) (s : State) : Answer :=
  let p := platform.toNat
  if p = 0 ∨ p > 32 then refuse .badarg s else
  let old := platformEntry s p
  ⟨.done, [.b1 platform, .zones platformZones, .zones concourseZones, .zones old.platformZones, .zones old.concourseZones],
    s.setCsc { s.csc with platforms := tset s.csc.platforms (p - 1) ⟨platformZones, concourseZones⟩ }⟩

/-- PLATFORM_SET, code 91h (R149). -/
def execPlatformSet (h : Header) (platform : Byte) (platformZones concourseZones : ZoneSet) (s : State) :
    Host.Outcome State Fault Refusal :=
  .next (takeCommand h 0x91 (platformSet platform platformZones concourseZones) s)

/-! ### PLAN_SET (R151, R152) -/

/-- The greatest offset in ticks (Table 9.2). -/
def offsetLimit : Int := 8640000

/-- An offset outside its range (R151). -/
def offsetBad (w : Word) : Bool := decide (w.toInt < -offsetLimit) || decide (w.toInt > offsetLimit)

/-- A trigger that R151 refuses; a template above 63 is outside the range of its kind (R17, log 34). -/
def triggerBad (t : TriggerCell) : Bool :=
  decide (t.role.toNat > 3) || decide (t.target.toNat > 2) || (t.cls != 2 && t.cls != 3) ||
    decide (t.priority.toNat > 15) || decide (t.flags.toNat > 3) || decide (t.deadlinePresent.toNat > 1) ||
    decide (t.template.toNat > 63) || (t.role == 0 && offsetBad t.offset) ||
    (t.deadlinePresent == 1 && offsetBad t.deadlineOffset)

/-- The trigger of a cell (Table 9.2). -/
def triggerOf (t : TriggerCell) : Trigger where
  role := roleOf t.role.toNat
  offset := t.offset.toInt
  template := t.template.toNat
  target := targetOf t.target.toNat
  cls := classOf t.cls.toNat
  priority := t.priority.toNat
  preempt := flagBit t.flags 0
  resume := flagBit t.flags 1
  deadline := if t.deadlinePresent = 1 then some t.deadlineOffset.toInt else none
  lateLimit := t.lateLimit.toNat

/-- The trigger places of a cell that it carries (R151). -/
def carriedTriggers (count first : Nat) (triggers : List TriggerCell) : List TriggerCell :=
  triggers.take (min 2 (count - first))

/-- A cell with a trigger count of 1 to 8 is outside its ranges (R151). -/
def planCellBad (count first : Nat) (triggers : List TriggerCell) : Bool :=
  !([0, 2, 4, 6].contains first) || decide (first ≥ count) || (carriedTriggers count first triggers).any triggerBad

/-- A call in state SCHEDULED or OPEN (R153). -/
def callRuns (c : Call) : Bool := c.state == .scheduled || c.state == .open

/-- A SCHEDULED or OPEN call names a plan (R151). -/
def planInUse (s : State) (plan : Nat) : Bool := s.csc.calls.toList.any fun c => callRuns c && c.plan == plan

/-- The number of calls in any state other than FREE that name a plan (R152). -/
def planCalls (s : State) (plan : Nat) : Nat :=
  (s.csc.calls.toList.filter fun c => c.state != .free && c.plan == plan).length

/-- The load that a cell continues or begins, unless the cell does not fit (R151, the table). -/
def planLoadFor (load : Option PlanLoad) (plan count margin threshold first : Nat) : Option PlanLoad :=
  if first = 0 then some ⟨plan, count, margin, threshold, [], 0⟩ else
  match load with
  | none => none
  | some l => if l.plan ≠ plan ∨ l.triggerCount ≠ count ∨ l.nextFirst ≠ first then none else some l

/-- A role other than NORMAL stands more than once (R151). -/
def roleTwice (ts : List Trigger) (r : TriggerRole) : Bool := decide ((ts.filter fun t => t.role == r).length > 1)

/-- A second trigger of a special role would result (R151). -/
def specialTwice (ts : List Trigger) : Bool :=
  roleTwice ts .alteration || roleTwice ts .delayNotice || roleTwice ts .cancellation

/-- The plan id of the load under way. -/
def planLoadId (s : State) : Option Nat := s.csc.load.map (·.plan)

/-- PLAN_SET on the plan table (R151, R152). -/
def planSet (plan triggerCount : Byte) (closeMargin threshold : Half) (firstTrigger : Byte) (triggers : List TriggerCell)
    (s : State) : Answer :=
  let id := plan.toNat
  let n := triggerCount.toNat
  let first := firstTrigger.toNat
  if id > 31 ∨ n > 8 then refuse .badarg s
  else if n ≠ 0 ∧ planCellBad n first triggers = true then refuse .badarg s
  else if planInUse s id then refuse .state s
  else if n = 0 then
    ⟨.done, [.b1 plan, f1 2, f1? none, f1? (planLoadId s), f2 (planCalls s id)],
      s.setCsc { s.csc with plans := tset s.csc.plans id none, load := none }⟩
  else match planLoadFor s.csc.load id n closeMargin.toNat threshold.toNat first with
    | none => refuse .state s
    | some l =>
      let ts := l.triggers ++ (carriedTriggers n first triggers).map triggerOf
      if specialTwice ts then refuse .badarg s else
      let discarded := if first = 0 then planLoadId s else none
      if ts.length < n then
        ⟨.done, [.b1 plan, f1 0, f1 (first + 2), f1? discarded, f2 (planCalls s id)],
          s.setCsc { s.csc with load := some { l with triggers := ts, nextFirst := first + 2 } }⟩
      else
        ⟨.done, [.b1 plan, f1 1, f1? none, f1? discarded, f2 (planCalls s id)],
          s.setCsc { s.csc with plans := tset s.csc.plans id (some ⟨l.closeMargin, l.threshold, ts⟩), load := none }⟩

/-- PLAN_SET, code 92h (R151). -/
def execPlanSet (h : Header) (plan triggerCount : Byte) (closeMargin threshold : Half) (firstTrigger : Byte)
    (triggers : List TriggerCell) (s : State) : Host.Outcome State Fault Refusal :=
  .next (takeCommand h 0x92 (planSet plan triggerCount closeMargin threshold firstTrigger triggers) s)

/-! ### PERIODIC_SET (R169) -/

/-- A field of PERIODIC_SET with present 1 is outside its range (R169). -/
def periodicBad (p : PeriodicFields) : Bool :=
  decide (p.template.toNat > 63) || decide (p.flags.toNat > 7) || decide (p.priority.toNat > 15) ||
    p.interval == 0 || p.zones == 0

/-- The entry that PERIODIC_SET writes; the previous request is kept (R169). -/
def periodicEntry (p : PeriodicFields) (previous : Option Nat) : Periodic where
  present := true
  template := p.template.toNat
  preempt := flagBit p.flags 0
  resume := flagBit p.flags 1
  repeats := flagBit p.flags 2
  priority := p.priority.toNat
  zones := p.zones
  interval := p.interval.toNat
  nextDue := p.firstDue
  previous := previous
  skips := 0

/-- The result fields of PERIODIC_SET; the next due of a removed entry is stated by no rule (log 13). -/
def periodicResult (p : PeriodicFields) (nextDue : Word) (old : Periodic) : List Field :=
  [.b1 p.index, .b1 p.present, .b4 nextDue, f1? old.previous, f2 old.skips]

/-- PERIODIC_SET on the periodic table (R169). A removal leaves the skip count as it is (DEDUCED, log 35). -/
def periodicSet (p : PeriodicFields) (s : State) : Answer :=
  let i := p.index.toNat
  if i > 15 ∨ p.present.toNat > 1 then refuse .badarg s else
  let old := tget s.csc.periodics i
  if p.present = 0 then
    ⟨.done, periodicResult p (openValue 6 s) old,
      dueDrop (.periodic i) (s.setCsc { s.csc with periodics := tset s.csc.periodics i { old with present := false } })⟩
  else if periodicBad p then refuse .badarg s
  else match tget s.tex.templates p.template.toNat with
    | none => refuse .noent s
    | some t =>
      if t.callField then refuse .badarg s else
      ⟨.done, periodicResult p p.firstDue old,
        duePlace (.periodic i) p.firstDue
          (s.setCsc { s.csc with periodics := tset s.csc.periodics i (periodicEntry p old.previous) })⟩

/-- PERIODIC_SET, code 97h (R169). -/
def execPeriodicSet (h : Header) (p : PeriodicFields) (s : State) : Host.Outcome State Fault Refusal :=
  .next (takeCommand h 0x97 (periodicSet p) s)

end Sys2Proof.Machine
end

