-- ==== Sys2Proof/Machine/Calls.lean ====
section
/-! DEFINITION. The commands on calls (Chapter 9): CALL_LOAD, CALL_AMEND, CALL_CANCEL and CALL_CLEAR. -/

namespace Sys2Proof.Machine

/-- A delay clamped to its range (R155, R162). -/
def clampDelay (d : Int) : Int := clampInt (-360000) 8640000 d

/-- A trigger of a call is FIRED. -/
def anyFired (c : Call) : Bool := !noneFired c

/-! ### CALL_LOAD (R155) -/

/-- A field of CALL_LOAD is outside its range (R155). -/
def callFieldsBad (c : CallFields) : Bool :=
  decide (c.kind.toNat > 1) || decide (c.destination.toNat > 1023) || decide (c.viaCount.toNat > 4) ||
    (c.via.take c.viaCount.toNat).any (fun v => decide (v.toNat > 1023)) ||
    decide (c.platform.toNat > 32) || decide (c.plan.toNat > 31)

/-- The record of CALL_LOAD before its triggers are placed (R155). -/
def loadedCall (c : CallFields) : Call where
  state := .scheduled
  number := c.number.toNat
  arrival := c.kind == 1
  destination := c.destination.toNat
  via := (c.via.take c.viaCount.toNat).map (·.toNat)
  scheduled := c.scheduled
  delay := clampDelay c.delay.toInt
  platform := c.platform.toNat
  plan := c.plan.toNat
  triggers := []
  lastNotified := clampDelay c.delay.toInt

/-- What the record holds for a trigger at loading: PENDING, with its fire time, or FFFFFFFFh for a special trigger (Table 9.3, R155). -/
def loadedTrigger (c : Call) (t : Trigger) : CallTrigger where
  role := t.role
  fire := if t.role = .normal then fireTime c t else 0xFFFFFFFF
  state := .pending
  handle := none

/-- Every NORMAL trigger of a loaded call is placed in the due list (R155, R156). -/
def placeTriggers (slot : Nat) (ts : List CallTrigger) (s : State) : State :=
  ts.zipIdx.foldl (fun s p => if p.1.role = .normal then duePlace (.trigger slot p.2) p.1.fire s else s) s

/-- The frame period has loaded the slot: no trigger of it fires in this period (R155). -/
def noteLoad (slot : Nat) (s : State) : State :=
  s.setPeriod { s.period with loaded := s.period.loaded ++ [slot] }

/-- The slot refuses CALL_LOAD (R155). -/
def slotBusy (c : Call) : Bool := callRuns c || (c.state == .cancelled && anyFired c)

/-- CALL_LOAD on the call table (R155). -/
def callLoad (f : CallFields) (s : State) : Answer :=
  if callFieldsBad f then refuse .badarg s else
  match tget s.csc.plans f.plan.toNat with
  | none => refuse .noent s
  | some p =>
    let slot := f.slot.toNat
    let old := tget s.csc.calls slot
    if slotBusy old then refuse .state s else
    let base := loadedCall f
    let ts := p.triggers.map (loadedTrigger base)
    ⟨.done, [.b1 f.slot, f1 (callCode old.state), f4i base.delay, fTime (expectedTime base), f2 ts.length] ++
        ts.map (fun t => fTime t.fire),
      noteLoad slot (placeTriggers slot ts (setCall slot { base with triggers := ts } s))⟩

/-- CALL_LOAD, code 93h (R155). -/
def execCallLoad (h : Header) (c : CallFields) (s : State) : Host.Outcome State Fault Refusal :=
  .next (takeCommand h 0x93 (callLoad c) s)

/-! ### CALL_AMEND (R162 to R165) -/

/-- What an amendment has withdrawn: the number of NORMAL triggers, and the roles of the special ones (R163). -/
structure Withdrawn where
  normal  : Nat
  special : List TriggerRole
  deriving DecidableEq, Repr

/-- A NORMAL trigger that is PENDING moves to the place of its new fire time (R163). -/
def replaceTrigger (slot i : Nat) (s : State) : State :=
  let c := tget s.csc.calls slot
  match planTrigger s c i with
  | some t =>
    let fire := fireTime c t
    duePlace (.trigger slot i) fire (modTrigger slot i (fun x => { x with fire := fire }) s)
  | none => s

/-- The amendment acts on one trigger (R163): a PENDING NORMAL one is re-placed, and a WAITING request is withdrawn with the walk and the pass that follow (log 22). -/
def amendTrigger (slot : Nat) (p : State × Withdrawn) (i : Nat) : State × Withdrawn :=
  let (s, w) := p
  let t := callTrigger (tget s.csc.calls slot) i
  match t.state, t.handle with
  | .pending, _ => if t.role = .normal then (replaceTrigger slot i s, w) else p
  | .fired, some h =>
    if (request s h).state = .waiting then
      (settle (withdraw h s),
        if t.role = .normal then { w with normal := w.normal + 1 } else { w with special := t.role :: w.special })
    else p
  | _, _ => p

/-- The amendment acts on every trigger, in index order; it makes a walk of its own when nothing was withdrawn (R163). -/
def amendTriggers (slot : Nat) (s : State) : State × Withdrawn :=
  let n := (tget s.csc.calls slot).triggers.length
  let r := (List.range n).foldl (amendTrigger slot) (s, ⟨0, []⟩)
  if r.2 = ⟨0, []⟩ ∧ schedulerRuns r.1 = true then (settle (walk r.1), r.2) else r

/-- A special role is fired when the plan has it and the amendment qualifies it or has withdrawn its request (R165). -/
def amendSpecial (slot : Nat) (role : TriggerRole) (fires : Bool) (s : State) : State × SpecialOutcome :=
  match fires, roleIndex (tget s.csc.calls slot) role with
  | true, some i => fireSpecial slot i s
  | _, _ => (s, .none)

/-- ALTERATION qualifies (R165). -/
def alterationQualifies (old : Call) (setPlatform : Bool) (platform : Nat) : Bool :=
  setPlatform && old.state == .open && platform != old.platform

/-- DELAY_NOTICE qualifies: by the test of R165, and not for an amendment that writes the values the call already holds (R162). One that changes the platform alone and writes the delay already held is left to the test of R165 (DEDUCED, log 44). -/
def delayQualifies (s : State) (old new : Call) (setDelay : Bool) : Bool :=
  setDelay && old.state == .open && new != old && decide (new.delay > old.lastNotified) &&
    match callPlan s old with
    | some p => decide (new.delay - old.lastNotified ≥ p.threshold)
    | none => false

/-- The call with the fields of an amendment written (R162). -/
def amendedCall (c : Call) (setDelay setPlatform : Bool) (delay : Word) (platform : Byte) : Call :=
  { c with delay := if setDelay then clampDelay delay.toInt else c.delay,
           platform := if setPlatform then platform.toNat else c.platform }

/-- The last notified delay follows a qualified DELAY_NOTICE whose firing was made (R165, log 33). -/
def noteDelay (slot : Nat) (qualified : Bool) (o : SpecialOutcome) (delay : Int) (s : State) : State :=
  if qualified ∧ (o = .admitted ∨ o = .missed) then setCall slot { tget s.csc.calls slot with lastNotified := delay } s
  else s

/-- CALL_AMEND on the call table (R162 to R165). The admissions it reports are those of the walks before its special firings (DEDUCED, log 22). -/
def callAmend (slot flags : Byte) (delay : Word) (platform : Byte) (s : State) : Answer :=
  let k := slot.toNat
  let setDelay := flagBit flags 0
  let setPlatform := flagBit flags 1
  if flags = 0 ∨ flags.toNat > 3 ∨ (setPlatform = true ∧ platform.toNat > 32) then refuse .badarg s else
  let old := tget s.csc.calls k
  if callRuns old = false then refuse .state s else
  let new := amendedCall old setDelay setPlatform delay platform
  let s1 := (setCall k new s).setWork { s.work with walkAdmitted := 0 }
  let (s2, w) := amendTriggers k s1
  let admitted := s2.work.walkAdmitted
  let (s3, alteration) :=
    amendSpecial k .alteration (alterationQualifies old setPlatform new.platform || w.special.contains .alteration) s2
  let qualified := delayQualifies s3 old new setDelay
  let (s4, notice) := amendSpecial k .delayNotice (qualified || w.special.contains .delayNotice) s3
  let s5 := noteDelay k qualified notice new.delay s4
  let c := tget s5.csc.calls k
  ⟨.done, [.b1 slot, f1 (callCode c.state), f4i c.delay, f1 c.platform, fTime (expectedTime c), f2 w.normal, f2 admitted,
      f1 (specialCode alteration), f1 (specialCode notice), f4i c.lastNotified], s5⟩

/-- CALL_AMEND, code 94h (R162). -/
def execCallAmend (h : Header) (slot flags : Byte) (delay : Word) (platform : Byte) (s : State) :
    Host.Outcome State Fault Refusal :=
  .next (takeCommand h 0x94 (callAmend slot flags delay platform) s)

/-! ### CALL_CANCEL (R166) -/

/-- The trigger is superseded by step 1 of R166. -/
def cancelSupersedes (t : CallTrigger) : Bool := t.role != .cancellation

/-- The number of triggers that step 1 supersedes (R166). -/
def supersededCount (c : Call) : Nat := (c.triggers.filter fun t => t.state == .pending && cancelSupersedes t).length

/-- The arbiter is asked to cancel the request of one FIRED trigger (R166 step 2); the count is of cancels that take effect (log 23). -/
def cancelTrigger (slot : Nat) (p : State × Nat) (i : Nat) : State × Nat :=
  let (s, n) := p
  let t := callTrigger (tget s.csc.calls slot) i
  match t.state, t.handle with
  | .fired, some h => if cancelTakes (request s h) then (settle (cancelRequest h s), n + 1) else p
  | _, _ => p

/-- Step 3 of R166: an OPEN call's CANCELLATION trigger is fired, a SCHEDULED call's is superseded. -/
def cancelSpecial (slot : Nat) (old : CallState) (s : State) : State × SpecialOutcome :=
  match old, roleIndex (tget s.csc.calls slot) .cancellation with
  | .open, some i => fireSpecial slot i s
  | .scheduled, some _ => (supersede slot (fun t => t.role == .cancellation) s, .none)
  | _, _ => (s, .none)

/-- CALL_CANCEL on the call table (R166). -/
def callCancel (slot : Byte) (s : State) : Answer :=
  let k := slot.toNat
  let old := tget s.csc.calls k
  if callRuns old = false then refuse .state s else
  let s1 := supersede k cancelSupersedes s
  let (s2, n) := (List.range old.triggers.length).foldl (cancelTrigger k) (s1, 0)
  let (s3, outcome) := cancelSpecial k old.state s2
  let s4 := raiseCallState k old.state (setCall k { tget s3.csc.calls k with state := .cancelled } s3)
  ⟨.done, [.b1 slot, f1 (callCode old.state), f2 (supersededCount old), f2 n, f1 (specialCode outcome)], s4⟩

/-- CALL_CANCEL, code 95h (R166). -/
def execCallCancel (h : Header) (slot : Byte) (s : State) : Host.Outcome State Fault Refusal :=
  .next (takeCommand h 0x95 (callCancel slot) s)

/-! ### CALL_CLEAR (R168) -/

/-- CALL_CLEAR on the call table (R168). -/
def callClear (slot : Byte) (s : State) : Answer :=
  let k := slot.toNat
  let old := tget s.csc.calls k
  if (old.state ≠ .closed ∧ old.state ≠ .cancelled) ∨ anyFired old = true then refuse .state s else
  ⟨.done, [.b1 slot, f1 (callCode old.state), f2 old.number] ++ old.triggers.map (fun t => f1 (triggerCode t.state)),
    setCall k freeCall s⟩

/-- CALL_CLEAR, code 96h (R168). -/
def execCallClear (h : Header) (slot : Byte) (s : State) : Host.Outcome State Fault Refusal :=
  .next (takeCommand h 0x96 (callClear slot) s)

end Sys2Proof.Machine
end

