-- ==== Sys2Proof/Machine/Reporting.lean ====
section
/-! DEFINITION. Reporting (Chapter 10): the seven kinds of QUERY, IDENTIFY and UNIT_RESET. -/

namespace Sys2Proof.Machine

/-! ### QUERY (R179) -/

/-- The checks of QUERY on part and flags: the greatest part of the kind (Table 10.2), and CLEAR for COUNTERS alone (R179). -/
def queryBad (q : QueryFields) (greatest : Nat) (clears : Bool) : Bool :=
  decide (q.part.toNat > greatest) || decide (q.flags.toNat > 1) || (flagBit q.flags 0 && !clears)

/-- The opening result fields: kind, subject, part and part count (R179); the part is one byte, the part count two (DEDUCED, log 14). -/
def queryHead (kind : Nat) (q : QueryFields) (parts : Nat) : List Field := [f1 kind, .b2 q.subject, .b1 q.part, f2 parts]

/-- A QUERY that answers DONE when its part exists and NOENT otherwise (R179). -/
def queryAnswer (kind : Nat) (q : QueryFields) (parts : Nat) (contents : List Field) (after s : State) : Answer :=
  if q.part.toNat ≥ parts then refuse .noent s else ⟨.done, queryHead kind q parts ++ contents, after⟩

/-! ### STATUS (R180) -/

/-- The clock items (R147). -/
def clockItems (c : Stc) : List Field :=
  [fTime c.time, f2 c.phase, f2 c.tickLength, f4i c.slew, f1 (statusCode c.status), f4 c.holdoverCount, f4 c.slewWindow,
   f2 c.holdoverLimit]

/-- The number of calls in a state (R173). -/
def callsIn (s : State) (st : CallState) : Nat := (s.csc.calls.toList.filter fun c => c.state == st).length

/-- The number of request records in use (R93). -/
def recordsInUse (s : State) : Nat := (s.zar.requests.toList.filter fun r => r.state != .free).length

/-- Part 0 of STATUS (R180). The unit address is one byte, as in IDENTIFY (DEDUCED, log 36). -/
def statusPart0 (s : State) : List Field :=
  [f1 s.ch.unitAddr.toNat, f1 (linkCode s.itp.link), f2 s.itp.badRun, f1 (statusFlags s.ch), f2 s.ch.events.length] ++
    clockItems s.stc

/-- Part 1 of STATUS (R180). -/
def statusPart1 (s : State) : List Field :=
  [f2 (recordsInUse s), f2 s.zar.queue.length, f1? s.zar.evacMark, f2 (callsIn s .scheduled), f2 (callsIn s .open),
   f2 (callsIn s .closed), f2 (callsIn s .cancelled), f2 s.csc.due.length, f1? (planLoadId s), f1? (loadId s)]

/-- QUERY STATUS: part 0 clears EVENT_LOST after the reply is formed (R180). -/
def queryStatus (q : QueryFields) (s : State) : Answer :=
  if queryBad q 1 false then refuse .badarg s
  else if q.part = 0 then queryAnswer 0 q 2 (statusPart0 s) (s.setCh { s.ch with eventLost := false }) s
  else queryAnswer 0 q 2 (statusPart1 s) s s

/-- QUERY STATUS, code A1h kind 0 (R179, R180). -/
def execQueryStatus (h : Header) (q : QueryFields) (s : State) : Host.Outcome State Fault Refusal :=
  .next (takeCommand h 0xA1 (queryStatus q) s)

/-! ### ZONE (R181) -/

/-- The mark of a claim entry (R93); an empty entry has none, which an enumerated code gives as FFh (R70, Table 1.10). -/
def claimMark : Claim → Field
  | .pendingJoin _ => f1 0
  | .joined _ => f1 1
  | .empty => f1? none

/-- The items of QUERY ZONE, in the order of R181. -/
def zoneItems (z : Nat) (s : State) : List Field :=
  let l := tget s.zlc z
  let m := tget s.zmx z
  let a := tget s.amt z
  [f1 (lineCode l.line), f1 (zoneQueryFlags l), f2 l.preroll, f2 l.hang, f2 l.wakeCount, f2 l.hangCount, .b1 l.faultCode,
   f1? (claimHandle (claim s z)), claimMark (claim s z),
   f2 m.trim, f2 m.duckLevel, f2 m.rampStep, f2 m.duck, f2 m.saturation,
   f1? (ambientLane s z), f2 a.factor, f4 a.level, f4 a.peak]

/-- QUERY ZONE (R181). -/
def queryZone (q : QueryFields) (s : State) : Answer :=
  if q.subject.toNat > 47 ∨ queryBad q 0 false = true then refuse .badarg s
  else queryAnswer 1 q 1 (zoneItems q.subject.toNat s) s s

/-- QUERY ZONE, code A1h kind 1 (R179, R181). -/
def execQueryZone (h : Header) (q : QueryFields) (s : State) : Host.Outcome State Fault Refusal :=
  .next (takeCommand h 0xA1 (queryZone q) s)

/-! ### REQUEST (R182) -/

/-- The part count of a REQUEST answer with n fragments (Table 10.2). -/
def requestParts (n : Nat) : Nat := if n ≤ 2 then 2 else 2 + (n - 2 + 3) / 4

/-- A fragment place of a REQUEST answer; places beyond the list are 0 (R182). -/
def fragmentPlace (fs : List Fragment) (i : Nat) : List Field :=
  match fs[i]? with
  | some f => fragmentFields f
  | none => [f1 0, f4 0, f4 0]

/-- Part 0 of REQUEST (R182). A talk count that is not loaded is reported as 0 (DESIGN CHOICE, log 13). -/
def requestPart0 (k : Nat) (s : State) : List Field :=
  let r := request s k
  [f1 (requestCode r.state), f1 (classNum r.cls), f1 r.priority, f1 (originKind r.origin), f1 (originId r.origin),
   f1 (originTrigger r.origin), fBool r.live, f1 r.lane, f2 r.talkLimit, f2 (r.talkCount.getD 0), f1 (currentCode r.current),
   fZones r.requested, fZones r.granted, fZones (joinedZones s k), f2 r.minCoverage, f1 (requestFlags r.flags), f2 r.level]

/-- Part 1 of REQUEST (R182); the latest start of a request without one is stated by no rule (log 13). -/
def requestPart1 (k : Nat) (s : State) : List Field :=
  let r := request s k
  [fBool r.latestStart.isSome, .b4 (r.latestStart.getD (openValue 7 s)), f2 r.restarts, f1? r.engine,
   f1 (pendingCode r.pendingEnd), f1 (endingCode r.ending).1, f1 (endingCode r.ending).2, f4 r.duration,
   f2 r.fragments.length] ++ fragmentPlace r.fragments 0 ++ fragmentPlace r.fragments 1

/-- The contents of a part of REQUEST (Table 10.2, R182). -/
def requestPart (k part : Nat) (s : State) : List Field :=
  if part = 0 then requestPart0 k s
  else if part = 1 then requestPart1 k s
  else (List.range 4).flatMap fun j => fragmentPlace (request s k).fragments (4 * part - 6 + j)

/-- QUERY REQUEST (R182). -/
def queryRequest (q : QueryFields) (s : State) : Answer :=
  let k := q.subject.toNat
  if k > 95 ∨ queryBad q 9 false = true then refuse .badarg s
  else if (request s k).state = .free then refuse .noent s
  else queryAnswer 2 q (requestParts (request s k).fragments.length) (requestPart k q.part.toNat s) s s

/-- QUERY REQUEST, code A1h kind 2 (R179, R182). -/
def execQueryRequest (h : Header) (q : QueryFields) (s : State) : Host.Outcome State Fault Refusal :=
  .next (takeCommand h 0xA1 (queryRequest q) s)

/-! ### ENGINE (R114) -/

/-- The kind of a fragment (R114). -/
def fragmentKind : Fragment → Nat
  | .clip _ _ => 0
  | .pause _ => 1

/-- The items of QUERY ENGINE (R114); the length of an absent fragment is stated by no rule (log 13). -/
def engineItems (e : Nat) (s : State) : List Field :=
  let x := tget s.engines e
  let f := engineFragment s x
  [f1 e, f1 (engineCode x.state), f1? x.handle, fBool (s.zar.evacMark == some e), fZones x.waitSet, f1? x.fragment,
   f2 (engineList s x).length, f1? (f.map fragmentKind),
   (match f with
    | some f => f4 (fragmentFrames f)
    | none => .b4 (openValue 9 s)),
   f4 x.position, f2 x.loops, f2 x.fade]

/-- QUERY ENGINE (R114). -/
def queryEngine (q : QueryFields) (s : State) : Answer :=
  if q.subject.toNat > 5 ∨ queryBad q 0 false = true then refuse .badarg s
  else queryAnswer 3 q 1 (engineItems q.subject.toNat s) s s

/-- QUERY ENGINE, code A1h kind 3 (R114, R179). -/
def execQueryEngine (h : Header) (q : QueryFields) (s : State) : Host.Outcome State Fault Refusal :=
  .next (takeCommand h 0xA1 (queryEngine q) s)

/-! ### CALL (R173, R182) -/

/-- The part count of a CALL answer with t triggers (Table 10.2). -/
def callPartCount (t : Nat) : Nat := 1 + (t + 4) / 5

/-- A via place: FFFFh beyond the count (R182). -/
def viaPlace (c : Call) (i : Nat) : Field := f2 (c.via.getD i 0xFFFF)

/-- Part 0 of CALL (R173, R182). -/
def callPart0 (c : Call) : List Field :=
  [f1 (callCode c.state), f2 c.number, fBool c.arrival, f2 c.destination, f2 c.via.length, viaPlace c 0, viaPlace c 1,
   viaPlace c 2, viaPlace c 3, fTime c.scheduled, f4i c.delay, fTime (expectedTime c), f1 c.platform, f1 c.plan,
   f4i c.lastNotified, f2 c.triggers.length]

/-- A trigger of a CALL answer: role, state, request handle and fire time (R182). -/
def triggerItems (t : CallTrigger) : List Field :=
  [f1 (roleCode t.role), f1 (triggerCode t.state), f1? t.handle, fTime t.fire]

/-- The contents of a part of CALL (Table 10.2). The fields end with the last trigger, so the places beyond are sent as bytes of 0 (R17; DEDUCED, log 46). -/
def callPart (c : Call) (part : Nat) : List Field :=
  if part = 0 then callPart0 c
  else if part = 1 then (c.triggers.take 5).flatMap triggerItems
  else (c.triggers.drop 5).flatMap triggerItems

/-- QUERY CALL (R173, R182). -/
def queryCall (q : QueryFields) (s : State) : Answer :=
  let k := q.subject.toNat
  if k > 255 ∨ queryBad q 2 false = true then refuse .badarg s
  else
    let c := tget s.csc.calls k
    if c.state = .free then refuse .noent s
    else queryAnswer 4 q (callPartCount c.triggers.length) (callPart c q.part.toNat) s s

/-- QUERY CALL, code A1h kind 4 (R173, R179, R182). -/
def execQueryCall (h : Header) (q : QueryFields) (s : State) : Host.Outcome State Fault Refusal :=
  .next (takeCommand h 0xA1 (queryCall q) s)

/-! ### COUNTERS (R180) -/

/-- The saturation counters of a run of zones. -/
def saturations (s : State) (first count : Nat) : List Field :=
  (List.range count).map fun i => f2 (tget s.zmx (first + i)).saturation

/-- The contents of a part of COUNTERS (Table 10.2, R180). -/
def countersPart (s : State) (part : Nat) : List Field :=
  if part = 0 then
    [f2 s.itp.crcErrors, f2 s.itp.missing, f2 s.ch.discards] ++ s.csc.periodics.toList.map fun p => f2 p.skips
  else if part = 1 then saturations s 0 19
  else if part = 2 then saturations s 19 19
  else saturations s 38 10

/-- Every counter of all four parts at 0 (R180, CLEAR). -/
def clearCounters (s : State) : State :=
  let s := s.setItp { s.itp with crcErrors := 0, missing := 0 }
  let s := s.setCh { s.ch with discards := 0 }
  let s := s.setCsc { s.csc with periodics := s.csc.periodics.map fun p => { p with skips := 0 } }
  s.setZmx (s.zmx.map fun m => { m with saturation := 0 })

/-- QUERY COUNTERS (R180). -/
def queryCounters (q : QueryFields) (s : State) : Answer :=
  if queryBad q 3 true then refuse .badarg s
  else queryAnswer 5 q 4 (countersPart s q.part.toNat) (if flagBit q.flags 0 then clearCounters s else s) s

/-- QUERY COUNTERS, code A1h kind 5 (R179, R180). -/
def execQueryCounters (h : Header) (q : QueryFields) (s : State) : Host.Outcome State Fault Refusal :=
  .next (takeCommand h 0xA1 (queryCounters q) s)

/-! ### PHRASE (R123) -/

/-- QUERY PHRASE (R123). -/
def queryPhrase (q : QueryFields) (s : State) : Answer :=
  if q.subject.toNat > 1023 ∨ queryBad q 0 false = true then refuse .badarg s
  else match tget s.cmc.phrases q.subject.toNat with
    | none => refuse .noent s
    | some p =>
      queryAnswer 6 q 1 [.b2 q.subject, f4 p.start, f4 p.length, f1 (bankOf p.start), f2 (tget s.cmc.useCounts (bankOf p.start))]
        s s

/-- QUERY PHRASE, code A1h kind 6 (R123, R179). -/
def execQueryPhrase (h : Header) (q : QueryFields) (s : State) : Host.Outcome State Fault Refusal :=
  .next (takeCommand h 0xA1 (queryPhrase q) s)

/-- A QUERY whose kind is above 6 (R179, log 25). -/
def queryOfNoKind (h : Header) (s : State) : State := takeCommand h 0xA1 (refuse .badarg) s

/-! ### IDENTIFY (R183) -/

/-- The capacities of the part, in the order of R183. -/
def capacities : List Nat := [48, 40, 6, 96, 64, 32, 1024, 64, 64, 32, 32, 256, 16, 4, 32]

/-- IDENTIFY (R183). -/
def identify (s : State) : Answer := ⟨.done, [f2 48, f1 1, f1 s.ch.unitAddr.toNat] ++ capacities.map f2, s⟩

/-- IDENTIFY, code A2h (R183). -/
def execIdentify (h : Header) (s : State) : Host.Outcome State Fault Refusal := .next (takeCommand h 0xA2 identify s)

/-! ### UNIT_RESET (R184, Table 10.3) -/

/-- The number of engines out of IDLE (R184). -/
def enginesBusy (s : State) : Nat := (s.engines.toList.filter fun e => e.state != .idle).length

/-- A zone's line after UNIT_RESET (R67). -/
def resetLine (l : ZoneLine) : ZoneLine :=
  match l.line with
  | .waking | .live | .hang => { l with line := .standby, wakeCount := 0, hangCount := 0 }
  | .off | .fault | .standby => { l with wakeCount := 0, hangCount := 0 }

/-- A trigger after UNIT_RESET (R174). -/
def resetTrigger (t : CallTrigger) : CallTrigger := if t.state = .fired then { t with state := .missed, handle := none } else t

/-- The scheduler after UNIT_RESET (R174). -/
def resetScheduler (c : Csc) : Csc :=
  { c with load := none,
           calls := c.calls.map (fun k => { k with triggers := k.triggers.map resetTrigger }),
           periodics := c.periodics.map (fun p => { p with previous := none }) }

/-- The blocks take their reset effects (Table 10.3: R36, R50, R67, R94, R115, R117, R126, R174); no zone has a timed test left in this frame period (R67). -/
def resetBlocks (s : State) : State :=
  { s with
    zmx := s.zmx.map fun m => { m with duck := 16384 }
    amt := s.amt.map fun a => { clearedEstimator a with gate := .open, release := 0 }
    zlc := s.zlc.map resetLine
    zar := resetZar
    engines := s.engines.map fun e => { idleEngine with output := e.output }
    cmc := { s.cmc with useCounts := Vector.replicate 64 0 }
    tex := { s.tex with load := none }
    csc := resetScheduler s.csc
    period := { s.period with tested := BitVec.allOnes 48, heldWakes := [], heldHangs := [] }
    work := ⟨0, 0, 0⟩ }

/-- UNIT_RESET (R184). -/
def unitReset (s : State) : Answer :=
  let items := [f2 (recordsInUse s), f2 (enginesBusy s), f1 (statusFlags s.ch)]
  let s' := resetBlocks s
  let emptied := s'.setCh { s'.ch with replies := [], events := [], eventLost := false }
  ⟨.done, items, pushEvent 0x0D 0 0 items emptied⟩

/-- UNIT_RESET, code A3h (R184). -/
def execUnitReset (h : Header) (s : State) : Host.Outcome State Fault Refusal := .next (takeCommand h 0xA3 unitReset s)

end Sys2Proof.Machine
end

