-- ==== Sys2Proof/Machine/Resets.lean ====
section
/-! DEFINITION. POWER_ON and PIN_RESET (R175, R185 and the reset rules of each block). -/

namespace Sys2Proof.Machine

/-- The state that both resets leave in every block but the clip memory; the waiting commands and the index of free values are no part of the unit. -/
def resetUnit (straps : BitVec 4) (s : State) : State :=
  { State.reset with ch := { State.reset.ch with unitAddr := straps }, free := s.free, pending := s.pending }

/-- Power-on: the clip memory holds what the DRAM holds then, a fresh free value at every address (R116, log 12). -/
def powerOn (straps : BitVec 4) (s : State) : State :=
  let r := resetUnit straps s
  r.setCmc { r.cmc with powerCycle := s.cmc.powerCycle + 1 }

/-- Pin reset: equivalent to power-on (Table 0.2) but for the clip memory, which keeps its contents (R116). -/
def pinReset (straps : BitVec 4) (s : State) : State :=
  let r := resetUnit straps s
  r.setCmc { r.cmc with memory := s.cmc.memory, powerCycle := s.cmc.powerCycle }

/-- POWER_ON (R185). -/
def execPowerOn (straps : BitVec 4) (s : State) : Host.Outcome State Fault Refusal := .next (powerOn straps s)

/-- PIN_RESET (R175, R185). -/
def execPinReset (straps : BitVec 4) (s : State) : Host.Outcome State Fault Refusal := .next (pinReset straps s)

end Sys2Proof.Machine
end

