-- ==== Sys2Proof/Machine/Period.lean ====
section
/-! DEFINITION. The frame period (R2): the work on the state at its start, the taking of a complete cell, the events of the period that no row has taken, and its end. -/

namespace Sys2Proof.Machine

/-! ### The complete cell (R15, R175, R176) -/

/-- The effect of a cell's command: the rows that a cell can spell, and no other. -/
def cellCommand (i : Instr) (s : State) : Host.Outcome State Fault Refusal :=
  match i with
  | .laneSet h lane role zone => execLaneSet h lane role zone s
  | .routeSet h zone route lane coeff => execRouteSet h zone route lane coeff s
  | .zoneMixSet h zone trim duckLevel rampStep => execZoneMixSet h zone trim duckLevel rampStep s
  | .ambientSet h zone flags threshold slope ambMax stepMax hold => execAmbientSet h zone flags threshold slope ambMax stepMax hold s
  | .zoneSet h zone flags preroll hang => execZoneSet h zone flags preroll hang s
  | .zoneFault h zone faultCode => execZoneFault h zone faultCode s
  | .zoneClear h zone => execZoneClear h zone s
  | .announce h a => execAnnounce h a s
  | .release h handle mode => execRelease h handle mode s
  | .clipWrite h addr samples => execClipWrite h addr samples s
  | .clipRead h addr => execClipRead h addr s
  | .phraseSet h phrase present start length => execPhraseSet h phrase present start length s
  | .templateSet h template wordingCount wordingIndex itemCount firstItem items => execTemplateSet h template wordingCount wordingIndex itemCount firstItem items s
  | .time h reference flags => execTime h reference flags s
  | .clockSet h window limit => execClockSet h window limit s
  | .platformSet h platform platformZones concourseZones => execPlatformSet h platform platformZones concourseZones s
  | .planSet h plan triggerCount closeMargin threshold firstTrigger triggers => execPlanSet h plan triggerCount closeMargin threshold firstTrigger triggers s
  | .callLoad h c => execCallLoad h c s
  | .callAmend h slot flags delay platform => execCallAmend h slot flags delay platform s
  | .callCancel h slot => execCallCancel h slot s
  | .callClear h slot => execCallClear h slot s
  | .periodicSet h p => execPeriodicSet h p s
  | .queryStatus h q => execQueryStatus h q s
  | .queryZone h q => execQueryZone h q s
  | .queryRequest h q => execQueryRequest h q s
  | .queryEngine h q => execQueryEngine h q s
  | .queryCall h q => execQueryCall h q s
  | .queryCounters h q => execQueryCounters h q s
  | .queryPhrase h q => execQueryPhrase h q s
  | .identify h => execIdentify h s
  | .unitReset h => execUnitReset h s
  | .unknownCommand h code => execUnknownCommand h code s
  | .nonCommandCell kind h => execNonCommandCell kind h s
  | .foreignCell h code => execForeignCell h code s
  | .powerOn .. | .pinReset .. | .framePeriod .. | .ingressGoodFrame .. | .ingressBadFrame .. | .ingressMissingFrame |
    .linkLost | .linkRecovered | .egressCellPeriod | .windowEnd .. | .releaseHoldEnd .. | .wakeEnd .. | .hangEnd .. |
    .tickEnd | .talkTimeout .. | .holdoverEntry | .prerollExit .. | .fragmentBoundary .. | .fadeEnd .. => .next s

/-- The effect of what a cell means. -/
def cellEffect (m : CellMeaning) (s : State) : State :=
  match m with
  | .queryOfNoKind h => queryOfNoKind h s
  | .command i => match cellCommand i s with
    | .next t => t
    | .fault _ | .refused _ => s

/-- The complete cell is taken, with the capture of its own first frame period, and leaves the assembly (R15, R140, log 3). -/
def takeCell (s : State) : State :=
  match s.ch.complete with
  | none => s
  | some ws =>
    let t := cellEffect (decodeCell ws) s
    t.setCh { t.ch with complete := none, capture := if t.ch.words = [] then none else t.ch.capture }

/-! ### The events of a frame period that no row has taken (log 1, log 8, log 21) -/

/-- Link events that are due (R4, R5). -/
def linkEvents (s : State) : State := linkRecovered (linkLost s)

/-- Window ends that are due (R40). -/
def windowEnds (s : State) : State := (List.range 48).foldl (fun s z => windowEnd z s) s

/-- Fragment boundaries and fade ends that are due (R104, R108). -/
def engineEvents (s : State) : State :=
  let s := (List.range 6).foldl (fun s e => settle (boundary e s)) s
  (List.range 6).foldl (fun s e => settle (endFade e s)) s

/-- The tick end, talk timeouts and the entry to HOLDOVER that are due (R88, R138, R144). -/
def clockEvents (s : State) : State := holdoverEntry (talkTimeouts (List.range 96) (tickEnd s))

/-- The end of a frame period: the clock advances, the egress cell goes on by one word, and the next period begins with nothing taken (R14, R136). -/
def advancePeriod (s : State) : State :=
  let slot := (s.etp.slot + 1) % 12
  { s with
    stc := advanceClock s.stc
    etp := { s.etp with slot := slot, sending := if slot = 0 then none else s.etp.sending }
    period := newPeriod }

/-- Everything of a frame period after its start work, in a fixed order (DESIGN CHOICE, log 1). The wakes come after every command and link event, so the exit from PREROLL that a wake end brings about comes after an end by RELEASE or LINK_LOST of the frame period, though R187 and R99 allow each order (DESIGN CHOICE, log 8). -/
def closePeriod (s : State) : State :=
  advancePeriod (lineTests (clockEvents (engineEvents (heldWakes (windowEnds (linkEvents (takeCell s)))))))

/-- FRAME_PERIOD (R2). -/
def framePeriod (part : PeriodPart) (s : State) : State :=
  match part with
  | .start => startPeriod s
  | .whole => closePeriod (startPeriod s)

/-- FRAME_PERIOD (R2, log 1). -/
def execFramePeriod (part : PeriodPart) (s : State) : Host.Outcome State Fault Refusal := .next (framePeriod part s)

end Sys2Proof.Machine
end

