-- ==== Sys2Proof/Machine/Dispatch.lean ====
section
/-! DEFINITION. exec: one arm per command, each a direct call of its meaning. -/

namespace Sys2Proof.Machine

/-- The effect of a command on everything but the queue of waiting commands. -/
def exec (i : Instr) (s : State) : Host.Outcome State Fault Refusal :=
  match i with
  | .powerOn straps => Sys2Proof.Machine.execPowerOn straps s
  | .pinReset straps => Sys2Proof.Machine.execPinReset straps s
  | .framePeriod part => Sys2Proof.Machine.execFramePeriod part s
  | .ingressGoodFrame f => Sys2Proof.Machine.execIngressGoodFrame f s
  | .ingressBadFrame f => Sys2Proof.Machine.execIngressBadFrame f s
  | .ingressMissingFrame => Sys2Proof.Machine.execIngressMissingFrame s
  | .linkLost => Sys2Proof.Machine.execLinkLost s
  | .linkRecovered => Sys2Proof.Machine.execLinkRecovered s
  | .nonCommandCell kind h => Sys2Proof.Machine.execNonCommandCell kind h s
  | .foreignCell h code => Sys2Proof.Machine.execForeignCell h code s
  | .unknownCommand h code => Sys2Proof.Machine.execUnknownCommand h code s
  | .egressCellPeriod => Sys2Proof.Machine.execEgressCellPeriod s
  | .windowEnd zone => Sys2Proof.Machine.execWindowEnd zone s
  | .releaseHoldEnd zone => Sys2Proof.Machine.execReleaseHoldEnd zone s
  | .wakeEnd zone => Sys2Proof.Machine.execWakeEnd zone s
  | .hangEnd zone => Sys2Proof.Machine.execHangEnd zone s
  | .tickEnd => Sys2Proof.Machine.execTickEnd s
  | .talkTimeout handle => Sys2Proof.Machine.execTalkTimeout handle s
  | .holdoverEntry => Sys2Proof.Machine.execHoldoverEntry s
  | .prerollExit engine => Sys2Proof.Machine.execPrerollExit engine s
  | .fragmentBoundary engine => Sys2Proof.Machine.execFragmentBoundary engine s
  | .fadeEnd engine => Sys2Proof.Machine.execFadeEnd engine s
  | .laneSet h lane role zone => Sys2Proof.Machine.execLaneSet h lane role zone s
  | .routeSet h zone route lane coeff => Sys2Proof.Machine.execRouteSet h zone route lane coeff s
  | .zoneMixSet h zone trim duckLevel rampStep => Sys2Proof.Machine.execZoneMixSet h zone trim duckLevel rampStep s
  | .ambientSet h zone flags threshold slope ambMax stepMax hold => Sys2Proof.Machine.execAmbientSet h zone flags threshold slope ambMax stepMax hold s
  | .zoneSet h zone flags preroll hang => Sys2Proof.Machine.execZoneSet h zone flags preroll hang s
  | .zoneFault h zone faultCode => Sys2Proof.Machine.execZoneFault h zone faultCode s
  | .zoneClear h zone => Sys2Proof.Machine.execZoneClear h zone s
  | .announce h a => Sys2Proof.Machine.execAnnounce h a s
  | .release h handle mode => Sys2Proof.Machine.execRelease h handle mode s
  | .clipWrite h addr samples => Sys2Proof.Machine.execClipWrite h addr samples s
  | .clipRead h addr => Sys2Proof.Machine.execClipRead h addr s
  | .phraseSet h phrase present start length => Sys2Proof.Machine.execPhraseSet h phrase present start length s
  | .templateSet h template wordingCount wordingIndex itemCount firstItem items => Sys2Proof.Machine.execTemplateSet h template wordingCount wordingIndex itemCount firstItem items s
  | .time h reference flags => Sys2Proof.Machine.execTime h reference flags s
  | .clockSet h window limit => Sys2Proof.Machine.execClockSet h window limit s
  | .platformSet h platform platformZones concourseZones => Sys2Proof.Machine.execPlatformSet h platform platformZones concourseZones s
  | .planSet h plan triggerCount closeMargin threshold firstTrigger triggers => Sys2Proof.Machine.execPlanSet h plan triggerCount closeMargin threshold firstTrigger triggers s
  | .callLoad h c => Sys2Proof.Machine.execCallLoad h c s
  | .callAmend h slot flags delay platform => Sys2Proof.Machine.execCallAmend h slot flags delay platform s
  | .callCancel h slot => Sys2Proof.Machine.execCallCancel h slot s
  | .callClear h slot => Sys2Proof.Machine.execCallClear h slot s
  | .periodicSet h p => Sys2Proof.Machine.execPeriodicSet h p s
  | .queryStatus h q => Sys2Proof.Machine.execQueryStatus h q s
  | .queryZone h q => Sys2Proof.Machine.execQueryZone h q s
  | .queryRequest h q => Sys2Proof.Machine.execQueryRequest h q s
  | .queryEngine h q => Sys2Proof.Machine.execQueryEngine h q s
  | .queryCall h q => Sys2Proof.Machine.execQueryCall h q s
  | .queryCounters h q => Sys2Proof.Machine.execQueryCounters h q s
  | .queryPhrase h q => Sys2Proof.Machine.execQueryPhrase h q s
  | .identify h => Sys2Proof.Machine.execIdentify h s
  | .unitReset h => Sys2Proof.Machine.execUnitReset h s

end Sys2Proof.Machine
end

