-- ==== Sys2Proof/Safety.lean ====
section
/-! DEFINITION. What a safe run keeps: the ranges and laws that the manual states of the part, as predicates of a state. -/

namespace Sys2Proof

/-- The header and the command code of a command cell of the table (Table 1.8); other rows have none. -/
def Instr.command? : Instr → Option (Header × Byte)
  | .laneSet h _ _ _ => some (h, 0x11)
  | .routeSet h _ _ _ _ => some (h, 0x21)
  | .zoneMixSet h _ _ _ _ => some (h, 0x22)
  | .ambientSet h _ _ _ _ _ _ _ => some (h, 0x31)
  | .zoneSet h _ _ _ _ => some (h, 0x41)
  | .zoneFault h _ _ => some (h, 0x42)
  | .zoneClear h _ => some (h, 0x43)
  | .announce h _ => some (h, 0x51)
  | .release h _ _ => some (h, 0x52)
  | .clipWrite h _ _ => some (h, 0x71)
  | .clipRead h _ => some (h, 0x73)
  | .phraseSet h _ _ _ _ => some (h, 0x72)
  | .templateSet h _ _ _ _ _ _ => some (h, 0x74)
  | .time h _ _ => some (h, 0x81)
  | .clockSet h _ _ => some (h, 0x82)
  | .platformSet h _ _ _ => some (h, 0x91)
  | .planSet h _ _ _ _ _ _ => some (h, 0x92)
  | .callLoad h _ => some (h, 0x93)
  | .callAmend h _ _ _ _ => some (h, 0x94)
  | .callCancel h _ => some (h, 0x95)
  | .callClear h _ => some (h, 0x96)
  | .periodicSet h _ => some (h, 0x97)
  | .queryStatus h _ => some (h, 0xA1)
  | .queryZone h _ => some (h, 0xA1)
  | .queryRequest h _ => some (h, 0xA1)
  | .queryEngine h _ => some (h, 0xA1)
  | .queryCall h _ => some (h, 0xA1)
  | .queryCounters h _ => some (h, 0xA1)
  | .queryPhrase h _ => some (h, 0xA1)
  | .identify h => some (h, 0xA2)
  | .unitReset h => some (h, 0xA3)
  | .powerOn .. | .pinReset .. | .framePeriod .. | .ingressGoodFrame .. | .ingressBadFrame .. | .ingressMissingFrame
    | .linkLost | .linkRecovered | .nonCommandCell .. | .foreignCell .. | .unknownCommand .. | .egressCellPeriod |
    .windowEnd .. | .releaseHoldEnd .. | .wakeEnd .. | .hangEnd .. | .tickEnd | .talkTimeout .. | .holdoverEntry |
    .prerollExit .. | .fragmentBoundary .. | .fadeEnd .. => none

/-- The command of the table with another unit address in its header (R175); other rows stay as they are. -/
def Instr.toUnit (a : BitVec 4) : Instr → Instr
  | .laneSet h x0 x1 x2 => .laneSet { h with addr := a } x0 x1 x2
  | .routeSet h x0 x1 x2 x3 => .routeSet { h with addr := a } x0 x1 x2 x3
  | .zoneMixSet h x0 x1 x2 x3 => .zoneMixSet { h with addr := a } x0 x1 x2 x3
  | .ambientSet h x0 x1 x2 x3 x4 x5 x6 => .ambientSet { h with addr := a } x0 x1 x2 x3 x4 x5 x6
  | .zoneSet h x0 x1 x2 x3 => .zoneSet { h with addr := a } x0 x1 x2 x3
  | .zoneFault h x0 x1 => .zoneFault { h with addr := a } x0 x1
  | .zoneClear h x0 => .zoneClear { h with addr := a } x0
  | .announce h x0 => .announce { h with addr := a } x0
  | .release h x0 x1 => .release { h with addr := a } x0 x1
  | .clipWrite h x0 x1 => .clipWrite { h with addr := a } x0 x1
  | .clipRead h x0 => .clipRead { h with addr := a } x0
  | .phraseSet h x0 x1 x2 x3 => .phraseSet { h with addr := a } x0 x1 x2 x3
  | .templateSet h x0 x1 x2 x3 x4 x5 => .templateSet { h with addr := a } x0 x1 x2 x3 x4 x5
  | .time h x0 x1 => .time { h with addr := a } x0 x1
  | .clockSet h x0 x1 => .clockSet { h with addr := a } x0 x1
  | .platformSet h x0 x1 x2 => .platformSet { h with addr := a } x0 x1 x2
  | .planSet h x0 x1 x2 x3 x4 x5 => .planSet { h with addr := a } x0 x1 x2 x3 x4 x5
  | .callLoad h x0 => .callLoad { h with addr := a } x0
  | .callAmend h x0 x1 x2 x3 => .callAmend { h with addr := a } x0 x1 x2 x3
  | .callCancel h x0 => .callCancel { h with addr := a } x0
  | .callClear h x0 => .callClear { h with addr := a } x0
  | .periodicSet h x0 => .periodicSet { h with addr := a } x0
  | .queryStatus h x0 => .queryStatus { h with addr := a } x0
  | .queryZone h x0 => .queryZone { h with addr := a } x0
  | .queryRequest h x0 => .queryRequest { h with addr := a } x0
  | .queryEngine h x0 => .queryEngine { h with addr := a } x0
  | .queryCall h x0 => .queryCall { h with addr := a } x0
  | .queryCounters h x0 => .queryCounters { h with addr := a } x0
  | .queryPhrase h x0 => .queryPhrase { h with addr := a } x0
  | .identify h => .identify { h with addr := a }
  | .unitReset h => .unitReset { h with addr := a }
  | .powerOn x0 => .powerOn x0
  | .pinReset x0 => .pinReset x0
  | .framePeriod x0 => .framePeriod x0
  | .ingressGoodFrame x0 => .ingressGoodFrame x0
  | .ingressBadFrame x0 => .ingressBadFrame x0
  | .ingressMissingFrame => .ingressMissingFrame
  | .linkLost => .linkLost
  | .linkRecovered => .linkRecovered
  | .nonCommandCell x0 x1 => .nonCommandCell x0 x1
  | .foreignCell x0 x1 => .foreignCell x0 x1
  | .unknownCommand x0 x1 => .unknownCommand x0 x1
  | .egressCellPeriod => .egressCellPeriod
  | .windowEnd x0 => .windowEnd x0
  | .releaseHoldEnd x0 => .releaseHoldEnd x0
  | .wakeEnd x0 => .wakeEnd x0
  | .hangEnd x0 => .hangEnd x0
  | .tickEnd => .tickEnd
  | .talkTimeout x0 => .talkTimeout x0
  | .holdoverEntry => .holdoverEntry
  | .prerollExit x0 => .prerollExit x0
  | .fragmentBoundary x0 => .fragmentBoundary x0
  | .fadeEnd x0 => .fadeEnd x0

/-- The rows that act within a frame period and are no cells: they find its start work done, or do it first (log 1). -/
def Instr.withinPeriod : Instr → Bool
  | .framePeriod .. | .linkLost | .linkRecovered | .windowEnd .. | .wakeEnd .. | .hangEnd .. | .tickEnd | .talkTimeout ..
  | .holdoverEntry | .prerollExit .. | .fragmentBoundary .. | .fadeEnd .. => true
  | .powerOn .. | .pinReset .. | .ingressGoodFrame .. | .ingressBadFrame .. | .ingressMissingFrame | .egressCellPeriod
  | .releaseHoldEnd .. | .nonCommandCell .. | .foreignCell .. | .unknownCommand ..
  | .laneSet .. | .routeSet .. | .zoneMixSet .. | .ambientSet .. | .zoneSet .. | .zoneFault .. | .zoneClear ..
  | .announce .. | .release .. | .clipWrite .. | .clipRead .. | .phraseSet .. | .templateSet .. | .time .. | .clockSet ..
  | .platformSet .. | .planSet .. | .callLoad .. | .callAmend .. | .callCancel .. | .callClear .. | .periodicSet ..
  | .queryStatus .. | .queryZone .. | .queryRequest .. | .queryEngine .. | .queryCall .. | .queryCounters ..
  | .queryPhrase .. | .identify .. | .unitReset .. => false

namespace Machine

/-- The reply queue holds up to 4 cells and the event queue up to 32 (R177, R178). -/
def CellQueuesBounded (s : State) : Prop := s.ch.replies.length ≤ 4 ∧ s.ch.events.length ≤ 32

/-- The ranges of Table 8.1: tick length, phase, slew remainder, holdover count, slew window and holdover limit; the count is 0 while UNSET (Table 8.2). -/
structure ClockInRange (c : Stc) : Prop where
  tick : c.tickLength = 479 ∨ c.tickLength = 480 ∨ c.tickLength = 481
  phase : c.phase < c.tickLength
  slew : c.slew.natAbs ≤ 1048575
  count : c.holdoverCount ≤ 6553500
  window : c.slewWindow ≤ 1048575
  limit : 1 ≤ c.holdoverLimit ∧ c.holdoverLimit ≤ 65535
  unset : c.status = .unset → c.holdoverCount = 0

/-- An entry of the zone table agrees with itself (Section 4.1, R56, R58, R61 to R63): enable is clear exactly in OFF, a wake count runs in WAKING alone, a hang count in HANG alone, and a fault code stands in FAULT alone. -/
structure LineConsistent (l : ZoneLine) : Prop where
  enable : l.enable = false ↔ l.line = .off
  wake : l.line ≠ .waking → l.wakeCount = 0
  waking : l.line = .waking → 1 ≤ l.wakeCount
  hangs : l.line ≠ .hang → l.hangCount = 0
  fault : l.line ≠ .fault → l.faultCode = 0

/-- Every entry of the zone table agrees with itself. -/
def LinesConsistent (s : State) : Prop := ∀ z, z < 48 → LineConsistent (tget s.zlc z)

/-- The ranges of a zone's mixer state (Section 2.3, R22, R28, R30, R31, R33, R34). -/
structure MixZoneLegal (m : MixZone) : Prop where
  routes : ∀ r, r < 4 → (tget m.routes r).coeff ≤ 65535 ∧ ∀ i, (tget m.routes r).lane = some i → i < 40
  trim : m.trim ≤ 65535
  duckLevel : m.duckLevel ≤ 16384
  rampStep : 1 ≤ m.rampStep ∧ m.rampStep ≤ 16384
  duck : m.duck ≤ 16384
  saturation : m.saturation ≤ 65535

/-- Every zone's mixer state is in range, and so is the level of every request, which scales its holder terms (R24, Table 5.1). -/
structure MixerLegal (s : State) : Prop where
  zones : ∀ z, z < 48 → MixZoneLegal (tget s.zmx z)
  levels : ∀ h, h < 96 → (request s h).level ≤ 65535

/-- The ranges of a zone's estimator and ambient settings (Tables 3.1 and 3.2, R39, R41, R48): the factor lies between unity and the zone's maximum. `begun` says that the start work of the frame period is done: the sample it has taken may be the 4,800th, whose window ends within the period (R40). -/
structure AmbientLegal (begun : Bool) (a : AmbientZone) : Prop where
  acc : a.acc ≤ 8388608 * a.count
  count : a.count ≤ 4799 + begun.toNat
  level : a.level ≤ 8388608
  peak : a.peak ≤ 8388608
  release : a.release ≤ 65535
  threshold : a.threshold ≤ 8388608
  slope : a.slope ≤ 65535
  maximum : 16384 ≤ a.factorMax ∧ a.factorMax ≤ 65535
  factor : 16384 ≤ a.factor ∧ a.factor ≤ a.factorMax
  step : 1 ≤ a.step ∧ a.step ≤ 65535
  hold : a.hold ≤ 65535

/-- Every zone's estimator and ambient settings are in range. -/
def TrackerLegal (s : State) : Prop := ∀ z, z < 48 → AmbientLegal s.period.started (tget s.amt z)

/-- The clip memory has its canonical form: addresses strictly rising and within the memory (R116, log 32). -/
def ClipMemoryCanonical (s : State) : Prop := memWf s.cmc.memory = true

/-- The counters of the link and of the cell assembly stop at 65535, and the run counts keep their ranges (Section 1.2, R4, R5, R7, R16). -/
structure LinkCountersBounded (s : State) : Prop where
  crc : s.itp.crcErrors ≤ 65535
  missing : s.itp.missing ≤ 65535
  discards : s.ch.discards ≤ 65535
  badRun : s.itp.badRun ≤ 48
  goodRun : s.itp.goodRun ≤ 16

/-- The laws of the claim table (R70): a zone is named under a request exactly when it is in the request's granted set; granted sets lie within requested sets and hold no zone in FAULT or OFF; a WAITING or FREE request holds no zone (Table 5.2). -/
structure ClaimsAgree (s : State) : Prop where
  named : ∀ z, z < 48 → ∀ h, h < 96 → (claimHandle (claim s z) = some h ↔ zmem (request s h).granted z = true)
  handles : ∀ z, z < 48 → ∀ h, claimHandle (claim s z) = some h → h < 96
  within : ∀ z, z < 48 → ∀ h, h < 96 → zmem (request s h).granted z = true → zmem (request s h).requested z = true
  usable : ∀ z, z < 48 → ∀ h, claimHandle (claim s z) = some h → usableLine (lineOf s z) = true
  unheld : ∀ h, h < 96 → (request s h).state = .waiting ∨ (request s h).state = .free → (request s h).granted = 0

/-- No WAITING request has a latest start earlier than a station time (R87, a law of the device). -/
def NoneLate (t : Time) (s : State) : Prop :=
  ∀ h, h < 96 → (request s h).state = .waiting → ∀ l, (request s h).latestStart = some l → earlier l t = false

/-- The law of R87 with what carries it through a frame period: no WAITING request has a latest start earlier than the T that the last tick end or step of the period has handed on, or else the clock's. A tick end that is taken has handed on the T to which the period's end advances, and a step the T that it has set. -/
structure ExpiryLaw (s : State) : Prop where
  none : NoneLate (lawTime s) s
  taken : s.period.tickTaken = true → s.stc.tickLength ≤ s.stc.phase + 1 ∧ s.period.handed = some (s.stc.time + 1)
  untaken : s.period.tickTaken = false → s.period.handed = Option.none ∨ s.period.handed = some s.stc.time
  tick : s.period.tick.isSome = true → s.period.handed.isSome = true

/-- The law of the engines (R76, R95, R106): an engine out of IDLE is bound to exactly one request, in GRANTED, ACTIVE or ENDING, and no request is bound to two; a bound engine is STOPPING exactly while its request is ENDING; of the requests in GRANTED and ACTIVE those alone whose current source is LANE have no engine. -/
structure EnginesAgree (s : State) : Prop where
  bound : ∀ e, e < 6 → ∀ h, (tget s.engines e).handle = some h → h < 96 ∧ (request s h).engine = some e
  owned : ∀ h, h < 96 → ∀ e, (request s h).engine = some e → e < 6 ∧ (tget s.engines e).handle = some h
  idle : ∀ e, e < 6 → ((tget s.engines e).state = .idle ↔ (tget s.engines e).handle = none)
  held : ∀ h, h < 96 → ∀ e, (request s h).engine = some e →
    (request s h).state = .granted ∨ (request s h).state = .active ∨ (request s h).state = .ending
  stopping : ∀ h, h < 96 → ∀ e, (request s h).engine = some e →
    ((tget s.engines e).state = .stopping ↔ (request s h).state = .ending)
  ending : ∀ h, h < 96 → (request s h).state = .ending → (request s h).engine ≠ none ∧ (request s h).ending ≠ .none
  source : ∀ h, h < 96 → (request s h).state = .granted ∨ (request s h).state = .active →
    ((request s h).engine = none ↔ (request s h).current = .lane)
  lane : ∀ h, h < 96 → (request s h).live = false → (request s h).current = .engine

/-- What the trigger of a call holds at an index. -/
def triggerAt (s : State) (slot i : Nat) : Option CallTrigger := (tget s.csc.calls slot).triggers[i]?

/-- The law of triggers, periodic entries and their requests (R154, R153, R170): a trigger is FIRED exactly while the request table holds a request of it, the one that its handle names; a periodic entry names exactly the request that stands in the table for it; a FREE or CLOSED call has no FIRED trigger. -/
structure TriggersAgree (s : State) : Prop where
  fired : ∀ slot, slot < 256 → ∀ i x, triggerAt s slot i = some x → x.state = .fired →
    ∃ h, h < 96 ∧ x.handle = some h ∧ (request s h).state ≠ .free ∧ (request s h).origin = .call slot i
  cleared : ∀ slot, slot < 256 → ∀ i x, triggerAt s slot i = some x → x.state ≠ .fired → x.handle = none
  owned : ∀ h, h < 96 → (request s h).state ≠ .free → ∀ slot i, (request s h).origin = .call slot i →
    slot < 256 ∧ ∃ x, triggerAt s slot i = some x ∧ x.state = .fired ∧ x.handle = some h
  previous : ∀ i, i < 16 → ∀ h, (tget s.csc.periodics i).previous = some h →
    h < 96 ∧ (request s h).state ≠ .free ∧ (request s h).origin = .periodic i
  periodic : ∀ h, h < 96 → (request s h).state ≠ .free → ∀ i, (request s h).origin = .periodic i →
    i < 16 ∧ (tget s.csc.periodics i).previous = some h
  closed : ∀ slot, slot < 256 → (tget s.csc.calls slot).state = .free ∨ (tget s.csc.calls slot).state = .closed →
    ∀ i x, triggerAt s slot i = some x → x.state ≠ .fired

/-- A due list entry is one that R156 puts into the list: of a PENDING NORMAL trigger of a SCHEDULED or OPEN call, at its fire time; or of a present periodic entry, at its next due. -/
def dueStands (s : State) (e : DueEntry) : Prop :=
  match e.item with
  | .trigger slot i => slot < 256 ∧ callRuns (tget s.csc.calls slot) = true ∧
      ∃ x, triggerAt s slot i = some x ∧ x.role = .normal ∧ x.state = .pending ∧ e.time = x.fire
  | .periodic i => i < 16 ∧ (tget s.csc.periodics i).present = true ∧ e.time = (tget s.csc.periodics i).nextDue

/-- The law of the due list (R156, R151): it holds the entries that R156 puts into it, each item once; a SCHEDULED or OPEN call follows a loaded plan whose roles it has copied. -/
structure DueListLaw (s : State) : Prop where
  lists : ∀ e, e ∈ s.csc.due ↔ dueStands s e
  once : (s.csc.due.map (·.item)).Nodup
  plans : ∀ slot, slot < 256 → callRuns (tget s.csc.calls slot) = true →
    ∃ p, callPlan s (tget s.csc.calls slot) = some p ∧ (tget s.csc.calls slot).triggers.map (·.role) = p.triggers.map (·.role)

/-- A command cell for this part alone (R175) whose reply finds room, as R176 says that it always does, in a frame period whose start work is done; what a command given before it does, TheStartOfAFramePeriod says. -/
structure Addressed (h : Header) (s : State) : Prop where
  begun : s.period.started = true
  own : h.addr = s.ch.unitAddr
  single : h.addr ≠ 15
  room : s.ch.replies.length < 4

/-- What an addressed command leaves behind: its effect `t`, one more reply at the tail of the reply queue (R177), and the index of free values moved on (log 13). -/
def answered (h : Header) (code : Byte) (status : Status) (fields : List Field) (s t : State) : State :=
  (t.setFree (s.free + 1)).setCh { t.ch with replies := t.ch.replies ++ [⟨h.tag, code, status, fields⟩] }

/-- What an addressed command leaves behind when it is refused: a reply without result fields, and nothing else (R176, R177). -/
def refusedBy (h : Header) (code : Byte) (status : Status) (s : State) : State := answered h code status [] s s

/-- Nothing that an action brought about is left to do: no pass and no walk is due (R75, R160). -/
structure Settled (s : State) : Prop where
  pass : s.work.passesDue = 0
  walks : s.work.walksDue = 0

/-- What the scheduler's actions leave of a call record as it is: everything but its state and its triggers' states, handles and fire times. -/
def Call.fixed (c : Call) : Nat × Bool × Nat × List Nat × Time × Int × Nat × Nat × Int × List TriggerRole :=
  (c.number, c.arrival, c.destination, c.via, c.scheduled, c.delay, c.platform, c.plan, c.lastNotified,
    c.triggers.map (·.role))

/-- The frame of the arbiter's and the scheduler's actions: they touch the Zone Arbiter, the engines, the use counts, the calls, the due list, the periodic entries, the events and the work to do, and nothing else; events are added at the tail, and both bounded queues stay bounded. -/
structure ActFrame (s t : State) : Prop where
  itp : t.itp = s.itp
  etp : t.etp = s.etp
  zmx : t.zmx = s.zmx
  amt : t.amt = s.amt
  zlc : t.zlc = s.zlc
  tex : t.tex = s.tex
  stc : t.stc = s.stc
  period : t.period = s.period
  free : t.free = s.free
  pending : t.pending = s.pending
  unitAddr : t.ch.unitAddr = s.ch.unitAddr
  words : t.ch.words = s.ch.words
  capture : t.ch.capture = s.ch.capture
  complete : t.ch.complete = s.ch.complete
  replies : t.ch.replies = s.ch.replies
  discards : t.ch.discards = s.ch.discards
  events : s.ch.events <+: t.ch.events
  eventsBound : s.ch.events.length ≤ 32 → t.ch.events.length ≤ 32
  memory : t.cmc.memory = s.cmc.memory
  powerCycle : t.cmc.powerCycle = s.cmc.powerCycle
  phrases : t.cmc.phrases = s.cmc.phrases
  platforms : t.csc.platforms = s.csc.platforms
  plans : t.csc.plans = s.csc.plans
  load : t.csc.load = s.csc.load
  calls : ∀ k, (tget t.csc.calls k).fixed = (tget s.csc.calls k).fixed
  queueBound : s.zar.queue.length ≤ 64 → t.zar.queue.length ≤ 64

/-- At most one lane is the ambient lane of a zone (R11). -/
def AmbientLanesUnique (s : State) : Prop :=
  ∀ i j z, i < 40 → j < 40 → tget s.itp.roles i = .ambient z → tget s.itp.roles j = .ambient z → i = j

/-- The laws of the waiting queue (R69, R68): it lists the WAITING requests, each once, at most 64 of them, in the order of their keys; a WAITING request has no engine, and an ending outcome stands in ENDING alone. -/
structure WaitingQueueLaw (s : State) : Prop where
  bound : s.zar.queue.length ≤ 64
  handles : ∀ h ∈ s.zar.queue, h < 96
  lists : ∀ h, h < 96 → (h ∈ s.zar.queue ↔ (request s h).state = .waiting)
  once : s.zar.queue.Nodup
  sorted : s.zar.queue.Pairwise fun a b => standsBefore (request s b) (request s a) = false
  engine : ∀ h, h < 96 → (request s h).state = .waiting → (request s h).engine = none
  outcome : ∀ h, h < 96 → (request s h).ending ≠ .none → (request s h).state = .ending

/-- The number of clip fragments, across all records that are not FREE, whose clip lies in a bank (R117). -/
def bankUses (s : State) (b : Nat) : Nat :=
  ((List.range 96).map fun h => if (request s h).state = .free then 0 else
    ((request s h).fragments.filter fun f => fragmentBank f == some b).length).sum

/-- The law of the use counts (R117), with the part of R68 that it needs: a FREE record holds no fragments. -/
structure UseCountsAgree (s : State) : Prop where
  counts : ∀ b, b < 64 → tget s.cmc.useCounts b = bankUses s b
  free : ∀ h, h < 96 → (request s h).state = .free → (request s h).fragments = []

end Machine

end Sys2Proof
end

