-- ==== Sys2Proof/Certificates/Slice0/Obligations.lean ====
section
/-! DEFINITION. The statements for the provers, from the manual's numbered rules: what each command does and leaves, and the laws that every step keeps. -/

open Sys2Proof Sys2Proof.Machine

/-! ### The queue of commands, and the taking of cells (Chapter 10) -/

/-- The command at the front of the queue is carried out with the queue's rest; on an empty queue the block idles (the model's choice, log 20). -/
def Obligations.StepTakesTheFrontCommand : Prop :=
  (∀ c rest s, s.pending = c :: rest → step s = exec c (s.setPending rest)) ∧
  (∀ s, s.pending = [] → step s = .next s)

/-- R176: a command or event never stops the part. Every row answers a next state, and carries out its effect on everything but the queue of waiting commands. -/
def Obligations.EveryCommandAnswersANextState : Prop :=
  ∀ c s, ∃ t, exec c s = .next t ∧ t.pending = s.pending

/-- R175, R15, R176: a cell for another unit, and a cell that is no command, change nothing; a command whose code no rule gives is answered NOENT and changes nothing else. A complete cell that waits to be taken has the effect of the row that its words spell (Tables 1.8 and 1.10), and leaves the assembly. R179: a QUERY cell whose kind is above 6, which no row of the table names (log 25), is refused with BADARG. -/
def Obligations.CellsAreCarriedOutOrIgnored : Prop :=
  (∀ c h code s, c.command? = some (h, code) → h.addr ≠ 15 → h.addr ≠ s.ch.unitAddr → exec c s = .next s) ∧
  (∀ h code s, exec (.foreignCell h code) s = .next s) ∧
  (∀ kind h s, exec (.nonCommandCell kind h) s = .next s) ∧
  (∀ h code s, commandCodes.contains code = false → Addressed h s →
    exec (.unknownCommand h code) s = .next (refusedBy h code .noent s)) ∧
  (∀ h code s, commandCodes.contains code = false → h.addr = 15 → s.period.started = true →
    exec (.unknownCommand h code) s = .next (s.setFree (s.free + 1))) ∧
  (∀ ws i s t, s.ch.complete = some ws → decodeCell ws = .command i → exec i s = .next t →
    takeCell s = t.setCh { t.ch with complete := none, capture := if t.ch.words = [] then none else t.ch.capture }) ∧
  (∀ h x kind y0 y1 y2 rest s t, 6 < kind.toNat → Addressed h s →
    s.ch.complete = some (packWord (h.addr ++ (1 : BitVec 4)) h.tag 0xA1 x :: packWord kind y0 y1 y2 :: rest) →
    t = refusedBy h 0xA1 .badarg s →
    takeCell s = t.setCh { t.ch with complete := none, capture := if t.ch.words = [] then none else t.ch.capture })

/-- R175, R177: a broadcast command has the same effect as the same command addressed to the part, without a reply; an addressed one places exactly one reply at the tail of the reply queue, with its tag and code echoed. UNIT_RESET alone empties the queue first (R184). -/
def Obligations.AddressedCommandsGetOneReplyAndBroadcastsNone : Prop :=
  ∀ c h code s, c.command? = some (h, code) → h.addr = s.ch.unitAddr → h.addr ≠ 15 → s.period.started = true →
    ∃ t r, exec (c.toUnit 15) s = .next t ∧
      t.ch.replies = (if code = 0xA3 then [] else s.ch.replies) ∧
      r.tag = h.tag ∧ r.code = code ∧
      (s.ch.replies.length < 4 → exec c s = .next (t.setCh { t.ch with replies := t.ch.replies ++ [r] }))

/-- R176, R177: a refused command changes no state of the part apart from its reply, and its reply carries result fields with status BUSY alone. -/
def Obligations.RefusedCommandsChangeNothing : Prop :=
  ∀ c h code s t r, c.command? = some (h, code) → Addressed h s → exec c s = .next t →
    t.ch.replies = s.ch.replies ++ [r] → r.status ≠ .done →
    t = answered h code r.status r.result s s ∧ (r.status ≠ .busy → r.result = [])

/-! ### Laws that every step keeps -/

/-- R177, R178, R7, R16, R4, R5: the cell queues stay within 4 and 32, the link and discard counters within 65535, the run counts within 48 and 16. R116, log 32: the clip memory keeps its canonical form. Table 8.1, R136, R137, R142, R144, R146: the Station Clock stays in its ranges. -/
def Obligations.EveryStepKeepsTheStoresAndTheClockBounded : Prop :=
  (∀ s t, CellQueuesBounded s → step s = .next t → CellQueuesBounded t) ∧
  (∀ s t, LinkCountersBounded s → step s = .next t → LinkCountersBounded t) ∧
  (∀ s t, ClipMemoryCanonical s → step s = .next t → ClipMemoryCanonical t) ∧
  (∀ s t, ClockInRange s.stc → step s = .next t → ClockInRange t.stc)

/-- Section 4.1, R55 to R58, R61 to R63, R67: every zone table entry goes on agreeing with itself. R22, R28, R31, R34: the mixer's routes, settings, duck coefficients and saturation counters stay in range. Tables 3.1 and 3.2, R39, R41, R47, R48: the estimators and the ambient settings stay in range, every ambient factor between 16384 and its zone's ambient maximum. R11: a zone has at most one ambient lane. -/
def Obligations.EveryStepKeepsLinesMixerAndTrackerLegal : Prop :=
  (∀ s t, LinesConsistent s → step s = .next t → LinesConsistent t) ∧
  (∀ s t, MixerLegal s → step s = .next t → MixerLegal t) ∧
  (∀ s t, TrackerLegal s → step s = .next t → TrackerLegal t) ∧
  (∀ s t, AmbientLanesUnique s → step s = .next t → AmbientLanesUnique t)

/-- R69: the waiting queue lists the WAITING requests, each once, at most 64, in the order of their keys. -/
def Obligations.EveryStepKeepsTheWaitingQueueLaw : Prop :=
  ∀ s t, WaitingQueueLaw s → step s = .next t → WaitingQueueLaw t

/-- R117: the use count of every bank equals the number of clip fragments, across all records that are not FREE, whose clip lies in it. -/
def Obligations.EveryStepKeepsTheUseCounts : Prop :=
  ∀ s t, UseCountsAgree s → step s = .next t → UseCountsAgree t

/-- R70, R52: a zone is named in the claim table under a request exactly when it is in the request's granted set; granted sets lie within requested sets and hold no zone in FAULT or OFF; WAITING and FREE records hold no zone. The laws of the waiting queue and of the engines hold too, which other statements say of every step. -/
def Obligations.EveryStepKeepsTheClaimTable : Prop :=
  ∀ s t, WaitingQueueLaw s → EnginesAgree s → ClaimsAgree s → step s = .next t → ClaimsAgree t

/-- R76, R95, R106: an engine out of IDLE is bound to exactly one request, in GRANTED, ACTIVE or ENDING, and no request is bound to two engines; an engine is STOPPING exactly while its request is ENDING. The laws of the waiting queue and of the claim table hold too, which other statements say of every step. -/
def Obligations.EveryStepKeepsTheEngineLaw : Prop :=
  ∀ s t, WaitingQueueLaw s → ClaimsAgree s → EnginesAgree s → step s = .next t → EnginesAgree t

/-- R154, R170: each call trigger has at most one request in the request table, one exactly while it is FIRED, and a periodic entry names exactly the request that stands there for it. R156: the due list holds one entry for each PENDING NORMAL trigger of every SCHEDULED or OPEN call, at its fire time, and one for each present periodic entry, at its next due, and holds none twice. The laws of the waiting queue, of the claim table and of the engines hold too, which other statements say of every step. The list's order is kept by every placing, as long as the times compared lie in one half of the range of station times. -/
def Obligations.EveryStepKeepsTheScheduleLaws : Prop :=
  (∀ s t, WaitingQueueLaw s → ClaimsAgree s → EnginesAgree s → TriggersAgree s → DueListLaw s → step s = .next t →
    TriggersAgree t ∧ DueListLaw t) ∧
  (∀ (base : Time) (e : DueEntry) (l : List DueEntry), (∀ x ∈ e :: l, (x.time - base).toNat < 2147483648) →
    l.Pairwise (fun a b => dueBefore b a = false) → (dueInsert e l).Pairwise fun a b => dueBefore b a = false)

/-- R87: no WAITING request with a latest start has a latest start earlier than T, the one that the last tick end or step of the frame period has handed on or else the clock's (log 40): this is kept by every step. A tick end leaves none earlier than the new T. -/
def Obligations.EveryStepKeepsTheExpiryLaw : Prop :=
  (∀ s t, WaitingQueueLaw s → ExpiryLaw s → step s = .next t → ExpiryLaw t) ∧
  (∀ s t, WaitingQueueLaw s → s.period.tickTaken = false → s.stc.tickLength ≤ s.stc.phase + 1 →
    exec .tickEnd s = .next t → NoneLate (s.stc.time + 1) t)

/-- R117, R103: no command or event but power-on changes a sample of a bank whose use count is above zero, whatever FRAME_PERIOD takes with it. -/
def Obligations.AReferencedBankIsNeverWritten : Prop :=
  ∀ c s t, (∀ straps, c ≠ .powerOn straps) → exec c s = .next t →
    ∀ a, 0 < tget s.cmc.useCounts (bankOf a) → clipAt t.cmc a = clipAt s.cmc a

/-- R142, R136: but for the two resets and a TIME cell, station time either stands or goes on by one tick, modulo 2^32, and it goes on only with a frame period. -/
def Obligations.TimeMovesBackOnlyByAStep : Prop :=
  ∀ c s t, (∀ straps, c ≠ .powerOn straps) → (∀ straps, c ≠ .pinReset straps) → (∀ h r f, c ≠ .time h r f) →
    (∀ ws, s.ch.complete = some ws → ∀ h r f, decodeCell ws ≠ .command (.time h r f)) →
    exec c s = .next t →
    t.stc.time = s.stc.time ∨ (t.stc.time = s.stc.time + 1 ∧ c = .framePeriod .whole)

/-- The reset rules of each block: the machine after reset meets every law above. -/
def Obligations.ResetMeetsEveryLaw : Prop :=
  CellQueuesBounded State.reset ∧ LinkCountersBounded State.reset ∧ ClockInRange State.reset.stc ∧
  LinesConsistent State.reset ∧ MixerLegal State.reset ∧ TrackerLegal State.reset ∧ AmbientLanesUnique State.reset ∧
  ClipMemoryCanonical State.reset ∧ WaitingQueueLaw State.reset ∧ UseCountsAgree State.reset ∧ ClaimsAgree State.reset ∧
  EnginesAgree State.reset ∧ TriggersAgree State.reset ∧ DueListLaw State.reset ∧ ExpiryLaw State.reset ∧
  Settled State.reset

/-! ### Resets -/

/-- R185, R175, R116: power-on and pin reset leave every block as State.reset holds it, with the unit address read from the straps; the clip memory is what the DRAM holds after power-on, and keeps its contents at a pin reset. The defaults that the rules name are spelled out: DOWN (R3), last good samples 0 (R9), route entries and mix settings (R30, R33), ambient settings and gates (R50), OFF (R51), engines IDLE (R95), T 0 and status UNSET (R136, Table 8.1). R184, Table 10.3: UNIT_RESET empties both cell queues, clears EVENT_LOST, queues its one event and then its reply, and gives every block its reset effect: requests, claims, engines, use counts, duck coefficients, estimators and loads start again; links, lane roles, routes, settings, tables, clip memory, phrases, calls, clock and counters stand. -/
def Obligations.ThreeResetsGiveTheirStates : Prop :=
  (∀ straps s, ∃ t u, exec (.powerOn straps) s = .next t ∧ exec (.pinReset straps) s = .next u ∧
    (∀ a, clipAt u.cmc a = clipAt s.cmc a) ∧ t.cmc.memory = [] ∧ t.pending = s.pending ∧ u.pending = s.pending ∧
    ∀ v, v = t ∨ v = u →
      v.ch = ⟨straps, [], none, none, [], [], false, 0⟩ ∧ v.itp = State.reset.itp ∧ v.etp = State.reset.etp ∧
      v.zar = State.reset.zar ∧ v.tex = State.reset.tex ∧ v.stc = State.reset.stc ∧ v.csc = State.reset.csc ∧
      v.cmc.phrases = State.reset.cmc.phrases ∧ v.cmc.useCounts = State.reset.cmc.useCounts ∧
      v.period = State.reset.period ∧ v.work = State.reset.work ∧
      v.itp.link = .down ∧ (v.stc.time = 0 ∧ v.stc.phase = 0 ∧ v.stc.tickLength = 480 ∧ v.stc.status = .unset) ∧
      (∀ i, i < 40 → tget v.itp.lastGood i = 0 ∧ tget v.itp.roles i = .unused) ∧
      (∀ z, z < 48 → (∀ r, r < 4 → tget (tget v.zmx z).routes r = ⟨none, 0⟩) ∧
        (tget v.zmx z).trim = 16384 ∧ (tget v.zmx z).duckLevel = 16384 ∧ (tget v.zmx z).rampStep = 16384 ∧
        (tget v.zmx z).duck = 16384 ∧ (tget v.zmx z).saturation = 0 ∧
        tget v.amt z = ⟨0, 0, 0, 0, 16384, .open, 0, 0, 0, 16384, 512, 24000⟩ ∧
        tget v.zlc z = ⟨false, false, 0, 0, false, .off, 0, 0, 0, false⟩) ∧
      (∀ e, e < 6 → tget v.engines e = ⟨.idle, none, 0, none, 0, 0, 0, 0⟩)) ∧
  (∀ h s, Addressed h s → ∃ t items,
    exec (.unitReset h) s = .next (answered h 0xA3 .done items s t) ∧
    items = [f2 ((List.range 96).filter fun k => (request s k).state != .free).length,
      f2 ((List.range 6).filter fun e => (tget s.engines e).state != .idle).length, fBool s.ch.eventLost] ∧
    t.ch = { s.ch with replies := [], eventLost := false,
                       events := [⟨0x0D, 0, 0, s.stc.time, s.stc.phase, items⟩] } ∧
    t.itp = s.itp ∧ t.etp = s.etp ∧ t.stc = s.stc ∧ t.pending = s.pending ∧
    t.tex = { s.tex with load := none } ∧
    t.cmc.memory = s.cmc.memory ∧ t.cmc.powerCycle = s.cmc.powerCycle ∧ t.cmc.phrases = s.cmc.phrases ∧
    (∀ b, b < 64 → tget t.cmc.useCounts b = 0) ∧ t.zar = State.reset.zar ∧
    (∀ e, e < 6 → tget t.engines e = ⟨.idle, none, 0, none, 0, 0, 0, (tget s.engines e).output⟩) ∧
    (∀ z, z < 48 → tget t.zmx z = { tget s.zmx z with duck := 16384 } ∧
      tget t.amt z = { tget s.amt z with acc := 0, count := 0, level := 0, peak := 0, factor := 16384, gate := .open,
                                         release := 0 } ∧
      tget t.zlc z = { tget s.zlc z with
        wakeCount := 0, hangCount := 0,
        line := (if lineOf s z = .waking ∨ lineOf s z = .live ∨ lineOf s z = .hang then LineState.standby
          else lineOf s z) }) ∧
    t.csc.platforms = s.csc.platforms ∧ t.csc.plans = s.csc.plans ∧ t.csc.load = none ∧ t.csc.due = s.csc.due ∧
    (∀ k, k < 256 → tget t.csc.calls k = { tget s.csc.calls k with triggers := ((tget s.csc.calls k).triggers.map fun x =>
      if x.state = .fired then { x with state := .missed, handle := none } else x) }) ∧
    (∀ i, i < 16 → tget t.csc.periodics i = { tget s.csc.periodics i with previous := none }) ∧ Settled t)

/-! ### The frame period (Chapters 1 to 3, 6, 8) -/

/-- R14: at the first frame period of an egress cell period the slot arbiter takes the head of the reply queue, else the head of the event queue, else an idle cell with an all-zero payload (its header: log 27); the chosen cell leaves its queue, and nothing else changes. Inside a cell period nothing is chosen. -/
def Obligations.TheSlotServesRepliesBeforeEvents : Prop :=
  (∀ s r rest, s.etp.slot = 0 → s.etp.sending = none → s.ch.replies = r :: rest →
    exec .egressCellPeriod s =
      .next ((s.setEtp { s.etp with sending := some (replyWords s.ch.unitAddr r) }).setCh { s.ch with replies := rest })) ∧
  (∀ s e rest, s.etp.slot = 0 → s.etp.sending = none → s.ch.replies = [] → s.ch.events = e :: rest →
    exec .egressCellPeriod s =
      .next ((s.setEtp { s.etp with sending := some (eventWords s.ch.unitAddr e) }).setCh { s.ch with events := rest })) ∧
  (∀ s, s.etp.slot = 0 → s.etp.sending = none → s.ch.replies = [] → s.ch.events = [] →
    exec .egressCellPeriod s = .next (s.setEtp { s.etp with
      sending := some ((s.ch.unitAddr ++ (0 : BitVec 28)) :: List.replicate 11 0) })) ∧
  (∀ s, s.etp.slot ≠ 0 ∨ s.etp.sending ≠ none → exec .egressCellPeriod s = .next s)

/-- R2, R19, R52: the start work of a frame period, on the state as it stands there, comes before every event and every command taken in it, so that what they change is seen from the next period on; a row given before FRAME_PERIOD does it first (the model's choice of when a row falls, log 1). R12, R14: it builds one egress frame of 51 words: header with the cell-start flag in the first frame of a cell, 48 lane words with the samples of the mix, the service word of the cell going out, and the CRC word over the 50 words before it. The mixer, the tracker, the engines, the ports and the cell queues alone are touched. -/
def Obligations.TheStartOfAFramePeriod : Prop :=
  (∀ c s u, exec (.framePeriod .start) s = .next u →
    (c.withinPeriod = true ∨
      (∃ h code, c.command? = some (h, code) ∧ (h.addr = 15 ∨ h.addr = s.ch.unitAddr)) ∨
      (∃ h code, c = .unknownCommand h code ∧ commandCodes.contains code = false ∧ (h.addr = 15 ∨ h.addr = s.ch.unitAddr))) →
    exec c s = exec c u) ∧
  (∀ s, s.period.started = true → exec (.framePeriod .start) s = .next s) ∧
  (∀ s, s.period.started = false → ∃ t u, exec (.framePeriod .start) s = .next t ∧ exec .egressCellPeriod s = .next u ∧
    t.etp.frame.length = 51 ∧
    t.etp.frame.getD 0 0 = (if s.etp.slot = 0 then 0xC35A3080 else 0xC35A3000) ∧
    (∀ z, z < 48 → (t.etp.frame.getD (z + 1) 0).extractLsb' 8 24 = BitVec.ofInt 24 (mixZone s (playoutSample s) z).1) ∧
    t.etp.frame.getD 49 0 = (u.etp.sending.getD []).getD s.etp.slot 0 ∧
    t.etp.frame.getD 50 0 = checkValue (t.etp.frame.take 50) ∧
    t.etp.slot = s.etp.slot ∧ t.etp.sending = u.etp.sending ∧ t.ch = u.ch ∧ t.period = { s.period with started := true } ∧
    t.itp = s.itp ∧ t.zlc = s.zlc ∧ t.zar = s.zar ∧ t.cmc = s.cmc ∧ t.tex = s.tex ∧ t.stc = s.stc ∧ t.csc = s.csc ∧
    t.work = s.work ∧ t.free = s.free ∧ t.pending = s.pending)

/-- R13: the egress tag of a zone's lane word. WAKE is bit 7, HELD bit 6, CLASS bits 5 and 4, WIDTH16 bit 3 (Table 1.7). A zone in WAKING sends WAKE with a sample of 0, and a zone marked PENDING_JOIN sends HELD clear. -/
def Obligations.TheEgressTagReportsTheZone : Prop :=
  ∀ s z, s.period.started = false → z < 48 → ∃ t, exec (.framePeriod .start) s = .next t ∧
    ∀ w, w = t.etp.frame.getD (z + 1) 0 →
      (w.getLsbD 7 = true ↔ lineOf s z = .waking ∨ lineOf s z = .live ∨ lineOf s z = .hang) ∧
      (w.getLsbD 6 = true ↔ ∃ h, claim s z = .joined h) ∧
      (∀ h, claim s z = .joined h → (w.extractLsb' 4 2).toNat = (match (request s h).cls with
        | .evac => 0 | .live => 1 | .timed => 2 | .info => 3)) ∧
      ((∀ h, claim s z ≠ .joined h) → w.extractLsb' 4 2 = 0) ∧
      (w.getLsbD 3 = true ↔ (tget s.zlc z).width16 = true) ∧
      w.extractLsb' 0 3 = 0 ∧
      (lineOf s z = .waking → w.getLsbD 7 = true ∧ w.extractLsb' 8 24 = 0) ∧
      (∀ h, claim s z = .pendingJoin h → w.getLsbD 6 = false)

/-- R21, R22, R28: in every frame period, in every line state, the duck coefficient of each zone takes one ramp step toward its target, which follows the claim entry; the saturation counter adds the clamps that changed the zone's output and stops at 65535; routes and settings stay. -/
def Obligations.TheDuckTakesOneRampStep : Prop :=
  ∀ s z, s.period.started = false → z < 48 → ∃ t, exec (.framePeriod .start) s = .next t ∧
    ∀ m target, m = tget s.zmx z →
      target = (match claim s z with
        | .empty => 16384
        | .pendingJoin h | .joined h => if (request s h).cls = .evac then 0 else m.duckLevel) →
      ∀ d, d = (tget t.zmx z).duck →
        (max m.duck target - min m.duck target ≤ m.rampStep → d = target) ∧
        (m.duck + m.rampStep < target → d = m.duck + m.rampStep) ∧
        (target + m.rampStep < m.duck → d = m.duck - m.rampStep) ∧
        (m.duck ≤ 16384 → target ≤ 16384 → d ≤ 16384) ∧
        (tget t.zmx z).routes = m.routes ∧ (tget t.zmx z).trim = m.trim ∧ (tget t.zmx z).duckLevel = m.duckLevel ∧
        (tget t.zmx z).rampStep = m.rampStep ∧
        (tget t.zmx z).saturation = min 65535 (m.saturation + (mixZone s (playoutSample s) z).2)

/-- R8, Table 1.2: what an ingress lane delivers. A lane in role UNUSED or AMBIENT delivers 0 to programme routes and holder terms; in DOWN, and in LOST before the sixteenth good frame in a row, every lane delivers 0; after a good frame of SYNC a lane delivers its sample, or 0 with MUTE set; in a run of 1 to 3 bad or missing frames its last good sample, and from the fourth on 0. An ambient lane delivers the same to the tracker, which takes its magnitude (R39). -/
def Obligations.LanesDeliverTheirSamples : Prop :=
  (∀ s i, tget s.itp.roles i ≠ .source → sourceValue s i = 0) ∧
  (∀ s i, tget s.itp.roles i = .source → sourceValue s i = delivered s i) ∧
  (∀ s i, s.itp.link = .down ∨ (s.itp.link = .lost ∧ s.itp.goodRun ≠ 16) → delivered s i = 0) ∧
  (∀ s i, s.itp.link = .sync → delivered s i =
    (if s.itp.badRun ≤ 3 then (tget s.itp.lastGood i).toInt else 0)) ∧
  (∀ f s i, frameGood f = true → i < 40 → s.itp.link ≠ .lost ∨ s.itp.goodRun = 15 →
    ∃ t, exec (.ingressGoodFrame f) s = .next t ∧
      delivered t i = (if (f.lanes.getD i 0).getLsbD 7 then 0 else ((f.lanes.getD i 0).extractLsb' 8 24).toInt)) ∧
  (∀ f s i, frameGood f = false → i < 40 → s.itp.link = .sync →
    ∃ t, exec (.ingressBadFrame f) s = .next t ∧
      delivered t i = (if s.itp.badRun ≤ 2 then (tget s.itp.lastGood i).toInt else 0)) ∧
  (∀ s i, i < 40 → s.itp.link = .sync →
    ∃ t, exec .ingressMissingFrame s = .next t ∧
      delivered t i = (if s.itp.badRun ≤ 2 then (tget s.itp.lastGood i).toInt else 0))

/-- R19, R20, R23 to R27, R29: the mix of a zone, and its bounds. A zone that is not LIVE or HANG has sample 0. In LIVE and HANG the output is round14((round14(P × d) + A) × G), with P the sum of the four route terms, d the duck coefficient after its step, A the holder term and G the gain; a 24-bit zone's sample is the clamped output, a 16-bit zone's is narrowed to a multiple of 256, and the clamps that change it are counted. Within the ranges of its inputs no stage leaves the bounds of Table 2.3. -/
def Obligations.TheMixStaysInItsBounds : Prop :=
  (∀ s playout z, lineOf s z ≠ .live → lineOf s z ≠ .hang → mixZone s playout z = (0, 0)) ∧
  (∀ s playout z m p a g, lineOf s z = .live ∨ lineOf s z = .hang → m = tget s.zmx z →
    p = ((List.range 4).map fun r => match (tget m.routes r).lane with
      | none => 0
      | some i => (sourceValue s i * (tget m.routes r).coeff + 8192) / 16384).sum →
    (∀ h, claim s z = .joined h → a = (match (request s h).current with
      | .lane => sourceValue s (request s h).lane * (request s h).level + 8192
      | .engine => (match (request s h).engine with
        | some e => playout e
        | none => 0) * (request s h).level + 8192) / 16384) →
    ((∀ h, claim s z ≠ .joined h) → a = 0) →
    g = min 65535 (((m.trim : Int) * (tget s.amt z).factor + 8192) / 16384) →
    mixZone s playout z = finishSample (tget s.zlc z).width16
      ((((p * duckAfter s z + 8192) / 16384 + a) * g + 8192) / 16384)) ∧
  (∀ s m, (∀ r, r < 4 → (tget m.routes r).coeff ≤ 65535) → (programmeSum s m).natAbs ≤ 134215680) ∧
  (∀ s playout c, (∀ e, (playout e : Int).natAbs ≤ 8388608) → (∀ h, (request s h).level ≤ 65535) →
    (holderTerm s playout c).natAbs ≤ 33553920) ∧
  (∀ (p a : Int) (duck trim factor : Nat), p.natAbs ≤ 134215680 → a.natAbs ≤ 33553920 → duck ≤ 16384 →
    0 ≤ zoneGain trim factor ∧ zoneGain trim factor ≤ 65535 ∧
    (round14 (p * duck)).natAbs ≤ p.natAbs ∧ (round14 (p * duck) + a).natAbs ≤ 167769600 ∧
    (mixOutput p duck a (zoneGain trim factor)).natAbs ≤ 671078400) ∧
  (∀ (trim : Nat), trim ≤ 65535 → zoneGain trim 16384 = trim) ∧
  (∀ y : Int, -8388608 ≤ y → y ≤ 8388607 → finishSample false y = (y, 0)) ∧
  (∀ y : Int, 8388607 < y → finishSample false y = (8388607, 1)) ∧
  (∀ y : Int, y < -8388608 → finishSample false y = (-8388608, 1)) ∧
  (∀ y : Int, -8388608 ≤ y → y < 8388480 → finishSample true y = ((y + 128) / 256 * 256, 0)) ∧
  (∀ y : Int, 8388480 ≤ y → y ≤ 8388607 → finishSample true y = (8388352, 1)) ∧
  (∀ y : Int, 8388607 < y → finishSample true y = (8388352, 2)) ∧
  (∀ y : Int, y < -8388608 → finishSample true y = (-8388608, 1))

/-- R39, R42, R44: the gate of every zone follows its claim entry at the start of the frame period, and a zone with an ambient lane takes one sample when its gate is OPEN and the frame period is one of SYNC; otherwise accumulator and window count are held. Level, peak, factor and settings stay. R40, R41: a window end that is due sets level, peak and factor of its zone and begins a new window; the factor moves by at most the step toward the target of the new level. R42: a release hold that has run out returns the gate to OPEN at the start of a frame period. Nothing else changes, and an end that is not due does not happen (log 2). -/
def Obligations.TheTrackerGatesSamplesAndEndsWindows : Prop :=
  (∀ s z, s.period.started = false → z < 48 → ∃ t, exec (.framePeriod .start) s = .next t ∧
    ∀ a b, a = tget s.amt z → b = tget t.amt z →
      (∀ h, claim s z = .joined h → b.gate = .holder ∧ b.release = a.hold) ∧
      ((∀ h, claim s z ≠ .joined h) → 0 < a.release → b.gate = .release ∧ b.release = a.release - 1) ∧
      ((∀ h, claim s z ≠ .joined h) → a.release = 0 → b.gate = .open ∧ b.release = 0) ∧
      (∀ i, ambientLane s z = some i → b.gate = .open → syncPeriod s = true →
        b.acc = a.acc + (delivered s i).natAbs ∧ b.count = a.count + 1) ∧
      (ambientLane s z = none ∨ b.gate ≠ .open ∨ syncPeriod s = false → b.acc = a.acc ∧ b.count = a.count) ∧
      b.level = a.level ∧ b.peak = a.peak ∧ b.factor = a.factor ∧ b.threshold = a.threshold ∧ b.slope = a.slope ∧
      b.factorMax = a.factorMax ∧ b.step = a.step ∧ b.hold = a.hold) ∧
  (∀ s z a target, s.period.started = true → z < 48 → a = tget s.amt z → 4800 ≤ a.count →
    target = min a.factorMax (16384 + a.slope * (a.acc / 4800 - a.threshold) / 65536) →
    ∃ f, exec (.windowEnd z) s =
        .next ((s.setAmt (tset s.amt z { a with
            acc := 0, count := 0, level := a.acc / 4800, peak := max a.peak (a.acc / 4800), factor := f })).setPeriod
          { s.period with windowEnded := s.period.windowEnded ||| zone1 z }) ∧
      (max a.factor target - min a.factor target ≤ a.step → f = target) ∧
      (a.factor + a.step < target → f = a.factor + a.step) ∧
      (target + a.step < a.factor → f = a.factor - a.step)) ∧
  (∀ s z, s.period.started = true → z < 48 → (tget s.amt z).count < 4800 → exec (.windowEnd z) s = .next s) ∧
  (∀ s z, z < 48 → s.period.started = false → (tget s.amt z).gate = .release → (tget s.amt z).release = 0 →
    (∀ h, claim s z ≠ .joined h) →
    exec (.releaseHoldEnd z) s = .next (s.setAmt (tset s.amt z { tget s.amt z with gate := .open }))) ∧
  (∀ s z, z < 48 → (tget s.amt z).gate ≠ .release ∨ 0 < (tget s.amt z).release → exec (.releaseHoldEnd z) s = .next s)

/-- R96, R100 to R102, R107: the sample of an engine in a frame period, and its place in its list after it. IDLE and PREROLL output 0; PLAYING outputs the clip's samples times 256 with floored midpoints between them, the last one held, and 0 in a pause; STOPPING outputs the base sample by a fade that has first lost one of its sixty-fourths, passes from one fragment to the next without a boundary, and stays at the end of the last one, where its base sample is 0. -/
def Obligations.AnEnginePlaysItsList : Prop :=
  ∀ s e, s.period.started = false → e < 6 → ∃ t, exec (.framePeriod .start) s = .next t ∧
    ∀ x y, x = tget s.engines e → y = tget t.engines e →
      (x.state = .idle ∨ x.state = .preroll → y = { x with output := 0 }) ∧
      (∀ i h start length, x.state = .playing → x.handle = some h → x.fragment = some i →
        (request s h).fragments[i]? = some (.clip start length) → x.position < 2 * length →
        y = { x with
          position := x.position + 1
          output := BitVec.ofInt 24 (
            if x.position % 2 = 0 ∨ x.position / 2 + 1 = length then (clipAt s.cmc (start + x.position / 2)).toInt * 256
            else ((clipAt s.cmc (start + x.position / 2)).toInt +
              (clipAt s.cmc (start + x.position / 2 + 1)).toInt) / 2 * 256) }) ∧
      (∀ i h n, x.state = .playing → x.handle = some h → x.fragment = some i →
        (request s h).fragments[i]? = some (.pause n) → x.position < n →
        y = { x with position := x.position + 1, output := 0 }) ∧
      (∀ i h f, x.state = .stopping → x.handle = some h → x.fragment = some i → (request s h).fragments[i]? = some f →
        x.position < fragmentFrames f → 0 < x.fade →
        y.state = .stopping ∧ y.handle = some h ∧ y.loops = x.loops ∧ y.fade = x.fade - 1 ∧
        y.output = BitVec.ofInt 24 (fragmentSample s.cmc f x.position * ((x.fade - 1 : Nat) : Int) / 64) ∧
        (x.position + 1 < fragmentFrames f → y.fragment = some i ∧ y.position = x.position + 1) ∧
        (x.position + 1 = fragmentFrames f → i + 1 < (request s h).fragments.length →
          y.fragment = some (i + 1) ∧ y.position = 0) ∧
        (x.position + 1 = fragmentFrames f → i + 1 = (request s h).fragments.length →
          y.fragment = some i ∧ y.position = fragmentFrames f)) ∧
      (∀ i h f g, x.state = .stopping → x.handle = some h → x.fragment = some i → (request s h).fragments[i]? = some f →
        fragmentFrames f ≤ x.position → (request s h).fragments[i + 1]? = some g → 1 < fragmentFrames g → 0 < x.fade →
        y = { x with
          fragment := some (i + 1), position := 1, fade := x.fade - 1
          output := BitVec.ofInt 24 (fragmentSample s.cmc g 0 * ((x.fade - 1 : Nat) : Int) / 64) }) ∧
      (∀ i h f, x.state = .stopping → x.handle = some h → x.fragment = some i → (request s h).fragments[i]? = some f →
        x.position = fragmentFrames f → i + 1 = (request s h).fragments.length → 0 < x.fade →
        y = { x with fade := x.fade - 1, output := 0 }) ∧
      (x.state = .stopping → x.fragment = none → 0 < x.fade → y = { x with fade := x.fade - 1, output := 0 })

/-- R136, R137, R14: at the end of every frame period the phase increases by 1, or T by 1 with phase 0 when the tick is over, and the tick that begins takes its length from the slew remainder; the egress cell period goes on by one frame. The frame period takes no cell here. R138, R58, R144: TICK_END, where it is due. The hang count of every zone in HANG loses 1 (stopping at 0), the holdover count adds 1 in LOCKED up to its limit; the tick end hands on the new T, while T and phase go on only with the frame period. The rest is the arbiter's and the scheduler's, and the zones whose holder they change are noted for the line tests (log 39). In time status UNSET with an empty waiting queue nothing else is touched but the talk counts, which lose 1 (R88, R171). A tick end that is not due does not happen (log 2). -/
def Obligations.TheClockAdvancesAndATickEndCounts : Prop :=
  (∀ s, s.ch.complete = none → ∃ t, exec (.framePeriod .whole) s = .next t ∧
    (s.stc.phase + 1 < s.stc.tickLength →
      t.stc.time = s.stc.time ∧ t.stc.phase = s.stc.phase + 1 ∧ t.stc.tickLength = s.stc.tickLength ∧
      t.stc.slew = s.stc.slew) ∧
    (s.stc.tickLength ≤ s.stc.phase + 1 →
      t.stc.time = s.stc.time + 1 ∧ t.stc.phase = 0 ∧
      (0 < s.stc.slew → t.stc.tickLength = 479 ∧ t.stc.slew = s.stc.slew - 1) ∧
      (s.stc.slew < 0 → t.stc.tickLength = 481 ∧ t.stc.slew = s.stc.slew + 1) ∧
      (s.stc.slew = 0 → t.stc.tickLength = 480 ∧ t.stc.slew = 0)) ∧
    t.stc.slewWindow = s.stc.slewWindow ∧ t.stc.holdoverLimit = s.stc.holdoverLimit ∧
    t.etp.slot = (s.etp.slot + 1) % 12 ∧ t.period = newPeriod) ∧
  (∀ s, s.period.started = true → s.period.tickTaken = false → s.stc.tickLength ≤ s.stc.phase + 1 →
    ∃ t, exec .tickEnd s = .next t ∧
    (∀ z, z < 48 → tget t.zlc z = { tget s.zlc z with
      hangCount := if lineOf s z = .hang then (tget s.zlc z).hangCount - 1 else (tget s.zlc z).hangCount }) ∧
    t.stc = { s.stc with holdoverCount := (if s.stc.status = .locked then
      min (100 * s.stc.holdoverLimit) (s.stc.holdoverCount + 1) else s.stc.holdoverCount) } ∧
    (∀ z, z < 48 → (zmem t.period.tickZones z = true ↔
      zmem s.period.tickZones z = true ∨ claimHandle (claim s z) ≠ claimHandle (claim t z))) ∧
    ActFrame (((s.setZlc t.zlc).setStc t.stc).setPeriod { s.period with
      tickTaken := true, tick := some (s.stc.time + 1), handed := some (s.stc.time + 1), tickZones := t.period.tickZones }) t) ∧
  (∀ s, s.period.started = true → s.period.tickTaken = false → s.stc.tickLength ≤ s.stc.phase + 1 →
    s.stc.status = .unset → s.zar.queue = [] → ∃ t, exec .tickEnd s = .next t ∧
      t = ((s.setZlc t.zlc).setZar { s.zar with requests := t.zar.requests }).setPeriod { s.period with
        tickTaken := true, tick := some (s.stc.time + 1), handed := some (s.stc.time + 1) } ∧
      ∀ h, h < 96 → request t h = { request s h with talkCount :=
        (if (request s h).live = true ∧ ((request s h).state = .granted ∨ (request s h).state = .active)
        then (request s h).talkCount.map (· - 1) else (request s h).talkCount) }) ∧
  (∀ s, s.period.started = true → s.period.tickTaken = true ∨ s.stc.phase + 1 < s.stc.tickLength →
    exec .tickEnd s = .next s)

/-! ### The trunk (Chapter 1) -/

/-- R9: every good frame writes every lane's last good sample, 0 for a lane with MUTE set, in every link state and whatever the lane's role; bad and missing frames leave them; both resets set them to 0, and UNIT_RESET keeps them. -/
def Obligations.LastGoodSamplesFollowGoodFrames : Prop :=
  (∀ f s, frameGood f = true → ∃ t, exec (.ingressGoodFrame f) s = .next t ∧
    ∀ i, i < 40 → tget t.itp.lastGood i =
      (if (f.lanes.getD i 0).getLsbD 7 then 0 else (f.lanes.getD i 0).extractLsb' 8 24)) ∧
  (∀ f s, frameGood f = false → ∃ t, exec (.ingressBadFrame f) s = .next t ∧ t.itp.lastGood = s.itp.lastGood) ∧
  (∀ s, ∃ t, exec .ingressMissingFrame s = .next t ∧ t.itp.lastGood = s.itp.lastGood) ∧
  (∀ straps s, ∃ t u, exec (.powerOn straps) s = .next t ∧ exec (.pinReset straps) s = .next u ∧
    ∀ i, i < 40 → tget t.itp.lastGood i = 0 ∧ tget u.itp.lastGood i = 0) ∧
  (∀ h s, ∃ t, exec (.unitReset h) s = .next t ∧ t.itp.lastGood = s.itp.lastGood)

/-- R7, R4, R5, R16: the CRC error counter adds 1 for each bad frame in any link state, the missing frame counter for each missing frame of SYNC or LOST, each stopping at 65535. In SYNC the bad run adds 1; in LOST the good run returns to 0; a partial cell is discarded and counted, and without one the assembly stands. A missing frame exists only where a frame is expected (R1). Nothing else changes but for the slot arbiter's choice, which is made first where the cell period begins (R14). -/
def Obligations.DamagedFramesAreCounted : Prop :=
  (∀ f s, headerFound f = true → frameGood f = false → s.itp.link = .down →
    ∃ u, exec .egressCellPeriod s = .next u ∧
      exec (.ingressBadFrame f) s = .next (u.setItp { s.itp with crcErrors := min 65535 (s.itp.crcErrors + 1) })) ∧
  (∀ f s, headerFound f = true → frameGood f = false → s.itp.link = .sync ∨ s.itp.link = .lost →
    ∃ u, exec .egressCellPeriod s = .next u ∧ exec (.ingressBadFrame f) s = .next ((u.setItp { s.itp with
        crcErrors := min 65535 (s.itp.crcErrors + 1)
        badRun := if s.itp.link = .sync then min 48 (s.itp.badRun + 1) else s.itp.badRun
        goodRun := if s.itp.link = .lost then 0 else s.itp.goodRun }).setCh
      (if s.ch.words = [] then u.ch
       else { u.ch with words := [], capture := none, discards := min 65535 (s.ch.discards + 1) }))) ∧
  (∀ s, s.itp.link = .sync ∨ (s.itp.link = .lost ∧ s.itp.expecting = true) →
    ∃ u, exec .egressCellPeriod s = .next u ∧ exec .ingressMissingFrame s = .next ((u.setItp { s.itp with
        missing := min 65535 (s.itp.missing + 1)
        badRun := if s.itp.link = .sync then min 48 (s.itp.badRun + 1) else s.itp.badRun
        goodRun := if s.itp.link = .lost then 0 else s.itp.goodRun
        expecting := if s.itp.link = .lost then false else s.itp.expecting }).setCh
      (if s.ch.words = [] then u.ch
       else { u.ch with words := [], capture := none, discards := min 65535 (s.ch.discards + 1) }))) ∧
  (∀ s, s.itp.link = .down ∨ (s.itp.link = .lost ∧ s.itp.expecting = false) →
    ∃ u, exec .egressCellPeriod s = .next u ∧ exec .ingressMissingFrame s = .next u)

/-- R3, R4, R5, R6, R15, R140: a good frame of SYNC clears the bad run and its service word goes into the cell assembly; the first good frame in DOWN makes the link SYNC with LINK_STATE, and the sixteenth of LOST is already taken as a frame of SYNC. The twelfth word completes a cell; the first captures the T and phase that blocks read in the frame period. The slot arbiter's choice is made first where the cell period begins (R14). -/
def Obligations.GoodFramesMakeSyncAndCells : Prop :=
  (∀ f s, frameGood f = true → s.itp.link = .sync →
    ∃ u t, exec .egressCellPeriod s = .next u ∧ exec (.ingressGoodFrame f) s = .next t ∧
    t.itp = { s.itp with badRun := 0, lastGood := t.itp.lastGood } ∧
    (cellStart f = true → s.ch.words = [] →
      t.ch = { u.ch with words := [f.service], capture := some (now s) }) ∧
    (cellStart f = true → s.ch.words ≠ [] →
      t.ch = { u.ch with words := [f.service], capture := some (now s), discards := min 65535 (s.ch.discards + 1) }) ∧
    (cellStart f = false → s.ch.words = [] → t.ch = u.ch) ∧
    (cellStart f = false → s.ch.words ≠ [] → s.ch.words.length ≠ 11 →
      t.ch = { u.ch with words := s.ch.words ++ [f.service] }) ∧
    (cellStart f = false → s.ch.words.length = 11 →
      t.ch = { u.ch with words := [], complete := some (s.ch.words ++ [f.service]) }) ∧
    t = (u.setItp t.itp).setCh t.ch) ∧
  (∀ f s, frameGood f = true → s.itp.link = .down → s.ch.events.length < 32 → s.ch.words = [] → cellStart f = false →
    ∃ u t, exec .egressCellPeriod s = .next u ∧ exec (.ingressGoodFrame f) s = .next t ∧
      t.itp = { s.itp with link := .sync, badRun := 0, lastGood := t.itp.lastGood } ∧
      t.ch = { u.ch with events := u.ch.events ++
        [⟨0x01, 1, 0, s.stc.time, s.stc.phase, [.b1 0, .b2 (BitVec.ofNat 16 s.itp.badRun)]⟩] } ∧
      t = (u.setItp t.itp).setCh t.ch) ∧
  (∀ f s, frameGood f = true → s.itp.link = .lost → s.ch.words = [] → cellStart f = true → s.itp.goodRun ≤ 15 →
    ∃ u t, exec .egressCellPeriod s = .next u ∧ exec (.ingressGoodFrame f) s = .next t ∧
      t.itp = { s.itp with goodRun := s.itp.goodRun + 1, expecting := true, lastGood := t.itp.lastGood } ∧
      t.ch = (if s.itp.goodRun = 15 then { u.ch with words := [f.service], capture := some (now s) } else u.ch) ∧
      t = (u.setItp t.itp).setCh t.ch)

/-- R4, R6, R89: when the bad run of SYNC has reached 48 the link is LOST, LINK_STATE is queued first, and no GRANTED or ACTIVE request keeps a LIVE source. Every one of them is ended with cause SOURCE_LOST: one still in its chime is ENDING with that outcome, any other ends at once, with its ANNOUNCE_ENDED where the event queue has room for all of them; that no pass comes between these ends is the model's reading (log 5). R5, R6: when the good run of LOST has reached 16 the link is SYNC with both runs 0 and LINK_STATE, whose bad-run count is the one before the clearing (the model's reading, log 16). Everything else changes by the actions of the arbiter and the scheduler alone. A loss or a recovery that is not due does not happen (the model's choice, log 2). -/
def Obligations.TheLinkIsLostAndRecovered : Prop :=
  (∀ s, s.period.started = true → s.itp.link = .sync → 48 ≤ s.itp.badRun → ∃ t, exec .linkLost s = .next t ∧
    ActFrame (s.setItp { s.itp with link := .lost, goodRun := 0, expecting := false }) t ∧
    (s.ch.events.length < 32 → (s.ch.events ++
      [⟨0x01, 2, 0, s.stc.time, s.stc.phase, [.b1 1, .b2 (BitVec.ofNat 16 s.itp.badRun)]⟩]) <+: t.ch.events) ∧
    (∀ h, h < 96 → (request t h).live = true → (request t h).state ≠ .granted ∧ (request t h).state ≠ .active)) ∧
  (∀ s n, s.period.started = true → s.itp.link = .sync → 48 ≤ s.itp.badRun → Settled s →
    (∀ k, k < 96 → (request s k).live = true → ∃ tag, (request s k).origin = .external tag) →
    n = ((List.range 96).filter fun k => liveHolder (request s k) && (request s k).current == .lane).length →
    ∃ t, exec .linkLost s = .next t ∧ ∀ h r, h < 96 → r = request s h → r.live = true →
      r.state = .granted ∨ r.state = .active →
      (r.current = .engine → (request t h).state = .ending ∧ (request t h).ending = .ends .sourceLost) ∧
      (r.current = .lane → request t h = freeRequest ∧ (s.ch.events.length + 1 + n ≤ 32 →
        ∃ d, ⟨0x04, 6, BitVec.ofNat 16 h, s.stc.time, s.stc.phase, f1 (originKind r.origin) :: d⟩ ∈ t.ch.events))) ∧
  (∀ s, s.period.started = true → s.itp.link = .lost → 16 ≤ s.itp.goodRun → ∃ t, exec .linkRecovered s = .next t ∧
    ActFrame (s.setItp { s.itp with link := .sync, badRun := 0, goodRun := 0, expecting := false }) t ∧
    (s.ch.events.length < 32 → (s.ch.events ++
      [⟨0x01, 1, 0, s.stc.time, s.stc.phase, [.b1 2, .b2 (BitVec.ofNat 16 s.itp.badRun)]⟩]) <+: t.ch.events)) ∧
  (∀ s, s.period.started = true → s.itp.link ≠ .sync ∨ s.itp.badRun < 48 → exec .linkLost s = .next s) ∧
  (∀ s, s.period.started = true → s.itp.link ≠ .lost ∨ s.itp.goodRun < 16 → exec .linkRecovered s = .next s)

/-! ### Lanes, routes, mixes and ambient settings (Chapters 1 to 3) -/

/-- R10, R11: LANE_SET. The checks give BADARG and then STATE. An accepted one writes the entry, keeps one ambient lane to a zone, clears the estimator of each zone whose ambient lane is different after the write, and of no other, and reports the displaced lane and the released zone. R31, R32: ROUTE_SET writes lane and coefficient of one entry together and reports the zone's route part of the programme-awake condition. R34: ZONE_MIX_SET writes the three mix settings together. Both reply with what was written and what was held before, and change nothing else; fields out of range are refused with BADARG. The duck coefficient in the reply of ZONE_MIX_SET is the one after its step of the frame period, since the start work comes before a command (log 1, log 3). -/
def Obligations.LaneRouteAndMixSettingsAreWritten : Prop :=
  (∀ h lane role zone s, Addressed h s → lane.toNat > 39 ∨ role.toNat > 2 ∨ (role.toNat = 2 ∧ zone.toNat > 47) →
    exec (.laneSet h lane role zone) s = .next (refusedBy h 0x11 .badarg s)) ∧
  (∀ h lane role zone s k, Addressed h s → lane.toNat ≤ 39 → role.toNat ≤ 2 → (role.toNat = 2 → zone.toNat ≤ 47) →
    k < 96 → (request s k).state ≠ .free → (request s k).live = true → (request s k).lane = lane.toNat →
    exec (.laneSet h lane role zone) s = .next (refusedBy h 0x11 .state s)) ∧
  (∀ h lane role zone s new, Addressed h s → AmbientLanesUnique s →
    lane.toNat ≤ 39 → role.toNat ≤ 2 → (role.toNat = 2 → zone.toNat ≤ 47) →
    (∀ k, k < 96 → (request s k).state ≠ .free → (request s k).live = true → (request s k).lane ≠ lane.toNat) →
    new = (if role.toNat = 0 then LaneRole.unused else if role.toNat = 1 then .source else .ambient zone.toNat) →
    ∃ t displaced released,
      exec (.laneSet h lane role zone) s = .next (answered h 0x11 .done
        [.b1 lane, .b1 role, .b1 (if role.toNat = 2 then zone else 0xFF), f1? displaced, f1? released] s t) ∧
      t = (s.setItp { s.itp with roles := t.itp.roles }).setAmt t.amt ∧
      tget t.itp.roles lane.toNat = new ∧
      (∀ j, j < 40 → j ≠ lane.toNat → tget t.itp.roles j =
        if role.toNat = 2 ∧ tget s.itp.roles j = .ambient zone.toNat then .unused else tget s.itp.roles j) ∧
      (∀ z, z < 48 → tget t.amt z =
        if ambientLane t z = ambientLane s z then tget s.amt z
        else { tget s.amt z with acc := 0, count := 0, level := 0, peak := 0, factor := 16384 }) ∧
      (∀ j, displaced = some j ↔
        role.toNat = 2 ∧ j < 40 ∧ j ≠ lane.toNat ∧ tget s.itp.roles j = .ambient zone.toNat) ∧
      (∀ y, released = some y ↔ tget s.itp.roles lane.toNat = .ambient y ∧ ¬(role.toNat = 2 ∧ y = zone.toNat))) ∧
  (∀ h zone route lane coeff s, Addressed h s →
    zone.toNat > 47 ∨ route.toNat > 3 ∨ (lane.toNat > 39 ∧ lane.toNat ≠ 255) →
    exec (.routeSet h zone route lane coeff) s = .next (refusedBy h 0x21 .badarg s)) ∧
  (∀ h zone route lane coeff s old, Addressed h s → zone.toNat ≤ 47 → route.toNat ≤ 3 →
    lane.toNat ≤ 39 ∨ lane.toNat = 255 → old = tget (tget s.zmx zone.toNat).routes route.toNat →
    ∃ t, exec (.routeSet h zone route lane coeff) s = .next (answered h 0x21 .done
        [.b1 zone, .b1 route, .b1 lane, .b2 coeff, f1? old.lane, f2 old.coeff] s t) ∧
      t = (s.setZmx t.zmx).setZlc t.zlc ∧
      (∀ z r, z < 48 → r < 4 → tget (tget t.zmx z).routes r =
        if z = zone.toNat ∧ r = route.toNat then ⟨if lane.toNat = 255 then none else some lane.toNat, coeff.toNat⟩
        else tget (tget s.zmx z).routes r) ∧
      (∀ z, z < 48 → tget t.zmx z = { tget s.zmx z with routes := (tget t.zmx z).routes }) ∧
      (∀ z, z < 48 → z ≠ zone.toNat → tget t.zlc z = tget s.zlc z) ∧
      tget t.zlc zone.toNat = { tget s.zlc zone.toNat with routeLive := decide (∃ r : Fin 4,
        (tget (tget t.zmx zone.toNat).routes r).lane ≠ none ∧ (tget (tget t.zmx zone.toNat).routes r).coeff ≠ 0) }) ∧
  (∀ h zone trim duckLevel rampStep s, Addressed h s →
    zone.toNat > 47 ∨ duckLevel.toNat > 16384 ∨ rampStep.toNat = 0 ∨ rampStep.toNat > 16384 →
    exec (.zoneMixSet h zone trim duckLevel rampStep) s = .next (refusedBy h 0x22 .badarg s)) ∧
  (∀ h zone trim duckLevel rampStep s m, Addressed h s → zone.toNat ≤ 47 → duckLevel.toNat ≤ 16384 →
    1 ≤ rampStep.toNat → rampStep.toNat ≤ 16384 → m = tget s.zmx zone.toNat →
    exec (.zoneMixSet h zone trim duckLevel rampStep) s = .next (answered h 0x22 .done
      [.b1 zone, .b2 trim, .b2 duckLevel, .b2 rampStep, f2 m.trim, f2 m.duckLevel, f2 m.rampStep, f2 m.duck] s
      (s.setZmx (tset s.zmx zone.toNat
        { m with trim := trim.toNat, duckLevel := duckLevel.toNat, rampStep := rampStep.toNat }))))

/-- R47, R48, R46: AMBIENT_SET writes the five settings. Without KEEP it clears the estimator; with KEEP it lowers the factor to the new maximum at once when it lies above it, and leaves the measurement. Gate and release count stay. A window end that falls in the frame period uses the settings held before (R48, log 2), so none is due here. -/
def Obligations.AmbientSetWritesTheSettings : Prop :=
  (∀ h zone flags threshold slope ambMax stepMax hold s, Addressed h s →
    zone.toNat > 47 ∨ flags.toNat > 1 ∨ threshold.toNat > 8388608 ∨ ambMax.toNat < 16384 ∨ stepMax.toNat = 0 →
    exec (.ambientSet h zone flags threshold slope ambMax stepMax hold) s = .next (refusedBy h 0x31 .badarg s)) ∧
  (∀ h zone flags threshold slope ambMax stepMax hold s a b, Addressed h s →
    zone.toNat ≤ 47 → flags.toNat ≤ 1 → threshold.toNat ≤ 8388608 → 16384 ≤ ambMax.toNat → stepMax.toNat ≠ 0 →
    a = tget s.amt zone.toNat → a.count < 4800 →
    b = { a with threshold := threshold.toNat, slope := slope.toNat, factorMax := ambMax.toNat, step := stepMax.toNat,
                 hold := hold.toNat,
                 acc := if flags = 1 then a.acc else 0, count := if flags = 1 then a.count else 0,
                 level := if flags = 1 then a.level else 0, peak := if flags = 1 then a.peak else 0,
                 factor := if flags = 1 then min a.factor ambMax.toNat else 16384 } →
    exec (.ambientSet h zone flags threshold slope ambMax stepMax hold) s = .next (answered h 0x31 .done
      [.b1 zone, f1? (ambientLane s zone.toNat), .b4 threshold, .b2 slope, .b2 ambMax, .b2 stepMax, .b2 hold, .b1 flags,
       f2 b.factor, f4 b.level, f4 b.peak] s (s.setAmt (tset s.amt zone.toNat b))))

/-! ### Zone lines (Chapter 4) -/

/-- R53, R56, R58, R64, R65: the rows WAKE_END and HANG_END hold their zone's end for the end of the frame period, where the timed tests of R53 find what the commands, grants and ends of the period have left, whichever came first (log 8); an end that is not due does not happen (log 2). Made there, a wake end puts its zone into LIVE, and a PENDING_JOIN holder with current source LANE joins (R79); a hang end of a zone that nothing wants puts it into STANDBY and raises ZONE_STATE with reason HANG_END, stamped with the new T and phase 0 (R138, R178). -/
def Obligations.WakeEndsAndHangEnds : Prop :=
  (∀ s z, s.period.started = true → z < 48 → zmem s.period.tested z = false →
    (lineOf s z = .waking → (tget s.zlc z).wakeCount ≤ 1 → z ∉ s.period.heldWakes →
      exec (.wakeEnd z) s = .next (s.setPeriod { s.period with heldWakes := s.period.heldWakes ++ [z] })) ∧
    (lineOf s z = .hang → (tget s.zlc z).hangCount = 0 → s.period.tick ≠ none → z ∉ s.period.heldHangs →
      exec (.hangEnd z) s = .next (s.setPeriod { s.period with heldHangs := s.period.heldHangs ++ [z] }))) ∧
  (∀ s z, s.period.started = true →
    zmem s.period.tested z = true ∨ lineOf s z ≠ .waking ∨ 2 ≤ (tget s.zlc z).wakeCount ∨ z ∈ s.period.heldWakes →
    exec (.wakeEnd z) s = .next s) ∧
  (∀ s z, s.period.started = true →
    zmem s.period.tested z = true ∨ lineOf s z ≠ .hang ∨ 0 < (tget s.zlc z).hangCount ∨ s.period.tick = none ∨
      z ∈ s.period.heldHangs →
    exec (.hangEnd z) s = .next s) ∧
  (∀ s z l t, z < 48 → l = tget s.zlc z → l.line = .waking → l.wakeCount ≤ 1 → zmem s.period.tested z = false →
    t = Machine.wakeEnd z s →
    ActFrame ((s.setZlc (tset s.zlc z { l with line := .live, wakeCount := 0, hangCount := 0 })).setPeriod
      { s.period with tested := s.period.tested ||| zone1 z }) t ∧
    (∀ k, claim s z = .pendingJoin k → (request s k).current = .lane →
      (request s k).state = .granted ∨ (request s k).state = .active → Settled s →
      (∀ e, e < 6 → zmem (tget s.engines e).waitSet z = false) → claim t z = .joined k) ∧
    (claim s z = .empty → Settled s → (∀ e, e < 6 → zmem (tget s.engines e).waitSet z = false) → claim t z = .empty)) ∧
  (∀ s z l T, z < 48 → l = tget s.zlc z → l.line = .hang → l.hangCount = 0 → s.period.tick = some T →
    claim s z = .empty → (l.keepAwake = false ∨ l.routeLive = false) → zmem s.period.tested z = false →
    s.ch.events.length < 32 →
    Machine.hangEnd z s = ((s.setZlc (tset s.zlc z { l with line := .standby })).setPeriod
        { s.period with tested := s.period.tested ||| zone1 z }).setCh
      { s.ch with events := s.ch.events ++ [⟨0x02, 1, BitVec.ofNat 16 z, T, 0, [.b1 4, .b1 3, .b1 0]⟩] })

/-- R53 to R58, R65: the timed test that the end of a frame period makes of each zone, by the claim table and the settings as they stand when the tests are made; the frame period takes no cell here. A STANDBY zone that is wanted, by a holder or by being programme-awake (R54), wakes, with its peak cleared (R45): into WAKING with its pre-roll, or into LIVE with a pre-roll of 0. A wake count loses 1, and at 0 the zone is LIVE. A LIVE zone that nothing wants enters HANG with its hang, or STANDBY with a hang of 0 and ZONE_STATE. A wanted zone in HANG is LIVE, and one that nothing wants enters STANDBY at the tick end at which its hang count is 0. OFF and FAULT stand, and a zone makes one timed transition in a frame period. The stamp of a ZONE_STATE in a frame period with a tick end is log 39's. -/
def Obligations.TheFramePeriodMakesTheLineTests : Prop :=
  ∀ s z l, s.ch.complete = none → s.period.started = true → z < 48 → l = tget s.zlc z →
    ∃ t, exec (.framePeriod .whole) s = .next t ∧
    (zmem s.period.tested z = true → (tget t.zlc z).line = l.line) ∧
    (l.line = .off ∨ l.line = .fault → tget t.zlc z = l) ∧
    (zmem s.period.tested z = false → ∀ wanted tickEnds count,
      (wanted = true ↔ claim t z ≠ .empty ∨ (l.keepAwake = true ∧ l.routeLive = true)) →
      (tickEnds = true ↔ s.period.tickTaken = false ∧ s.stc.tickLength ≤ s.stc.phase + 1) →
      count = (if tickEnds then l.hangCount - 1 else l.hangCount) →
      (l.line = .standby → 1 ≤ l.preroll →
        tget t.zlc z = (if wanted then { l with line := .waking, wakeCount := l.preroll } else l)) ∧
      (l.line = .standby → l.preroll = 0 → wanted = true →
        tget t.zlc z = { l with line := .live, wakeCount := 0, hangCount := 0 }) ∧
      (l.line = .standby → l.preroll = 0 → tget t.zlc z = l ∨
        tget t.zlc z = { l with line := .live, wakeCount := 0, hangCount := 0 }) ∧
      (l.line = .standby → (tget t.zlc z).line ≠ .standby → (tget s.amt z).count < 4800 →
        zmem s.period.windowEnded z = false → (tget t.amt z).peak = 0) ∧
      (l.line = .waking → 2 ≤ l.wakeCount → tget t.zlc z = { l with wakeCount := l.wakeCount - 1 }) ∧
      (l.line = .waking → l.wakeCount ≤ 1 → tget t.zlc z = { l with line := .live, wakeCount := 0, hangCount := 0 }) ∧
      (l.line = .live → wanted = true → tget t.zlc z = l) ∧
      (l.line = .live → wanted = false → 1 ≤ l.hang → tget t.zlc z = { l with line := .hang, hangCount := l.hang }) ∧
      (l.line = .live → wanted = false → l.hang = 0 → tget t.zlc z = { l with line := .standby } ∧
        (t.ch.eventLost = true ∨ ∃ T p, ⟨0x02, 1, BitVec.ofNat 16 z, T, p, [.b1 3, .b1 4, .b1 0]⟩ ∈ t.ch.events ∧
          (s.period.tick = none → zmem s.period.tickZones z = false → tickEnds = false → T = s.stc.time ∧ p = s.stc.phase))) ∧
      (l.line = .hang → wanted = true → tget t.zlc z = { l with line := .live, wakeCount := 0, hangCount := 0 }) ∧
      (l.line = .hang → wanted = false → claim s z = .empty → s.stc.status = .unset →
        (∀ h, h < 96 → zmem (request s h).requested z = false) →
        (∀ T, (tickEnds = true → T = s.stc.time + 1) → (tickEnds = false → s.period.tick = some T) → count = 0 →
          tget t.zlc z = { l with line := .standby, hangCount := 0 } ∧ (t.ch.eventLost = true ∨
            ⟨0x02, 1, BitVec.ofNat 16 z, T, 0, [.b1 4, .b1 3, .b1 0]⟩ ∈ t.ch.events)) ∧
        (count ≠ 0 ∨ (tickEnds = false ∧ s.period.tick = none) → tget t.zlc z = { l with hangCount := count })))

/-- R60, R61, R65, R45: ZONE_SET. A zone above 47 and a flag above bit 2 are refused with BADARG, and a change of width under a holder with STATE. An accepted one writes width, pre-roll, hang and keep-awake, moves the line state by the table of R61, clears both counts and the fault code on entering OFF, and raises ZONE_STATE behind the arbiter's events when the line state has changed; the peak of a zone that leaves STANDBY is cleared. No other zone's line changes. -/
def Obligations.ZoneSetWritesTheZone : Prop :=
  (∀ h zone flags preroll hang s, Addressed h s → zone.toNat > 47 ∨ flags.toNat > 7 →
    exec (.zoneSet h zone flags preroll hang) s = .next (refusedBy h 0x41 .badarg s)) ∧
  (∀ h zone flags preroll hang s, Addressed h s → zone.toNat ≤ 47 → flags.toNat ≤ 7 →
    flags.getLsbD 1 ≠ (tget s.zlc zone.toNat).width16 → claim s zone.toNat ≠ .empty →
    exec (.zoneSet h zone flags preroll hang) s = .next (refusedBy h 0x41 .state s)) ∧
  (∀ h zone flags preroll hang s l l' off enters amt, Addressed h s → zone.toNat ≤ 47 → flags.toNat ≤ 7 →
    flags.getLsbD 1 = (tget s.zlc zone.toNat).width16 ∨ claim s zone.toNat = .empty →
    l = tget s.zlc zone.toNat →
    off = decide (flags.getLsbD 0 = false ∧ l.line ≠ .off) →
    enters = decide (flags.getLsbD 0 = true ∧ l.line = .off) →
    l' = { l with
      width16 := flags.getLsbD 1, keepAwake := flags.getLsbD 2, preroll := preroll.toNat, hang := hang.toNat,
      line := if off then .off else if enters then .standby else l.line,
      enable := if off then false else if enters then true else l.enable,
      wakeCount := if off then 0 else l.wakeCount, hangCount := if off then 0 else l.hangCount,
      faultCode := if off then 0 else l.faultCode } →
    amt = (if off = true ∧ l.line = .standby then tset s.amt zone.toNat { tget s.amt zone.toNat with
        peak := (if zmem s.period.windowEnded zone.toNat = true then (tget s.amt zone.toNat).level else 0) } else s.amt) →
    ∃ t, exec (.zoneSet h zone flags preroll hang) s = .next (answered h 0x41 .done
        [.b1 zone, f1 (lineCode l'.line), .b1 flags, f1 (l.enable.toNat + 2 * l.width16.toNat + 4 * l.keepAwake.toNat),
         .b2 preroll, .b2 hang, f2 l.preroll, f2 l.hang] s t) ∧
      ActFrame (((s.setZlc (tset s.zlc zone.toNat l')).setAmt amt).setPeriod
        { s.period with tested := if enters then s.period.tested ||| zone1 zone.toNat else s.period.tested }) t ∧
      (off = false → enters = false → t = s.setZlc (tset s.zlc zone.toNat l')) ∧
      (off = true → claim t zone.toNat = .empty) ∧
      (off = true ∨ enters = true → t.ch.eventLost = true ∨ t.ch.events.getLast? = some
        ⟨0x02, BitVec.ofNat 8 (lineCode l'.line), BitVec.ofNat 16 zone.toNat, s.stc.time, s.stc.phase,
          [f1 (lineCode l.line), .b1 0, .b1 (if l.line = .fault then l.faultCode else 0)]⟩))

/-- R62: ZONE_FAULT puts a zone in STANDBY, WAKING, LIVE or HANG into FAULT with its code, both counts 0 and its claim entry emptied; in FAULT it changes nothing, in OFF it is refused with STATE. R63: ZONE_CLEAR returns a zone in FAULT to STANDBY, and is refused with STATE in any other line state. ZONE_STATE (R65) stands behind the arbiter's events. -/
def Obligations.ZoneFaultAndZoneClear : Prop :=
  (∀ h zone code s, Addressed h s → zone.toNat > 47 →
    exec (.zoneFault h zone code) s = .next (refusedBy h 0x42 .badarg s) ∧
    exec (.zoneClear h zone) s = .next (refusedBy h 0x43 .badarg s)) ∧
  (∀ h zone code s, Addressed h s → zone.toNat ≤ 47 → lineOf s zone.toNat = .off →
    exec (.zoneFault h zone code) s = .next (refusedBy h 0x42 .state s)) ∧
  (∀ h zone code s, Addressed h s → zone.toNat ≤ 47 → lineOf s zone.toNat = .fault →
    exec (.zoneFault h zone code) s = .next (answered h 0x42 .done
      [.b1 zone, .b1 5, .b1 (tget s.zlc zone.toNat).faultCode, .b1 0xFF] s s)) ∧
  (∀ h zone code s l amt, Addressed h s → zone.toNat ≤ 47 → l = tget s.zlc zone.toNat →
    l.line ≠ .off → l.line ≠ .fault →
    amt = (if l.line = .standby then tset s.amt zone.toNat { tget s.amt zone.toNat with
        peak := (if zmem s.period.windowEnded zone.toNat = true then (tget s.amt zone.toNat).level else 0) } else s.amt) →
    ∃ t, exec (.zoneFault h zone code) s = .next (answered h 0x42 .done
        [.b1 zone, f1 (lineCode l.line), .b1 code, f1? (claimHandle (claim s zone.toNat))] s t) ∧
      ActFrame ((s.setZlc (tset s.zlc zone.toNat
        { l with line := .fault, wakeCount := 0, hangCount := 0, faultCode := code })).setAmt amt) t ∧
      claim t zone.toNat = .empty ∧
      (t.ch.eventLost = true ∨ t.ch.events.getLast? = some ⟨0x02, 5, BitVec.ofNat 16 zone.toNat, s.stc.time, s.stc.phase,
        [f1 (lineCode l.line), .b1 1, .b1 code]⟩)) ∧
  (∀ h zone s, Addressed h s → zone.toNat ≤ 47 → lineOf s zone.toNat ≠ .fault →
    exec (.zoneClear h zone) s = .next (refusedBy h 0x43 .state s)) ∧
  (∀ h zone s l, Addressed h s → zone.toNat ≤ 47 → l = tget s.zlc zone.toNat → l.line = .fault →
    ∃ t, exec (.zoneClear h zone) s = .next (answered h 0x43 .done [.b1 zone, .b1 l.faultCode] s t) ∧
      ActFrame ((s.setZlc (tset s.zlc zone.toNat { l with line := .standby, faultCode := 0 })).setPeriod
        { s.period with tested := s.period.tested ||| zone1 zone.toNat }) t ∧
      (t.ch.eventLost = true ∨ t.ch.events.getLast? = some ⟨0x02, 1, BitVec.ofNat 16 zone.toNat, s.stc.time, s.stc.phase,
        [.b1 5, .b1 2, .b1 l.faultCode]⟩))

/-! ### Station time (Chapter 8) -/

/-- R144, R145: HOLDOVER_ENTRY, on the tick end that brings the holdover count of a LOCKED clock to its limit. R146: CLOCK_SET writes both settings, and puts a LOCKED clock whose count is at or past the new limit into HOLDOVER with CLOCK_STATE; nothing else changes. An entry that is not due does not happen (the model's choice, log 2). -/
def Obligations.HoldoverEntryAndClockSet : Prop :=
  (∀ s T, s.period.started = true → s.stc.status = .locked → 100 * s.stc.holdoverLimit ≤ s.stc.holdoverCount →
    s.period.tick = some T → s.ch.events.length < 32 →
    exec .holdoverEntry s = .next ((s.setStc { s.stc with status := .holdover }).setCh
      { s.ch with events := s.ch.events ++ [⟨0x09, 2, 0, T, 0, [.b1 1, f4 s.stc.holdoverCount, f4i s.stc.slew]⟩] })) ∧
  (∀ s, s.period.started = true → s.stc.status ≠ .locked ∨ s.stc.holdoverCount < 100 * s.stc.holdoverLimit ∨
    s.period.tick = none → exec .holdoverEntry s = .next s) ∧
  (∀ h window limit s, Addressed h s → window.toNat > 1048575 ∨ limit.toNat = 0 →
    exec (.clockSet h window limit) s = .next (refusedBy h 0x82 .badarg s)) ∧
  (∀ h window limit s, Addressed h s → window.toNat ≤ 1048575 → limit.toNat ≠ 0 →
    s.stc.status ≠ .locked ∨ s.stc.holdoverCount < 100 * limit.toNat →
    exec (.clockSet h window limit) s = .next (answered h 0x82 .done
      [.b4 window, .b2 limit, f4 s.stc.slewWindow, f2 s.stc.holdoverLimit, f1 (statusCode s.stc.status),
       f4 s.stc.holdoverCount] s
      (s.setStc { s.stc with slewWindow := window.toNat, holdoverLimit := limit.toNat }))) ∧
  (∀ h window limit s, Addressed h s → window.toNat ≤ 1048575 → limit.toNat ≠ 0 →
    s.stc.status = .locked → 100 * limit.toNat ≤ s.stc.holdoverCount → s.ch.events.length < 32 →
    exec (.clockSet h window limit) s = .next (answered h 0x82 .done
      [.b4 window, .b2 limit, f4 s.stc.slewWindow, f2 s.stc.holdoverLimit, .b1 2, f4 s.stc.holdoverCount] s
      ((s.setStc { s.stc with slewWindow := window.toNat, holdoverLimit := limit.toNat, status := .holdover }).setCh
        { s.ch with events := s.ch.events ++ [⟨0x09, 2, 0, s.stc.time, s.stc.phase,
          [.b1 1, f4 s.stc.holdoverCount, f4i s.stc.slew]⟩] })))

/-- R141, R143, R144, R145: a TIME cell whose offset lies within the slew window, without FORCE_STEP and out of UNSET, sets the slew remainder to the offset, the status to LOCKED and the holdover count to 0; T, phase and tick length stand; CLOCK_STATE is raised when it found HOLDOVER. R142: in UNSET, with FORCE_STEP, or with an offset above the slew window it is a step: T and phase move by the offset, the remainder is 0 and the tick length 480. TIME_STEP, and CLOCK_STATE unless it found LOCKED, stand before every event of the arbiter and the scheduler, whose actions are all that follows; they read the new T and phase, and the rest of the frame period reads those of its start (R136). Other flags are refused with BADARG. That CLOCK_STATE gives the holdover count before the command and the remainder after it is the model's reading (log 17), and so is that a tick end may be due again after a step (log 9). -/
def Obligations.ATimeCellSlewsOrStepsTheClock : Prop :=
  (∀ h reference flags s, Addressed h s → flags.toNat > 1 →
    exec (.time h reference flags) s = .next (refusedBy h 0x81 .badarg s)) ∧
  (∀ h reference s capT capP offset, Addressed h s → s.stc.status ≠ .unset → s.ch.capture = some (capT, capP) →
    offset = (reference - capT).toInt * 480 - capP → offset.natAbs ≤ s.stc.slewWindow → s.ch.events.length < 32 →
    exec (.time h reference 0) s = .next (answered h 0x81 .done
      [.b1 0, .b1 0xFF, f4i (reference - capT).toInt, fTime capT, f2 capP, fTime s.stc.time, f2 s.stc.phase, f4i offset,
       f1 (statusCode s.stc.status), .b1 1] s
      ((s.setStc { s.stc with slew := offset, status := .locked, holdoverCount := 0 }).setCh
        { s.ch with events := if s.stc.status = .locked then s.ch.events else s.ch.events ++
          [⟨0x09, 1, 0, s.stc.time, s.stc.phase, [.b1 2, f4 s.stc.holdoverCount, f4i offset]⟩] }))) ∧
  (∀ h reference flags s capT capP offset reason stc', Addressed h s → flags.toNat ≤ 1 →
    s.ch.capture = some (capT, capP) → offset = (reference - capT).toInt * 480 - capP →
    reason = (if s.stc.status = .unset then some 0 else if flags = 1 then some 1
      else if s.stc.slewWindow < offset.natAbs then some 2 else none) → reason ≠ none →
    stc' = { s.stc with time := s.stc.time + BitVec.ofInt 32 ((s.stc.phase + offset) / 480),
                        phase := ((s.stc.phase + offset) % 480).toNat, slew := 0, tickLength := 480,
                        status := .locked, holdoverCount := 0 } →
    ∃ t, exec (.time h reference flags) s = .next (answered h 0x81 .done
        [.b1 1, f1? reason, f4i (reference - capT).toInt, fTime capT, f2 capP, fTime stc'.time, f2 stc'.phase, .b4 0,
         f1 (statusCode s.stc.status), .b1 1] s t) ∧
      ActFrame ((s.setStc stc').setPeriod
        { s.period with tickTaken := false, handed := some stc'.time, read := some (now s) }) t ∧
      (s.ch.events.length + 2 ≤ 32 → (s.ch.events ++
        ⟨0x08, BitVec.ofNat 8 (reason.getD 0), 0, stc'.time, stc'.phase,
          [f4i (reference - capT).toInt, f2 capP, fTime s.stc.time, f2 s.stc.phase]⟩ ::
        (if s.stc.status = .locked then [] else
          [⟨0x09, 1, 0, stc'.time, stc'.phase, [f1 (statusCode s.stc.status), f4 s.stc.holdoverCount, .b4 0]⟩])) <+:
        t.ch.events))

/-! ### Requests and zone arbitration (Chapter 5) -/

/-- R71, R72: ANNOUNCE. Its checks give BADARG, NOENT, STATE and FULL in the rule's own order; a latest start is tested against the T that blocks read and against the one that a notice of the frame period has handed on (the model's choice, log 40). An accepted one takes the lowest-numbered FREE record and is answered DONE with the record as the admitting pass leaves it; only the arbiter's and the scheduler's actions follow. Where no zone is usable it waits: its record is WAITING, its handle stands in the queue at its place, and the banks of its clip fragments are counted. The latest start of a reply without one is free (log 13). -/
def Obligations.AnnounceAdmitsARequest : Prop :=
  (∀ h a s, Addressed h s → a.cls.toNat > 3 ∨ a.priority.toNat > 15 ∨ a.flags.toNat > 7 ∨ a.sourceKind.toNat > 1 ∨
      a.deadlinePresent.toNat > 1 ∨ a.minCoverage.toNat = 0 ∨ a.minCoverage.toNat > 48 ∨
      (a.sourceKind.toNat = 0 ∧ a.template.toNat > 63) ∨
      (a.sourceKind.toNat = 0 ∧ ∃ x, tget s.tex.templates a.template.toNat = some x ∧ x.callField = true) ∨
      (a.sourceKind.toNat = 1 ∧ a.lane.toNat > 39) ∨
      (a.sourceKind.toNat = 1 ∧ a.chime.toNat > 1023 ∧ a.chime.toNat ≠ 0xFFFF) ∨
      (a.flags.getLsbD 2 = true ∧ (a.cls.toNat = 1 ∨ a.cls.toNat = 2 ∨ a.sourceKind.toNat = 1)) ∨
      (a.flags.getLsbD 1 = true ∧ a.sourceKind.toNat = 1) ∨
      (∀ z, z < 48 → zmem a.requested z = true → lineOf s z = .off) →
    exec (.announce h a) s = .next (refusedBy h 0x51 .badarg s)) ∧
  (∀ h a s, Addressed h s → announceBad a s = false → a.sourceKind.toNat = 0 →
    expand s a.template.toNat (announceDeadline a) none none = none →
    exec (.announce h a) s = .next (refusedBy h 0x51 .noent s)) ∧
  (∀ h a s r, Addressed h s → announceBad a s = false → announceRequest a h.tag s = some r →
    (r.live = true ∧ tget s.itp.roles r.lane ≠ .source) ∨
      (∃ l, r.latestStart = some l ∧ (earlier l (now s).1 = true ∨ earlier l (lawTime s) = true)) →
    exec (.announce h a) s = .next (refusedBy h 0x51 .state s)) ∧
  (∀ h a s r, Addressed h s → announceBad a s = false → announceRequest a h.tag s = some r → announceState r s = false →
    (∀ k, k < 96 → (request s k).state ≠ .free) ∨ 64 ≤ s.zar.queue.length →
    exec (.announce h a) s = .next (refusedBy h 0x51 .full s)) ∧
  (∀ h a s r k x, Addressed h s → announceBad a s = false → announceRequest a h.tag s = some r →
    announceState r s = false → k < 96 → (request s k).state = .free → (∀ j, j < k → (request s j).state ≠ .free) →
    s.zar.queue.length < 64 → x = request (pass (admitRecord k r s)) k →
    ∃ t l, ActFrame s (pass (admitRecord k r s)) ∧ ActFrame (pass (admitRecord k r s)) t ∧
      (∀ d, x.latestStart = some d → l = .b4 d) ∧
      exec (.announce h a) s = .next (answered h 0x51 .done
        [f1 k, f1 (requestCode x.state), f1 (requestFlags x.flags), fZones x.requested, fZones x.granted, f2 x.minCoverage,
         f2 x.talkLimit, fBool x.latestStart.isSome, l, f2 x.fragments.length, f4 x.duration] s t)) ∧
  (∀ h a s r k u, Addressed h s → announceBad a s = false → announceRequest a h.tag s = some r → announceState r s = false →
    k < 96 → (request s k).state = .free → (∀ j, j < k → (request s j).state ≠ .free) → s.zar.queue.length < 64 →
    (∀ z, z < 48 → lineOf s z = .off ∨ lineOf s z = .fault) → (∀ e, e < 6 → (tget s.engines e).state ≠ .preroll) →
    Settled s →
    u = s.setZar { s.zar with
      requests := tset s.zar.requests k { r with state := .waiting, order := s.zar.nextOrder }
      nextOrder := s.zar.nextOrder + 1 } →
    ∃ l, (∀ d, r.latestStart = some d → l = .b4 d) ∧
      exec (.announce h a) s = .next (answered h 0x51 .done
        [f1 k, .b1 1, f1 (requestFlags r.flags), fZones r.requested, fZones r.granted, f2 r.minCoverage, f2 r.talkLimit,
         fBool r.latestStart.isSome, l, f2 r.fragments.length, f4 r.duration] s
        (useBanks r.fragments (u.setZar { u.zar with queue := insertHandle u k s.zar.queue }))))

/-- R76, R97, R68: the waiting walk grants a PLAYOUT request whose coverage is met and for which an engine is idle: its zones become PENDING_JOIN, it leaves the queue, and the lowest-numbered idle engine is bound to it in PREROLL with the granted set as wait set. R76: without an engine a request that is not EVAC waits. R77: for an EVAC request blocked for lack of an engine alone the victim's engine enters STOPPING with a fade of 64 and is marked, and the victim enters ENDING. The victim is one of the requests whose class is not EVAC, whose source is PLAYOUT and whose engine is in PREROLL or PLAYING: among them the one of numerically highest class, then worst priority, then latest admission order; there is one whenever such a request stands. Without a victim, or while an engine is marked, nothing is stopped and the request waits, and no later request of the walk finds an engine. -/
def Obligations.TheWaitingWalkGrants : Prop :=
  (∀ s h r zs e, h < 96 → r = request s h → r.state = .waiting → r.live = false → r.current = .engine →
    (∀ z, z < 48 → zmem r.requested z = true → claim s z = .empty) →
    (∀ z, z < 48 → (zmem zs z = true ↔ zmem r.requested z = true ∧ lineOf s z ≠ .off ∧ lineOf s z ≠ .fault)) →
    zs ≠ 0 → (if r.cls = .evac then 1 else r.minCoverage) ≤ zcard zs →
    e < 6 → (tget s.engines e).state = .idle → (∀ f, f < e → (tget s.engines f).state ≠ .idle) →
    ∃ t, walkRequest (s, false) h = (t, false) ∧
      request t h = { r with state := .granted, granted := zs, engine := some e,
                             flags := { r.flags with isPartial := zs != r.requested } } ∧
      (∀ k, k < 96 → k ≠ h → request t k = request s k) ∧
      (∀ z, z < 48 → claim t z = if zmem zs z then .pendingJoin h else claim s z) ∧
      t.zar.queue = s.zar.queue.filter (· != h) ∧
      tget t.engines e = ⟨.preroll, some h, zs, none, 0, 0, 0, (tget s.engines e).output⟩ ∧
      t = (s.setZar { s.zar with requests := t.zar.requests, queue := t.zar.queue, claims := t.zar.claims }).setEngines
        (tset s.engines e (tget t.engines e))) ∧
  (∀ s h blocked, (request s h).live = false → (request s h).cls ≠ .evac →
    blocked = true ∨ (∀ e, e < 6 → (tget s.engines e).state ≠ .idle) → walkRequest (s, blocked) h = (s, blocked)) ∧
  (∀ s h blocked r k e v, r = request s h → r.state = .waiting → r.live = false → r.cls = .evac →
    1 ≤ zcard (obtainable s r) → blocked = true ∨ (∀ e, e < 6 → (tget s.engines e).state ≠ .idle) → s.zar.evacMark = none →
    victim s = some (k, e) → v = request s k → e < 6 → k < 96 →
    ∃ t, walkRequest (s, blocked) h = (t, true) ∧ v.cls ≠ .evac ∧ v.live = false ∧ v.engine = some e ∧
      request t k = { v with state := .ending, pendingEnd := none, talkCount := none, ending := (match v.pendingEnd with
        | some c => .ends c
        | none => if v.flags.resume = true ∧ v.restarts < 3 then .returns else .ends .preempted) } ∧
      tget t.engines e = { tget s.engines e with state := .stopping, waitSet := 0, fade := 64 } ∧
      t.zar.evacMark = some e ∧ t.zar.claims = s.zar.claims ∧ t.zar.queue = s.zar.queue) ∧
  (∀ s k e v, victim s = some (k, e) → v = request s k →
    k < 96 ∧ v.cls ≠ .evac ∧ v.live = false ∧ v.engine = some e ∧
      ((tget s.engines e).state = .preroll ∨ (tget s.engines e).state = .playing) ∧
      ∀ j f w, j < 96 → w = request s j → w.cls ≠ .evac → w.live = false → w.engine = some f →
        (tget s.engines f).state = .preroll ∨ (tget s.engines f).state = .playing →
        classNum w.cls < classNum v.cls ∨ (classNum w.cls = classNum v.cls ∧
          (w.priority < v.priority ∨ (w.priority = v.priority ∧ w.order ≤ v.order)))) ∧
  (∀ s j f, j < 96 → (request s j).cls ≠ .evac → (request s j).live = false → (request s j).engine = some f →
    (tget s.engines f).state = .preroll ∨ (tget s.engines f).state = .playing → victim s ≠ none) ∧
  (∀ s h blocked r, r = request s h → r.state = .waiting → r.live = false → r.cls = .evac →
    1 ≤ zcard (obtainable s r) → blocked = true ∨ (∀ e, e < 6 → (tget s.engines e).state ≠ .idle) →
    victim s = none ∨ s.zar.evacMark ≠ none → walkRequest (s, blocked) h = (s, true))

/-- R74, R76, R82, R83: pre-emption and the loss of zones. A zone may be taken for a request from a holder of a numerically greater class that is not EVAC, when the request is EVAC or has PREEMPT; the obtainable set of a request is its requested zones that are usable and free or pre-emptible. A grant that takes zones from a holder names itself in the claim table and raises ZONES_LOST for the holder. A loss shrinks the granted set and the wait set of an engine in PREROLL, and where what is left of the wait set is all LIVE the engine leaves PREROLL at the loss, by FAULT, OFF or PRE-EMPTION alike (R98, R99): a pending end ends the request, otherwise its LIVE zones join and it enters ACTIVE; a GRANTED or ACTIVE request left with no zone is displaced: it enters ENDING and returns when it is a PLAYOUT request with RESUME and fewer than three restarts, and otherwise ends PREEMPTED or ZONE_LOST. A pending end CANCELLED makes the return an end. ZONE_FAULT and a disabling ZONE_SET take their zone so, with causes FAULT and OFF and no taker. -/
def Obligations.ZonesArePreemptedAndLost : Prop :=
  (∀ v r : Request, preemptible v r = true ↔
    classNum r.cls < classNum v.cls ∧ v.cls ≠ .evac ∧ (r.cls = .evac ∨ r.flags.preempt = true)) ∧
  (∀ s r z, z < 48 → (zmem (obtainable s r) z = true ↔ zmem r.requested z = true ∧ lineOf s z ≠ .off ∧
    lineOf s z ≠ .fault ∧ ∀ k, claimHandle (claim s z) = some k → preemptible (request s k) r = true)) ∧
  (∀ s h r zs k v m e, h < 96 → k < 96 → k ≠ h → r = request s h → r.state = .waiting → r.live = false →
    r.current = .engine → zs = obtainable s r → (if r.cls = .evac then 1 else r.minCoverage) ≤ zcard zs → v = request s k →
    (∀ z, z < 48 → zmem zs z = true → claim s z = .empty ∨ claimHandle (claim s z) = some k) →
    (∀ z, z < 48 → (zmem m z = true ↔ zmem zs z = true ∧ claimHandle (claim s z) = some k)) → m ≠ 0 →
    zdiff v.granted m ≠ 0 → e < 6 → (tget s.engines e).state = .idle → (∀ f, f < e → (tget s.engines f).state ≠ .idle) →
    v.engine ≠ some e → s.ch.events.length < 32 →
    (∀ f, v.engine = some f → (tget s.engines f).state ≠ .preroll ∨
      ∃ z, z < 48 ∧ zmem (tget s.engines f).waitSet z = true ∧ zmem m z = false ∧ lineOf s z ≠ .live) →
    ∃ t, walkRequest (s, false) h = (t, false) ∧ ActFrame s t ∧
      request t h = { r with state := .granted, granted := zs, engine := some e,
                             flags := { r.flags with isPartial := zs != r.requested } } ∧
      request t k = { v with granted := zdiff v.granted m,
                             flags := { v.flags with isPartial := zdiff v.granted m != v.requested } } ∧
      (∀ z, z < 48 → claim t z = if zmem zs z then .pendingJoin h else claim s z) ∧
      t.ch.events = s.ch.events ++ [⟨0x05, 0, BitVec.ofNat 16 k, s.stc.time, s.stc.phase,
        [f1 h, fZones m, fZones (zdiff v.granted m)]⟩]) ∧
  (∀ s h zs cause taker r g t, h < 96 → r = request s h → g = zdiff r.granted zs →
    g ≠ 0 ∨ (r.state ≠ .granted ∧ r.state ≠ .active) →
    (∀ f, r.engine = some f → (tget s.engines f).state ≠ .preroll ∨
      ∃ z, z < 48 ∧ zmem (tget s.engines f).waitSet z = true ∧ zmem zs z = false ∧ lineOf s z ≠ .live) →
    t = loseZones h zs cause taker s →
    ActFrame s t ∧
    request t h = { r with granted := g, flags := { r.flags with isPartial := g != 0 && g != r.requested } } ∧
    (∀ k, k < 96 → k ≠ h → request t k = request s k) ∧
    (∀ z, z < 48 → claim t z = if zmem zs z then .empty else claim s z) ∧
    (∀ e, e < 6 → tget t.engines e = if r.engine = some e ∧ (tget s.engines e).state = .preroll
      then { tget s.engines e with waitSet := zdiff (tget s.engines e).waitSet zs } else tget s.engines e) ∧
    t.zar.queue = s.zar.queue ∧ t.work = s.work ∧
    (s.ch.events.length < 32 → t.ch.events = s.ch.events ++ [⟨0x05, BitVec.ofNat 8 (match cause with
      | .preemption => 0
      | .fault => 1
      | .off => 2), BitVec.ofNat 16 h, s.stc.time, s.stc.phase, [f1? taker, fZones zs, fZones g]⟩])) ∧
  (∀ s h zs cause taker r e x g, h < 96 → r = request s h → g = zdiff r.granted zs → g ≠ 0 → r.state = .granted →
    r.engine = some e → e < 6 → x = tget s.engines e → x.state = .preroll → x.handle = some h →
    (∀ z, z < 48 → zmem x.waitSet z = true → zmem zs z = false → lineOf s z = .live) →
    (∀ c, r.pendingEnd = some c → ∃ u, ActFrame s u ∧ loseZones h zs cause taker s = endRequest h c u ∧
      request u h = { r with granted := g, flags := { r.flags with isPartial := g != r.requested } }) ∧
    (∀ js t q, r.pendingEnd = none → js ≠ 0 →
      (∀ z, z < 48 → (zmem js z = true ↔ claim s z = .pendingJoin h ∧ zmem zs z = false ∧ lineOf s z = .live)) →
      s.ch.events.length + 2 ≤ 32 → t = loseZones h zs cause taker s →
      q = { r with granted := g, flags := { r.flags with isPartial := g != r.requested }, state := .active,
                   talkCount := if r.live then some (100 * r.talkLimit) else none } →
      ActFrame s t ∧ request t h = q ∧
      tget t.engines e = { x with state := .playing, waitSet := 0, fragment := some 0, position := 0 } ∧
      (∀ z, z < 48 → claim t z = if zmem zs z then .empty else if zmem js z then .joined h else claim s z) ∧
      t.ch.events = s.ch.events ++ [⟨0x05, BitVec.ofNat 8 (match cause with
        | .preemption => 0
        | .fault => 1
        | .off => 2), BitVec.ofNat 16 h, s.stc.time, s.stc.phase, [f1? taker, fZones zs, fZones g]⟩,
        ⟨0x03, BitVec.ofNat 8 (classNum r.cls), BitVec.ofNat 16 h, s.stc.time, s.stc.phase,
          [f1 (originKind r.origin), f1 (originId r.origin), f1 (originTrigger r.origin), f1? r.engine, fZones js,
           fZones g, f1 (requestFlags q.flags), f2 r.restarts]⟩])) ∧
  (∀ s h zs cause taker r e t, h < 96 → r = request s h → zdiff r.granted zs = 0 →
    r.state = .granted ∨ r.state = .active → r.live = false → r.flags.resume = true → r.restarts < 3 →
    r.engine = some e → e < 6 → t = loseZones h zs cause taker s →
    ActFrame s t ∧ request t h = { r with
      granted := 0, flags := { r.flags with isPartial := false }, state := .ending, pendingEnd := none, talkCount := none
      ending := if r.pendingEnd = some .cancelled then .ends .cancelled else .returns } ∧
    tget t.engines e = { tget s.engines e with state := .stopping, waitSet := 0, fade := 64 } ∧
    (∀ z, z < 48 → claim t z = if zmem zs z then .empty else claim s z)) ∧
  (∀ s h zs cause taker r, h < 96 → r = request s h → zdiff r.granted zs = 0 →
    r.state = .granted ∨ r.state = .active → r.live = true ∨ r.flags.resume = false ∨ 3 ≤ r.restarts →
    ∃ u, ActFrame s u ∧ loseZones h zs cause taker s =
        endRequest h (if cause = .preemption then .preempted else .zoneLost) u ∧
      request u h = { r with granted := 0, flags := { r.flags with isPartial := false } } ∧
      (∀ k, k < 96 → k ≠ h → request u k = request s k) ∧
      (∀ z, z < 48 → claim u z = if zmem zs z then .empty else claim s z)) ∧
  (∀ h zone code s k r, Addressed h s → zone.toNat ≤ 47 → lineOf s zone.toNat ≠ .off → lineOf s zone.toNat ≠ .fault →
    claimHandle (claim s zone.toNat) = some k → k < 96 → r = request s k → s.ch.events.length < 32 →
    ∃ t fields, exec (.zoneFault h zone code) s = .next (answered h 0x42 .done fields s t) ∧
      (s.ch.events ++ [⟨0x05, 1, BitVec.ofNat 16 k, s.stc.time, s.stc.phase,
        [.b1 0xFF, fZones (zone1 zone.toNat), fZones (zdiff r.granted (zone1 zone.toNat))]⟩]) <+: t.ch.events) ∧
  (∀ h zone flags preroll hang s k r, Addressed h s → zone.toNat ≤ 47 → flags.toNat ≤ 7 → flags.getLsbD 0 = false →
    flags.getLsbD 1 = (tget s.zlc zone.toNat).width16 → lineOf s zone.toNat ≠ .off →
    claimHandle (claim s zone.toNat) = some k → k < 96 → r = request s k → s.ch.events.length < 32 →
    ∃ t fields, exec (.zoneSet h zone flags preroll hang) s = .next (answered h 0x41 .done fields s t) ∧
      (s.ch.events ++ [⟨0x05, 2, BitVec.ofNat 16 k, s.stc.time, s.stc.phase,
        [.b1 0xFF, fZones (zone1 zone.toNat), fZones (zdiff r.granted (zone1 zone.toNat))]⟩]) <+: t.ch.events)

/-- R78, R98: the late-join walk gives a GRANTED or ACTIVE request every zone of its requested set that is usable and free, as PENDING_JOIN, and to the wait set of an engine in PREROLL; with current source LANE the LIVE zones join in the same pass (R79), and at a first join the request enters ACTIVE with its talk count loaded. A request in another state takes none. R76, R111, R112: a request with a LIVE source is not granted while the link is LOST. With a chime and an engine available to the walk its engine is bound; without a chime, or without an engine, its current source is LANE and no engine is bound, a chime that is not played sets NOCHIME, and its LIVE zones join at once with ANNOUNCE_STARTED and the talk count loaded. -/
def Obligations.LateJoinsAndLiveGrants : Prop :=
  (∀ s h r zs t, h < 96 → r = request s h → r.state = .granted ∨ r.state = .active → r.current = .engine → zs ≠ 0 →
    (∀ z, z < 48 → (zmem zs z = true ↔ zmem r.requested z = true ∧ lineOf s z ≠ .off ∧ lineOf s z ≠ .fault ∧
      claim s z = .empty)) → t = lateJoin s h →
    request t h = { r with granted := r.granted ||| zs,
                           flags := { r.flags with isPartial := (r.granted ||| zs) != r.requested } } ∧
    (∀ z, z < 48 → claim t z = if zmem zs z then .pendingJoin h else claim s z) ∧
    (∀ e, e < 6 → tget t.engines e = if r.engine = some e ∧ (tget s.engines e).state = .preroll
      then { tget s.engines e with waitSet := (tget s.engines e).waitSet ||| zs } else tget s.engines e) ∧
    t = (s.setZar { s.zar with requests := tset s.zar.requests h (request t h), claims := t.zar.claims }).setEngines
      t.engines) ∧
  (∀ s h r zs j t, h < 96 → r = request s h → r.state = .granted ∨ r.state = .active → r.current = .lane →
    r.live = true → r.engine = none → zs ≠ 0 →
    (∀ z, z < 48 → (zmem zs z = true ↔ zmem r.requested z = true ∧ lineOf s z ≠ .off ∧ lineOf s z ≠ .fault ∧
      claim s z = .empty)) → (∀ z, z < 48 → claim s z ≠ .pendingJoin h) →
    (∀ z, z < 48 → (zmem j z = true ↔ zmem zs z = true ∧ lineOf s z = .live)) → t = lateJoin s h →
    request t h = { r with
      granted := r.granted ||| zs, flags := { r.flags with isPartial := (r.granted ||| zs) != r.requested }
      state := if j = 0 then r.state else .active
      talkCount := if j ≠ 0 ∧ r.state = .granted then some (100 * r.talkLimit) else r.talkCount } ∧
    (∀ z, z < 48 → claim t z = if zmem j z then .joined h else if zmem zs z then .pendingJoin h else claim s z) ∧
    ActFrame s t ∧ t.engines = s.engines) ∧
  (∀ s h, (request s h).state ≠ .granted ∧ (request s h).state ≠ .active ∨
    (∀ z, z < 48 → zmem (request s h).requested z = true → lineOf s z = .off ∨ lineOf s z = .fault ∨ claim s z ≠ .empty) →
    lateJoin s h = s) ∧
  (∀ s h blocked, (request s h).live = true → s.itp.link = .lost → walkRequest (s, blocked) h = (s, blocked)) ∧
  (∀ s h r zs e, h < 96 → r = request s h → r.state = .waiting → r.live = true → r.current = .engine →
    r.fragments ≠ [] → s.itp.link ≠ .lost → (∀ z, z < 48 → zmem r.requested z = true → claim s z = .empty) →
    (∀ z, z < 48 → (zmem zs z = true ↔ zmem r.requested z = true ∧ lineOf s z ≠ .off ∧ lineOf s z ≠ .fault)) →
    zs ≠ 0 → (if r.cls = .evac then 1 else r.minCoverage) ≤ zcard zs →
    e < 6 → (tget s.engines e).state = .idle → (∀ f, f < e → (tget s.engines f).state ≠ .idle) →
    ∃ t, walkRequest (s, false) h = (t, false) ∧ ActFrame s t ∧
      request t h = { r with state := .granted, granted := zs, engine := some e,
                             flags := { r.flags with isPartial := zs != r.requested } } ∧
      (∀ z, z < 48 → claim t z = if zmem zs z then .pendingJoin h else claim s z) ∧
      tget t.engines e = ⟨.preroll, some h, zs, none, 0, 0, 0, (tget s.engines e).output⟩) ∧
  (∀ s h blocked r zs j q, h < 96 → r = request s h → r.state = .waiting → r.live = true →
    r.current = .lane ∨ blocked = true ∨ (∀ e, e < 6 → (tget s.engines e).state ≠ .idle) → s.itp.link ≠ .lost →
    (∀ z, z < 48 → zmem r.requested z = true → claim s z = .empty) →
    (∀ z, z < 48 → claimHandle (claim s z) ≠ some h) →
    (∀ z, z < 48 → (zmem zs z = true ↔ zmem r.requested z = true ∧ lineOf s z ≠ .off ∧ lineOf s z ≠ .fault)) →
    zs ≠ 0 → (if r.cls = .evac then 1 else r.minCoverage) ≤ zcard zs →
    (∀ z, z < 48 → (zmem j z = true ↔ zmem zs z = true ∧ lineOf s z = .live)) →
    q = { r with
      granted := zs, current := .lane
      flags := { r.flags with isPartial := zs != r.requested, nochime := r.flags.nochime || r.current == .engine }
      state := if j = 0 then .granted else .active
      talkCount := if j = 0 then r.talkCount else some (100 * r.talkLimit) } →
    ∃ t, walkRequest (s, blocked) h = (t, blocked) ∧ ActFrame s t ∧ request t h = q ∧ t.engines = s.engines ∧
      (∀ k, k < 96 → k ≠ h → request t k = request s k) ∧
      (∀ z, z < 48 → claim t z = if zmem j z then .joined h else if zmem zs z then .pendingJoin h else claim s z) ∧
      (j = 0 → t.ch.events = s.ch.events) ∧
      (j ≠ 0 → s.ch.events.length < 32 → t.ch.events = s.ch.events ++
        [⟨0x03, BitVec.ofNat 8 (classNum r.cls), BitVec.ofNat 16 h, s.stc.time, s.stc.phase,
          [f1 (originKind r.origin), f1 (originId r.origin), f1 (originTrigger r.origin), f1? r.engine, fZones j,
           fZones zs, f1 (requestFlags q.flags), f2 r.restarts]⟩]))

/-- R84, R85: an end empties every claim entry of the request, releases its engine, takes it out of the queue, raises ANNOUNCE_ENDED with the state before the end and the engine's loop count and fragment, lowers the use counts, frees the record and makes a pass due, and for a request of the scheduler an outcome walk (R160). R91: RELEASE by the request's state and source. BADARG, NOENT and STATE are its checks. A WAITING request and a LIVE source on its lane end RELEASED at once; a chime or a HARD release goes through ENDING with the engine STOPPING; a SOFT release of a PLAYOUT request sets the pending end, and one set already stays. -/
def Obligations.EndsFollowTheirStepsAndReleaseMakesThem : Prop :=
  (∀ s h cause r t, h < 96 → r = request s h → t = endRequest h cause s →
    (∀ z, z < 48 → claim t z = if claimHandle (claim s z) = some h then .empty else claim s z) ∧
    (∀ e, e < 6 → tget t.engines e = if r.engine = some e
      then { tget s.engines e with state := .idle, handle := none, waitSet := 0, fragment := none, position := 0, fade := 0 }
      else tget s.engines e) ∧
    t.zar.queue = s.zar.queue.filter (· != h) ∧
    request t h = freeRequest ∧ (∀ k, k < 96 → k ≠ h → request t k = request s k) ∧
    (s.ch.events.length < 32 → (s.ch.events ++ [⟨0x04, BitVec.ofNat 8 (causeCode cause), BitVec.ofNat 16 h,
      s.stc.time, s.stc.phase,
      [f1 (originKind r.origin), f1 (originId r.origin), f1 (originTrigger r.origin), f1 (requestCode r.state),
       fZones r.granted, f1 (requestFlags r.flags), f2 r.restarts,
       f2 (match r.engine with
         | some e => (tget s.engines e).loops
         | none => 0),
       f1? (match r.engine with
         | some e => (tget s.engines e).fragment
         | none => none)]⟩]) <+: t.ch.events) ∧
    (∀ b, b < 64 → tget t.cmc.useCounts b =
      tget s.cmc.useCounts b - (r.fragments.filter fun f => fragmentBank f == some b).length) ∧
    t.work = { s.work with
      passesDue := s.work.passesDue + 1
      walksDue := s.work.walksDue + (match r.origin with
        | .external _ => 0
        | .call _ _ | .periodic _ => 1) } ∧ ActFrame s t) ∧
  (∀ h handle mode s, Addressed h s → handle.toNat > 95 ∨ mode.toNat > 1 →
    exec (.release h handle mode) s = .next (refusedBy h 0x52 .badarg s)) ∧
  (∀ h handle mode s, Addressed h s → handle.toNat ≤ 95 → mode.toNat ≤ 1 → (request s handle.toNat).state = .free →
    exec (.release h handle mode) s = .next (refusedBy h 0x52 .noent s)) ∧
  (∀ h handle mode s, Addressed h s → handle.toNat ≤ 95 → mode.toNat ≤ 1 → (request s handle.toNat).state = .ending →
    exec (.release h handle mode) s = .next (refusedBy h 0x52 .state s)) ∧
  (∀ h handle mode s r, Addressed h s → handle.toNat ≤ 95 → mode.toNat ≤ 1 → r = request s handle.toNat →
    r.state = .waiting ∨ ((r.state = .granted ∨ r.state = .active) ∧ r.live = true ∧ r.current = .lane) →
    ∃ t, exec (.release h handle mode) s = .next (answered h 0x52 .done
        [.b1 handle, f1 (originKind r.origin), f1 (requestCode r.state), .b1 0, .b1 0] s t) ∧
      ActFrame (endRequest handle.toNat .released s) t) ∧
  (∀ h handle mode s r e cause, Addressed h s → handle.toNat ≤ 95 → mode.toNat ≤ 1 → r = request s handle.toNat →
    r.state = .granted ∨ r.state = .active → (r.live = true ∧ r.current = .engine) ∨ (r.live = false ∧ mode.toNat = 1) →
    cause = (if r.live then .released else r.pendingEnd.getD .released) →
    r.engine = some e → e < 6 → Settled s →
    exec (.release h handle mode) s = .next (answered h 0x52 .done
      [.b1 handle, f1 (originKind r.origin), f1 (requestCode r.state), .b1 4, .b1 0] s
      ((s.setZar { s.zar with requests := (tset s.zar.requests handle.toNat
          { r with state := .ending, ending := .ends cause, pendingEnd := none, talkCount := none }) }).setEngines
        (tset s.engines e { tget s.engines e with state := .stopping, waitSet := 0, fade := 64 })))) ∧
  (∀ h handle mode s r, Addressed h s → handle.toNat ≤ 95 → mode.toNat = 0 → r = request s handle.toNat →
    r.state = .granted ∨ r.state = .active → r.live = false → r.pendingEnd = none → Settled s →
    exec (.release h handle mode) s = .next (answered h 0x52 .done
      [.b1 handle, f1 (originKind r.origin), f1 (requestCode r.state), f1 (requestCode r.state), .b1 1] s
      (s.setZar { s.zar with requests := tset s.zar.requests handle.toNat { r with pendingEnd := some .released } }))) ∧
  (∀ h handle mode s r c, Addressed h s → handle.toNat ≤ 95 → mode.toNat = 0 → r = request s handle.toNat →
    r.state = .granted ∨ r.state = .active → r.live = false → r.pendingEnd = some c → Settled s →
    exec (.release h handle mode) s = .next (answered h 0x52 .done
      [.b1 handle, f1 (originKind r.origin), f1 (requestCode r.state), f1 (requestCode r.state),
       .b1 (if c = .cancelled then 2 else 1)] s s))

/-- R88, R90, R138, R178: TALK_TIMEOUT, on the tick end that brings the talk count of a GRANTED or ACTIVE request with a LIVE source to 0: with current source LANE it ends at once with cause TALK_TIMEOUT, stamped with the new T and phase 0; still in its chime it enters ENDING and its engine STOPPING. That the zones whose holder the timeout changes are noted for the line tests of the frame period is the model's choice (log 39), and so is that a timeout that is not due does not happen (log 2). -/
def Obligations.ATalkTimeoutEndsALiveRequest : Prop :=
  (∀ s h r T, s.period.started = true → h < 96 → r = request s h → r.live = true →
    r.state = .granted ∨ r.state = .active → r.talkCount = some 0 → s.period.tick = some T → r.current = .lane →
    s.ch.events.length < 32 →
    ∃ t d, exec (.talkTimeout h) s = .next t ∧
      ActFrame (s.setPeriod { s.period with tickZones := t.period.tickZones }) t ∧
      (s.ch.events ++ [⟨0x04, 5, BitVec.ofNat 16 h, T, 0, f1 (originKind r.origin) :: d⟩]) <+: t.ch.events ∧
      (∀ z, z < 48 → claimHandle (claim s z) ≠ claimHandle (claim t z) → zmem t.period.tickZones z = true)) ∧
  (∀ s h r e, s.period.started = true → h < 96 → r = request s h → r.live = true →
    r.state = .granted ∨ r.state = .active → r.talkCount = some 0 → s.period.tick ≠ none → r.current = .engine →
    r.engine = some e → e < 6 → Settled s →
    exec (.talkTimeout h) s = .next ((s.setZar { s.zar with requests := (tset s.zar.requests h
        { r with state := .ending, ending := .ends .talkTimeout, pendingEnd := none, talkCount := none }) }).setEngines
      (tset s.engines e { tget s.engines e with state := .stopping, waitSet := 0, fade := 64 }))) ∧
  (∀ s h, s.period.started = true →
    (request s h).live = false ∨ (request s h).talkCount ≠ some 0 ∨ s.period.tick = none →
    exec (.talkTimeout h) s = .next s)

/-! ### Playout engines (Chapter 6) -/

/-- R99, R80, R81: PREROLL_EXIT. An engine in PREROLL whose wait set is all LIVE begins its list; the request's LIVE zones join, a GRANTED request becomes ACTIVE with ANNOUNCE_STARTED at its first join, and its talk count is loaded with 100 ticks to the second when its source is LIVE (R79). With a pending end the request ends and no zone joins. R104, R105, R80, R111: FRAGMENT_BOUNDARY of a PLAYING engine at the end of its fragment. The next fragment follows; a REPEAT list starts again with its loop count raised and LOOP; the last fragment of a PLAYOUT list ends the request COMPLETE; a pending end ends it first; otherwise the PENDING_JOIN zones that are LIVE join. At the end of a chime the engine is released and the lane becomes the current source. An exit or a boundary that is not due does not happen (the model's choice, log 2). -/
def Obligations.PrerollExitsAndFragmentBoundaries : Prop :=
  (∀ s e x h r zs, s.period.started = true → e < 6 → x = tget s.engines e → x.state = .preroll → x.handle = some h → h < 96 →
    (∀ z, z < 48 → zmem x.waitSet z = true → lineOf s z = .live) → r = request s h → r.pendingEnd = none →
    r.state = .granted → Settled s →
    (∀ z, z < 48 → (zmem zs z = true ↔ claim s z = .pendingJoin h ∧ lineOf s z = .live)) → zs ≠ 0 →
    ∃ t, exec (.prerollExit e) s = .next t ∧ ActFrame s t ∧
      tget t.engines e = { x with state := .playing, waitSet := 0, fragment := some 0, position := 0 } ∧
      (∀ z, z < 48 → claim t z = if zmem zs z then .joined h else claim s z) ∧
      request t h = { r with state := .active, talkCount := if r.live then some (100 * r.talkLimit) else none } ∧
      (s.ch.events.length < 32 → t.ch.events = s.ch.events ++
        [⟨0x03, BitVec.ofNat 8 (classNum r.cls), BitVec.ofNat 16 h, s.stc.time, s.stc.phase,
          [f1 (originKind r.origin), f1 (originId r.origin), f1 (originTrigger r.origin), f1? r.engine, fZones zs,
           fZones r.granted, f1 (requestFlags r.flags), f2 r.restarts]⟩])) ∧
  (∀ s e x h c, s.period.started = true → e < 6 → x = tget s.engines e → x.state = .preroll → x.handle = some h →
    (∀ z, z < 48 → zmem x.waitSet z = true → lineOf s z = .live) → (request s h).pendingEnd = some c →
    ∃ t, exec (.prerollExit e) s = .next t ∧ ActFrame (endRequest h c s) t) ∧
  (∀ s e z, s.period.started = true → e < 6 → Settled s → (tget s.engines e).state ≠ .preroll ∨
    (z < 48 ∧ zmem (tget s.engines e).waitSet z = true ∧ lineOf s z ≠ .live) → exec (.prerollExit e) s = .next s) ∧
  (∀ s e x h r i f, s.period.started = true → e < 6 → x = tget s.engines e → x.state = .playing → x.handle = some h → h < 96 →
    x.fragment = some i → r = request s h → r.fragments[i]? = some f → x.position = fragmentFrames f →
    r.pendingEnd = none → r.live = false → r.state = .active → Settled s → (∀ z, z < 48 → claim s z ≠ .pendingJoin h) →
    (i + 1 < r.fragments.length →
      exec (.fragmentBoundary e) s = .next (s.setEngines (tset s.engines e { x with fragment := some (i + 1), position := 0 }))) ∧
    (i + 1 = r.fragments.length → r.flags.repeats = true → s.ch.events.length < 32 →
      exec (.fragmentBoundary e) s = .next ((s.setEngines (tset s.engines e
          { x with fragment := some 0, position := 0, loops := min 65535 (x.loops + 1) })).setCh
        { s.ch with events := s.ch.events ++ [⟨0x07, BitVec.ofNat 8 e, BitVec.ofNat 16 h, s.stc.time, s.stc.phase,
          [f2 (min 65535 (x.loops + 1)), fZones r.granted, fZones (joinedZones s h), f2 r.restarts]⟩] })) ∧
    (i + 1 = r.fragments.length → r.flags.repeats = false →
      ∃ t, exec (.fragmentBoundary e) s = .next t ∧ ActFrame (endRequest h .complete s) t)) ∧
  (∀ s e x h r i f zs, s.period.started = true → e < 6 → x = tget s.engines e → x.state = .playing → x.handle = some h →
    h < 96 → x.fragment = some i → r = request s h → r.fragments[i]? = some f → x.position = fragmentFrames f →
    r.pendingEnd = none → r.live = false → r.state = .active → i + 1 < r.fragments.length → Settled s →
    (∀ z, z < 48 → (zmem zs z = true ↔ claim s z = .pendingJoin h ∧ lineOf s z = .live)) →
    ∃ t, exec (.fragmentBoundary e) s = .next t ∧
      t = (s.setZar { s.zar with claims := t.zar.claims }).setEngines
        (tset s.engines e { x with fragment := some (i + 1), position := 0 }) ∧
      ∀ z, z < 48 → claim t z = if zmem zs z then .joined h else claim s z) ∧
  (∀ s e x h i f, s.period.started = true → e < 6 → x = tget s.engines e → x.state = .playing → x.handle = some h → x.fragment = some i →
    (request s h).fragments[i]? = some f → x.position = fragmentFrames f →
    (∀ c, (request s h).pendingEnd = some c →
      ∃ t, exec (.fragmentBoundary e) s = .next t ∧ ActFrame (endRequest h c s) t)) ∧
  (∀ s e x h r i f, s.period.started = true → e < 6 → x = tget s.engines e → x.state = .playing → x.handle = some h → h < 96 →
    x.fragment = some i → r = request s h → r.fragments[i]? = some f → x.position = fragmentFrames f →
    r.pendingEnd = none → r.live = true → r.state = .active → Settled s → s.zar.queue = [] →
    s.zar.evacMark ≠ some e → (∀ g, g < 6 → (tget s.engines g).state ≠ .preroll) →
    ∃ t, exec (.fragmentBoundary e) s = .next t ∧ ActFrame s t ∧
      tget t.engines e = { x with state := .idle, handle := none, waitSet := 0, fragment := none, position := 0, fade := 0 } ∧
      (request t h).engine = none ∧ (request t h).current = .lane ∧
      ∀ z, z < 48 → claim s z = .pendingJoin h → lineOf s z = .live → claim t z = .joined h) ∧
  (∀ s e, s.period.started = true → e < 6 → Settled s → (tget s.engines e).state ≠ .playing → exec (.fragmentBoundary e) s = .next s)

/-- R108, R86: FADE_END of a STOPPING engine whose fade count is 0. The ENDING request takes its outcome: END with its cause; RETURN puts it back into the queue with one more restart, PARTIAL cleared and ANNOUNCE_REQUEUED, unless its latest start is past (EXPIRED) or the queue is full (PREEMPTED). That ANNOUNCE_REQUEUED carries the trigger index with the origin is the model's reading (log 28); that the latest start is tested also against the T that a notice of the frame period has handed on, and that a fade end that is not due does not happen, are its choices (logs 40 and 2). -/
def Obligations.AFadeEndTakesTheOutcome : Prop :=
  (∀ s e x h c, s.period.started = true → e < 6 → x = tget s.engines e → x.state = .stopping → x.fade = 0 → x.handle = some h → h < 96 →
    (request s h).engine = some e → (request s h).ending = .ends c →
    ∃ t, exec (.fadeEnd e) s = .next t ∧ ActFrame (endRequest h c s) t) ∧
  (∀ s e x h c, s.period.started = true → e < 6 → x = tget s.engines e → x.state = .stopping → x.fade = 0 → x.handle = some h → h < 96 →
    (request s h).engine = some e → (request s h).ending = .returns →
    c = (if ∃ l, (request s h).latestStart = some l ∧ (earlier l (now s).1 = true ∨ earlier l (lawTime s) = true) then EndCause.expired else .preempted) →
    (∃ l, (request s h).latestStart = some l ∧ (earlier l (now s).1 = true ∨ earlier l (lawTime s) = true)) ∨ 64 ≤ s.zar.queue.length →
    ∃ t, exec (.fadeEnd e) s = .next t ∧ ActFrame (endRequest h c s) t) ∧
  (∀ s e x h r, s.period.started = true → e < 6 → x = tget s.engines e → x.state = .stopping → x.fade = 0 → x.handle = some h → h < 96 →
    r = request s h → r.engine = some e → r.ending = .returns →
    (∀ l, r.latestStart = some l → earlier l (now s).1 = false ∧ earlier l (lawTime s) = false) → s.zar.queue.length < 64 →
    (∀ z, z < 48 → lineOf s z = .off ∨ lineOf s z = .fault) → (∀ g, g < 6 → (tget s.engines g).state ≠ .preroll) →
    Settled s → s.ch.events.length < 32 →
    ∃ t, exec (.fadeEnd e) s = .next t ∧ ActFrame s t ∧
      request t h = { r with state := .waiting, granted := 0, engine := none, ending := .none, restarts := r.restarts + 1,
                             flags := { r.flags with isPartial := false } } ∧
      h ∈ t.zar.queue ∧
      tget t.engines e = { x with state := .idle, handle := none, waitSet := 0, fragment := none, position := 0, fade := 0 } ∧
      (∀ z, z < 48 → claimHandle (claim t z) ≠ some h) ∧
      t.ch.events = s.ch.events ++ [⟨0x06, BitVec.ofNat 8 (r.restarts + 1), BitVec.ofNat 16 h, s.stc.time, s.stc.phase,
        [f1 (originKind r.origin), f1 (originId r.origin), f1 (originTrigger r.origin), fZones r.requested]⟩]) ∧
  (∀ s e, s.period.started = true → e < 6 → Settled s → (tget s.engines e).state ≠ .stopping ∨ 0 < (tget s.engines e).fade →
    exec (.fadeEnd e) s = .next s)

/-! ### Clip memory, phrases, templates (Chapter 7) -/

/-- R118, R119, R120, R116: CLIP_WRITE is refused with BADARG for a bad address and with BUSY while a bank that its block touches is referenced; otherwise it writes the samples of the block, 20 or the four of the last block, and changes nothing else. CLIP_READ answers 20 samples, 0 past the end of the memory, whatever the use counts, and changes nothing. R122, R121: PHRASE_SET writes or removes one entry of the phrase directory, and refuses with BADARG an id above 1023, a present above 1, and a clip that is empty, longer than a bank, past the end of the memory or in two banks. R123, R179: QUERY PHRASE returns the entry with its bank and the bank's use count, or NOENT. A removal is answered with the entry absent, its bank FFh, and the entry before. The start and length of an absent entry are free in the reply (log 13). That a CLIP_WRITE of one bank is answered DONE with FFh as its second bank is the model's reading (log 45). -/
def Obligations.ClipMemoryAndPhrases : Prop :=
  (∀ h addr samples s, Addressed h s → addr.toNat % 20 ≠ 0 ∨ addr.toNat > 67108860 →
    exec (.clipWrite h addr samples) s = .next (refusedBy h 0x71 .badarg s) ∧
    exec (.clipRead h addr) s = .next (refusedBy h 0x73 .badarg s)) ∧
  (∀ h addr samples s n b c, Addressed h s → addr.toNat % 20 = 0 → addr.toNat ≤ 67108860 →
    n = (if addr.toNat = 67108860 then 4 else 20) → b = addr.toNat / 1048576 → c = (addr.toNat + n - 1) / 1048576 →
    0 < tget s.cmc.useCounts b ∨ 0 < tget s.cmc.useCounts c →
    exec (.clipWrite h addr samples) s = .next (answered h 0x71 .busy
      [.b4 addr, f1 b, f2 (tget s.cmc.useCounts b), if c = b then .b1 0xFF else f1 c,
       if c = b then .b2 0 else f2 (tget s.cmc.useCounts c)] s s)) ∧
  (∀ h addr samples s n b c, Addressed h s → ClipMemoryCanonical s → samples.length = 20 → addr.toNat % 20 = 0 →
    addr.toNat ≤ 67108860 → n = (if addr.toNat = 67108860 then 4 else 20) → b = addr.toNat / 1048576 →
    c = (addr.toNat + n - 1) / 1048576 → tget s.cmc.useCounts b = 0 → tget s.cmc.useCounts c = 0 →
    ∃ t, exec (.clipWrite h addr samples) s = .next (answered h 0x71 .done
        [.b4 addr, f2 n, f1 b, if c = b then .b1 0xFF else f1 c] s t) ∧
      t = s.setCmc { s.cmc with memory := t.cmc.memory } ∧
      (∀ a, addr.toNat ≤ a → a < addr.toNat + n → clipAt t.cmc a = samples.getD (a - addr.toNat) 0) ∧
      (∀ a, a < addr.toNat ∨ addr.toNat + n ≤ a → clipAt t.cmc a = clipAt s.cmc a)) ∧
  (∀ h addr s, Addressed h s → addr.toNat % 20 = 0 → addr.toNat ≤ 67108860 →
    ∃ fields, fields.length = 20 ∧
      (∀ k, k < 20 → fields[k]? = some (Field.b2 (if addr.toNat + k < 67108864 then clipAt s.cmc (addr.toNat + k) else 0))) ∧
      exec (.clipRead h addr) s = .next (answered h 0x73 .done (.b4 addr :: fields) s s)) ∧
  (∀ h phrase present start length s, Addressed h s → phrase.toNat > 1023 ∨ present.toNat > 1 ∨
    (present.toNat = 1 ∧ (length.toNat = 0 ∨ length.toNat > 1048576 ∨ start.toNat + length.toNat > 67108864 ∨
      start.toNat / 1048576 ≠ (start.toNat + length.toNat - 1) / 1048576)) →
    exec (.phraseSet h phrase present start length) s = .next (refusedBy h 0x72 .badarg s)) ∧
  (∀ h phrase start length s, Addressed h s → phrase.toNat ≤ 1023 → 1 ≤ length.toNat →
    start.toNat / 1048576 = (start.toNat + length.toNat - 1) / 1048576 → start.toNat + length.toNat ≤ 67108864 →
    ∃ was, (∀ p, tget s.cmc.phrases phrase.toNat = some p → was = [.b1 1, f4 p.start, f4 p.length]) ∧
      (tget s.cmc.phrases phrase.toNat = none → ∃ x y, was = [.b1 0, .b4 x, .b4 y]) ∧
      exec (.phraseSet h phrase 1 start length) s = .next (answered h 0x72 .done
        ([.b2 phrase, .b1 1, .b4 start, .b4 length, f1 (start.toNat / 1048576)] ++ was) s
        (s.setCmc { s.cmc with phrases := tset s.cmc.phrases phrase.toNat (some ⟨start.toNat, length.toNat⟩) }))) ∧
  (∀ h phrase start length s, Addressed h s → phrase.toNat ≤ 1023 →
    ∃ x y was, (∀ p, tget s.cmc.phrases phrase.toNat = some p → was = [.b1 1, f4 p.start, f4 p.length]) ∧
      (tget s.cmc.phrases phrase.toNat = none → ∃ v w, was = [.b1 0, .b4 v, .b4 w]) ∧
      exec (.phraseSet h phrase 0 start length) s = .next (answered h 0x72 .done
        ([.b2 phrase, .b1 0, .b4 x, .b4 y, .b1 0xFF] ++ was) s
        (s.setCmc { s.cmc with phrases := tset s.cmc.phrases phrase.toNat none }))) ∧
  (∀ h q s, Addressed h s → q.subject.toNat > 1023 ∨ q.part.toNat > 0 ∨ q.flags.toNat > 0 →
    exec (.queryPhrase h q) s = .next (refusedBy h 0xA1 .badarg s)) ∧
  (∀ h subject s p, Addressed h s → subject.toNat ≤ 1023 → tget s.cmc.phrases subject.toNat = some p →
    exec (.queryPhrase h ⟨subject, 0, 0⟩) s = .next (answered h 0xA1 .done
      [.b1 6, .b2 subject, .b1 0, .b2 1, .b2 subject, f4 p.start, f4 p.length, f1 (p.start / 1048576),
       f2 (tget s.cmc.useCounts (p.start / 1048576))] s s)) ∧
  (∀ h subject s, Addressed h s → subject.toNat ≤ 1023 → tget s.cmc.phrases subject.toNat = none →
    exec (.queryPhrase h ⟨subject, 0, 0⟩) s = .next (refusedBy h 0xA1 .noent s))

/-- R125, R126, R127: TEMPLATE_SET. Its BADARG checks; a removal makes the entry not loaded and discards the load under way; a first cell that does not finish its template begins a load, whatever load was under way, and leaves the table; a cell that does not fit the load under way, by template, wording count, position or item count, is refused with STATE. A cell that fits is refused with BADARG when its wording would pass 32 fragments, and otherwise its items are taken: the next position moves on, or the load completes and replaces the entry whole, with the worst-case counts and the call-field flag computed from it. A wording that one cell holds whole, alone in its template, replaces the entry at once. -/
def Obligations.TemplateSetLoadsATemplate : Prop :=
  (∀ h template wc wi ic first items s, Addressed h s → template.toNat > 63 ∨ wc.toNat > 4 ∨ (1 ≤ wc.toNat ∧
      (wc.toNat ≤ wi.toNat ∨ ic.toNat = 0 ∨ 24 < ic.toNat ∨ first.toNat ∉ [0, 7, 14, 21] ∨ ic.toNat ≤ first.toNat ∨
        ∃ x ∈ items.take (min 7 (ic.toNat - first.toNat)), 7 < x.kind.toNat ∨ (x.kind.toNat = 0 ∧ 1023 < x.arg.toNat) ∨
          (x.kind.toNat = 1 ∧ (x.arg.toNat = 0 ∨ 480000 < x.arg.toNat)))) →
    exec (.templateSet h template wc wi ic first items) s = .next (refusedBy h 0x74 .badarg s)) ∧
  (∀ h template wi ic first items s, Addressed h s → template.toNat ≤ 63 →
    exec (.templateSet h template 0 wi ic first items) s = .next (answered h 0x74 .done
      [.b1 template, .b1 2, .b1 0xFF, .b1 0xFF, .b2 0, f1? (s.tex.load.map (·.template)), .b1 0] s
      (s.setTex ⟨tset s.tex.templates template.toNat none, none⟩))) ∧
  (∀ h template ic items s kinds worst, Addressed h s → template.toNat ≤ 63 → 1 ≤ ic.toNat → ic.toNat ≤ 7 →
    (items.take ic.toNat).any itemBad = false → kinds = (items.take ic.toNat).map itemOf →
    worst = (kinds.map itemWorst).sum → worst ≤ 32 →
    exec (.templateSet h template 1 0 ic 0 items) s = .next (answered h 0x74 .done
      [.b1 template, .b1 1, .b1 0xFF, .b1 0xFF, f2 worst, f1? (s.tex.load.map (·.template)),
       fBool (kinds.any itemCallField)] s
      (s.setTex ⟨tset s.tex.templates template.toNat (some ⟨[⟨kinds, worst⟩], kinds.any itemCallField⟩), none⟩))) ∧
  (∀ h template wc ic items s kinds worst w f, Addressed h s → template.toNat ≤ 63 → 1 ≤ wc.toNat → wc.toNat ≤ 4 →
    1 ≤ ic.toNat → ic.toNat ≤ 24 → (1 < wc.toNat ∨ 7 < ic.toNat) → (items.take (min 7 ic.toNat)).any itemBad = false →
    kinds = (items.take (min 7 ic.toNat)).map itemOf → worst = (kinds.map itemWorst).sum → worst ≤ 32 →
    (w, f) = (if 7 < ic.toNat then (0, 7) else (1, 0)) →
    exec (.templateSet h template wc 0 ic 0 items) s = .next (answered h 0x74 .done
      [.b1 template, .b1 0, f1 w, f1 f, f2 worst, f1? (s.tex.load.map (·.template)), .b1 0] s
      (s.setTex { s.tex with load := some ⟨template.toNat, wc.toNat, [⟨ic.toNat, kinds, worst⟩], w, f⟩ }))) ∧
  (∀ h template wc wi ic first items s, Addressed h s → template.toNat ≤ 63 → 1 ≤ wc.toNat → wc.toNat ≤ 4 →
    templateCellBad wc.toNat wi.toNat ic.toNat first.toNat items = false → ¬(wi.toNat = 0 ∧ first.toNat = 0) →
    (∀ l, s.tex.load = some l → l.template ≠ template.toNat ∨ l.wordingCount ≠ wc.toNat ∨ l.nextWording ≠ wi.toNat ∨
      l.nextFirst ≠ first.toNat ∨ (0 < first.toNat ∧ ∃ before v, l.wordings = before ++ [v] ∧ v.itemCount ≠ ic.toNat)) →
    exec (.templateSet h template wc wi ic first items) s = .next (refusedBy h 0x74 .state s)) ∧
  (∀ h template wc wi ic first items s l before v kinds worst ws, Addressed h s → template.toNat ≤ 63 → 1 ≤ wc.toNat →
    wc.toNat ≤ 4 → templateCellBad wc.toNat wi.toNat ic.toNat first.toNat items = false →
    ¬(wi.toNat = 0 ∧ first.toNat = 0) → s.tex.load = some l → l.template = template.toNat → l.wordingCount = wc.toNat →
    l.nextWording = wi.toNat → l.nextFirst = first.toNat →
    (first.toNat = 0 ∧ l.wordings = before ∧ v = ⟨ic.toNat, [], 0⟩) ∨
      (0 < first.toNat ∧ l.wordings = before ++ [v] ∧ v.itemCount = ic.toNat) →
    kinds = (items.take (min 7 (ic.toNat - first.toNat))).map itemOf → worst = v.worst + (kinds.map itemWorst).sum →
    ws = before ++ [⟨ic.toNat, v.items ++ kinds, worst⟩] →
    (32 < worst → exec (.templateSet h template wc wi ic first items) s = .next (refusedBy h 0x74 .badarg s)) ∧
    (worst ≤ 32 → first.toNat + 7 < ic.toNat →
      exec (.templateSet h template wc wi ic first items) s = .next (answered h 0x74 .done
        [.b1 template, .b1 0, .b1 wi, f1 (first.toNat + 7), f2 worst, .b1 0xFF, .b1 0] s
        (s.setTex { s.tex with load := some { l with wordings := ws, nextWording := wi.toNat, nextFirst := first.toNat + 7 } }))) ∧
    (worst ≤ 32 → ic.toNat ≤ first.toNat + 7 → wi.toNat + 1 < wc.toNat →
      exec (.templateSet h template wc wi ic first items) s = .next (answered h 0x74 .done
        [.b1 template, .b1 0, f1 (wi.toNat + 1), .b1 0, f2 worst, .b1 0xFF, .b1 0] s
        (s.setTex { s.tex with load := some { l with wordings := ws, nextWording := wi.toNat + 1, nextFirst := 0 } }))) ∧
    (worst ≤ 32 → ic.toNat ≤ first.toNat + 7 → wi.toNat + 1 = wc.toNat → ∀ flag,
      (flag = true ↔ ∃ w ∈ ws, ∃ x ∈ w.items, itemCallField x = true) →
      exec (.templateSet h template wc wi ic first items) s = .next (answered h 0x74 .done
        [.b1 template, .b1 1, .b1 0xFF, .b1 0xFF, f2 worst, .b1 0xFF, fBool flag] s
        (s.setTex ⟨tset s.tex.templates template.toNat (some ⟨ws.map fun w => ⟨w.items, w.worst⟩, flag⟩), none⟩))))

/-- R128 to R132: what a wording expands to: the concatenation of what its items give, with MISSING_PHRASE where an item left a fragment out. PHRASE, DESTINATION, VIA and PLATFORM give the clips of their phrases, PAUSE its pause, SCHED_TIME and EXPECTED_TIME hour and minute of the day in two or three phrases, DELAY_MINUTES the delay in whole minutes from 0 to 99. An absent phrase, a platform of 0 and a call-field item without call fields are left out. The worst-case count bounds the fragments, with a via list of at most four. A template that is not loaded, and one whose wordings are all empty, expand to nothing. -/
def Obligations.ItemsExpandToFragments : Prop :=
  (∀ s call w, (expandWording s call w).fragments = w.items.flatMap (fun i => (expandWording s call ⟨[i], 0⟩).fragments) ∧
    ((expandWording s call w).missing = true ↔ ∃ i ∈ w.items, (expandWording s call ⟨[i], 0⟩).missing = true)) ∧
  (∀ s call n, expandWording s call ⟨[.pause n], 0⟩ = ⟨[.pause n], false⟩) ∧
  (∀ s call (clip : Nat → Option Fragment) (ids : List Nat) i, (∀ id p, tget s.cmc.phrases id = some p → clip id = some (.clip p.start p.length)) →
    (∀ id, tget s.cmc.phrases id = none → clip id = none) →
    (∃ id, i = .phrase id ∧ ids = [id]) ∨
      (∃ c, call = some c ∧ i = .platform ∧ c.platform ≠ 0 ∧ ids = [c.platform]) ∨
      (∃ c, call = some c ∧ i = .destination ∧ ids = [c.destination]) ∨
      (∃ c, call = some c ∧ i = .via ∧ ids = c.via) ∨
      (∃ c, call = some c ∧ i = .delayMinutes ∧
        ids = [if c.delay < 0 then 0 else min 99 (c.delay.toNat / 6000)]) ∨
      (∃ (c : CallInfo) (t : Time) (hour minute : Nat), call = some c ∧
        ((i = .schedTime ∧ t = c.scheduled) ∨ (i = .expectedTime ∧ t = c.scheduled + BitVec.ofInt 32 c.delay)) ∧
        hour = t.toNat / 6000 % 1440 / 60 ∧ minute = t.toNat / 6000 % 1440 % 60 ∧
        ids = (if minute = 0 then [hour, 100] else if minute ≤ 9 then [hour, 101, minute] else [hour, minute])) →
    expandWording s call ⟨[i], 0⟩ = ⟨ids.filterMap clip, (ids.map clip).contains none⟩) ∧
  (∀ s i, itemCallField i = true → expandWording s none ⟨[i], 0⟩ = ⟨[], true⟩) ∧
  (∀ s c, c.platform = 0 → expandWording s (some c) ⟨[.platform], 0⟩ = ⟨[], true⟩) ∧
  (∀ s call w, (∀ c, call = some c → c.via.length ≤ 4) →
    (expandWording s call w).fragments.length ≤ (w.items.map itemWorst).sum) ∧
  (∀ s template deadline call late, tget s.tex.templates template = none ∨
      (∃ x, tget s.tex.templates template = some x ∧ ∀ w ∈ x.wordings, (expandWording s call w).fragments = []) →
    expand s template deadline call late = none) ∧
  (∀ s template deadline call late x y, tget s.tex.templates template = some x →
    expand s template deadline call late = some y → y.fragments ≠ [] ∧ y.duration = listDuration y.fragments ∧
      ∃ w ∈ x.wordings, expandWording s call w = ⟨y.fragments, y.missing⟩)

/-- R151, R152: PLAN_SET. Its BADARG checks, with a template above 63 among them (the model's reading, log 34); STATE while a SCHEDULED or OPEN call names the plan, for every cell and a removal; STATE for a cell that does not fit the load under way; BADARG where a second trigger of a special role would result. A removal makes the entry not loaded; a cell at first trigger 0 begins a load and discards the one under way; a cell that fits is taken, and the last one replaces the entry whole with the margin and threshold of the first cell. -/
def Obligations.PlanSetLoadsAPlan : Prop :=
  (∀ h plan count margin threshold first triggers s, Addressed h s → 31 < plan.toNat ∨ 8 < count.toNat ∨ (1 ≤ count.toNat ∧
      (first.toNat ∉ [0, 2, 4, 6] ∨ count.toNat ≤ first.toNat ∨ ∃ x ∈ triggers.take (min 2 (count.toNat - first.toNat)),
        3 < x.role.toNat ∨ 2 < x.target.toNat ∨ (x.cls.toNat ≠ 2 ∧ x.cls.toNat ≠ 3) ∨ 15 < x.priority.toNat ∨
        3 < x.flags.toNat ∨ 1 < x.deadlinePresent.toNat ∨ 63 < x.template.toNat ∨
        (x.role.toNat = 0 ∧ 8640000 < x.offset.toInt.natAbs) ∨
        (x.deadlinePresent.toNat = 1 ∧ 8640000 < x.deadlineOffset.toInt.natAbs))) →
    exec (.planSet h plan count margin threshold first triggers) s = .next (refusedBy h 0x92 .badarg s)) ∧
  (∀ h plan count margin threshold first triggers s k, Addressed h s → plan.toNat ≤ 31 → count.toNat ≤ 8 →
    count.toNat = 0 ∨ planCellBad count.toNat first.toNat triggers = false → k < 256 →
    (tget s.csc.calls k).state = .scheduled ∨ (tget s.csc.calls k).state = .open →
    (tget s.csc.calls k).plan = plan.toNat →
    exec (.planSet h plan count margin threshold first triggers) s = .next (refusedBy h 0x92 .state s)) ∧
  (∀ h plan margin threshold first triggers s, Addressed h s → plan.toNat ≤ 31 →
    (∀ k, k < 256 → (tget s.csc.calls k).state = .scheduled ∨ (tget s.csc.calls k).state = .open →
      (tget s.csc.calls k).plan ≠ plan.toNat) →
    exec (.planSet h plan 0 margin threshold first triggers) s = .next (answered h 0x92 .done
      [.b1 plan, .b1 2, .b1 0xFF, f1? (s.csc.load.map (·.plan)), f2 (planCalls s plan.toNat)] s
      (s.setCsc { s.csc with plans := tset s.csc.plans plan.toNat none, load := none }))) ∧
  (∀ h plan count margin threshold first triggers s, Addressed h s → plan.toNat ≤ 31 → 1 ≤ count.toNat →
    count.toNat ≤ 8 → planCellBad count.toNat first.toNat triggers = false →
    (∀ k, k < 256 → (tget s.csc.calls k).state = .scheduled ∨ (tget s.csc.calls k).state = .open →
      (tget s.csc.calls k).plan ≠ plan.toNat) →
    first.toNat ≠ 0 →
    (∀ l, s.csc.load = some l → l.plan ≠ plan.toNat ∨ l.triggerCount ≠ count.toNat ∨ l.nextFirst ≠ first.toNat) →
    exec (.planSet h plan count margin threshold first triggers) s = .next (refusedBy h 0x92 .state s)) ∧
  (∀ h plan count margin threshold first triggers s before m d old ts, Addressed h s → plan.toNat ≤ 31 →
    1 ≤ count.toNat → count.toNat ≤ 8 → planCellBad count.toNat first.toNat triggers = false → triggers.length = 2 →
    (∀ k, k < 256 → (tget s.csc.calls k).state = .scheduled ∨ (tget s.csc.calls k).state = .open →
      (tget s.csc.calls k).plan ≠ plan.toNat) →
    (first.toNat = 0 ∧ before = [] ∧ m = margin.toNat ∧ d = threshold.toNat ∧ old = s.csc.load.map (·.plan)) ∨
      (first.toNat ≠ 0 ∧ s.csc.load = some ⟨plan.toNat, count.toNat, m, d, before, first.toNat⟩ ∧
        before.length = first.toNat ∧ old = none) →
    ts = before ++ (triggers.take (min 2 (count.toNat - first.toNat))).map triggerOf →
    (∀ role, role ≠ .normal → 1 < (ts.filter fun x => x.role == role).length →
      exec (.planSet h plan count margin threshold first triggers) s = .next (refusedBy h 0x92 .badarg s)) ∧
    ((∀ role, role ≠ .normal → (ts.filter fun x => x.role == role).length ≤ 1) → first.toNat + 2 < count.toNat →
      exec (.planSet h plan count margin threshold first triggers) s = .next (answered h 0x92 .done
        [.b1 plan, .b1 0, f1 (first.toNat + 2), f1? old, f2 (planCalls s plan.toNat)] s
        (s.setCsc { s.csc with load := some ⟨plan.toNat, count.toNat, m, d, ts, first.toNat + 2⟩ }))) ∧
    ((∀ role, role ≠ .normal → (ts.filter fun x => x.role == role).length ≤ 1) → count.toNat ≤ first.toNat + 2 →
      exec (.planSet h plan count margin threshold first triggers) s = .next (answered h 0x92 .done
        [.b1 plan, .b1 1, .b1 0xFF, f1? old, f2 (planCalls s plan.toNat)] s
        (s.setCsc { s.csc with plans := tset s.csc.plans plan.toNat (some ⟨m, d, ts⟩), load := none }))))

/-- R134, R133: with a deadline the expander hands on the longest wording that is not empty and fits the budget, the lowest index among equals; when none fits, the shortest that is not empty, with OVERRUN. Without a deadline it hands on wording 0. R135: a wording chosen within its budget has a latest start at or after T, and ends by the start of its deadline's tick when it starts then. -/
def Obligations.TheLongestWordingThatFitsIsChosen : Prop :=
  (∀ (s : State) (ws : List WordingExpansion) (d : Time) (budget : Int),
    budget = (d - (now s).1).toInt * 480 - (now s).2 →
    (∀ (i : Nat) (w : WordingExpansion), ws[i]? = some w → w.fragments ≠ [] → (listDuration w.fragments : Int) ≤ budget →
      (∀ (j : Nat) (v : WordingExpansion), ws[j]? = some v → v.fragments ≠ [] → (listDuration v.fragments : Int) ≤ budget →
        listDuration v.fragments < listDuration w.fragments ∨ (listDuration v.fragments = listDuration w.fragments ∧ i ≤ j)) →
      chooseWording s (some d) ws = some (w, false)) ∧
    ((∀ w ∈ ws, w.fragments = [] ∨ budget < (listDuration w.fragments : Int)) →
      ∀ (i : Nat) (w : WordingExpansion), ws[i]? = some w → w.fragments ≠ [] →
      (∀ (j : Nat) (v : WordingExpansion), ws[j]? = some v → v.fragments ≠ [] →
        listDuration w.fragments < listDuration v.fragments ∨ (listDuration v.fragments = listDuration w.fragments ∧ i ≤ j)) →
      chooseWording s (some d) ws = some (w, true)) ∧
    ((∀ w ∈ ws, w.fragments = []) → chooseWording s (some d) ws = none)) ∧
  (∀ s (w : WordingExpansion) ws, w.fragments ≠ [] → chooseWording s none (w :: ws) = some (w, false)) ∧
  (∀ s (w : WordingExpansion) ws, w.fragments = [] → chooseWording s none (w :: ws) = none) ∧
  (∀ s template deadline call late x, expand s template (some deadline) call late = some x →
    x.overrun = false → ∃ l, x.latestStart = some l ∧ earlier l (now s).1 = false ∧
      (deadline - l).toInt * 480 < x.duration + 480 ∧ (x.duration : Int) ≤ (deadline - l).toInt * 480)

/-! ### Timetable and calls (Chapter 9) -/

/-- R149: PLATFORM_SET writes both sets of one entry and answers DONE with the sets written and the sets held before; a platform of 0 or above 32 is refused with BADARG, and no state check applies. Firings read the new sets. Broadcast, it writes the entry without a reply. The frame period has begun; what a command given before that does, TheStartOfAFramePeriod says. -/
def Obligations.PlatformSetWritesBothSets : Prop :=
  (∀ h platform ps cs s, Addressed h s → platform.toNat = 0 ∨ platform.toNat > 32 →
    exec (.platformSet h platform ps cs) s = .next (refusedBy h 0x91 .badarg s)) ∧
  (∀ h platform ps cs s old t, 1 ≤ platform.toNat → platform.toNat ≤ 32 →
    old = tget s.csc.platforms (platform.toNat - 1) →
    t = s.setCsc { s.csc with platforms := tset s.csc.platforms (platform.toNat - 1) ⟨ps, cs⟩ } →
    (Addressed h s → exec (.platformSet h platform ps cs) s = .next (answered h 0x91 .done
      [.b1 platform, .zones ps, .zones cs, .zones old.platformZones, .zones old.concourseZones] s t)) ∧
    (h.addr = 15 → s.period.started = true →
      exec (.platformSet h platform ps cs) s = .next (t.setFree (s.free + 1))) ∧
    (∀ c : Call, c.platform = platform.toNat → targetZones t c .platform = ps ∧ targetZones t c .concourse = cs ∧
      targetZones t c .both = ps ||| cs))

/-- R155, R156: CALL_LOAD. BADARG, NOENT for a plan that is not loaded, STATE for a slot in use. An accepted one replaces the record whole: SCHEDULED, delay clamped, every trigger PENDING without a handle, every NORMAL trigger in the due list at its fire time and no special one; other calls and entries stay. The frame period notes the slot, so that no trigger of it fires in this period. -/
def Obligations.CallLoadSchedulesACall : Prop :=
  (∀ h c s, Addressed h s → c.kind.toNat > 1 ∨ c.destination.toNat > 1023 ∨ c.viaCount.toNat > 4 ∨
      c.platform.toNat > 32 ∨ c.plan.toNat > 31 ∨ (∃ v ∈ c.via.take c.viaCount.toNat, v.toNat > 1023) →
    exec (.callLoad h c) s = .next (refusedBy h 0x93 .badarg s)) ∧
  (∀ h c s, Addressed h s → callFieldsBad c = false → tget s.csc.plans c.plan.toNat = none →
    exec (.callLoad h c) s = .next (refusedBy h 0x93 .noent s)) ∧
  (∀ h c s p, Addressed h s → callFieldsBad c = false → tget s.csc.plans c.plan.toNat = some p →
    (tget s.csc.calls c.slot.toNat).state = .scheduled ∨ (tget s.csc.calls c.slot.toNat).state = .open ∨
      ((tget s.csc.calls c.slot.toNat).state = .cancelled ∧ ∃ x ∈ (tget s.csc.calls c.slot.toNat).triggers, x.state = .fired) →
    exec (.callLoad h c) s = .next (refusedBy h 0x93 .state s)) ∧
  (∀ h c s p delay ts, Addressed h s → callFieldsBad c = false → tget s.csc.plans c.plan.toNat = some p →
    (tget s.csc.calls c.slot.toNat).state = .free ∨ (tget s.csc.calls c.slot.toNat).state = .closed ∨
      ((tget s.csc.calls c.slot.toNat).state = .cancelled ∧ ∀ x ∈ (tget s.csc.calls c.slot.toNat).triggers, x.state ≠ .fired) →
    delay = max (-360000) (min 8640000 c.delay.toInt) →
    ts = p.triggers.map (fun x => (⟨x.role, if x.role = .normal
      then c.scheduled + BitVec.ofInt 32 delay + BitVec.ofInt 32 x.offset else 0xFFFFFFFF, .pending, none⟩ : CallTrigger)) →
    ∃ t, exec (.callLoad h c) s = .next (answered h 0x93 .done
        ([.b1 c.slot, f1 (callCode (tget s.csc.calls c.slot.toNat).state), f4i delay,
          fTime (c.scheduled + BitVec.ofInt 32 delay), f2 ts.length] ++ ts.map (fun x => fTime x.fire)) s t) ∧
      t = (s.setCsc { s.csc with calls := t.csc.calls, due := t.csc.due }).setPeriod
        { s.period with loaded := s.period.loaded ++ [c.slot.toNat] } ∧
      tget t.csc.calls c.slot.toNat = ⟨.scheduled, c.number.toNat, c.kind == 1, c.destination.toNat,
        (c.via.take c.viaCount.toNat).map (·.toNat), c.scheduled, delay, c.platform.toNat, c.plan.toNat, ts, delay⟩ ∧
      (∀ k, k < 256 → k ≠ c.slot.toNat → tget t.csc.calls k = tget s.csc.calls k) ∧
      (∀ e, e ∈ t.csc.due ↔
        (e ∈ s.csc.due ∧ ∀ (i : Nat) (x : CallTrigger), ts[i]? = some x → x.role = .normal → e.item ≠ .trigger c.slot.toNat i) ∨
        (∃ (i : Nat) (x : CallTrigger), ts[i]? = some x ∧ x.role = .normal ∧ e = ⟨x.fire, .trigger c.slot.toNat i⟩)))

/-- R157, R158, R159, R73, R172: a walk that takes a due call trigger. Past its late limit it becomes MISSED with reason LATE and leaves the due list, with TRIGGER_MISSED; a target that needs a platform holds it in its place; in the frame period of the call's load it keeps its place too, where it is not past its late limit (R155; the model's reading of the order of the two, log 43); an EMPTY expansion makes it MISSED with reason EMPTY; otherwise the arbiter admits its request, here where no zone is usable, so that it waits: the trigger is FIRED with the handle, and a SCHEDULED call enters OPEN. -/
def Obligations.AWalkTakesADueTrigger : Prop :=
  (∀ s slot i c tr x, slot < 256 → c = tget s.csc.calls slot → planTrigger s c i = some tr → c.triggers[i]? = some x →
    (tr.lateLimit : Int) < timeDiff (now s).1 x.fire ∨ (timeDiff (now s).1 x.fire ≤ tr.lateLimit ∧
      (tr.target = .concourse ∨ c.platform ≠ 0) ∧ slot ∉ s.period.loaded ∧ tget s.tex.templates tr.template = none) →
    s.ch.events.length < 32 →
    takeTrigger slot i s = ((s.setCsc { s.csc with
        calls := tset s.csc.calls slot { c with triggers := c.triggers.modify i (fun y => { y with state := .missed }) }
        due := s.csc.due.filter fun e => e.item != .trigger slot i }).setCh
      { s.ch with events := s.ch.events ++ [⟨0x0A, if (tr.lateLimit : Int) < timeDiff (now s).1 x.fire then 0 else 1,
        BitVec.ofNat 16 slot, s.stc.time, s.stc.phase,
        [f1 i, f1 (roleCode x.role), f2 c.number, fTime x.fire, .b1 0xFF, .b1 0xFF]⟩] })) ∧
  (∀ s slot i c tr, c = tget s.csc.calls slot → planTrigger s c i = some tr →
    timeDiff (now s).1 (callTrigger c i).fire ≤ tr.lateLimit → tr.target ≠ .concourse → c.platform = 0 →
    takeTrigger slot i s = s) ∧
  (∀ s slot i c tr, c = tget s.csc.calls slot → planTrigger s c i = some tr →
    timeDiff (now s).1 (callTrigger c i).fire ≤ tr.lateLimit → slot ∈ s.period.loaded → takeTrigger slot i s = s) ∧
  (∀ s slot i c tr x y k r, slot < 256 → slot ∉ s.period.loaded → c = tget s.csc.calls slot → planTrigger s c i = some tr →
    c.triggers[i]? = some x → timeDiff (now s).1 x.fire ≤ tr.lateLimit → (tr.target = .concourse ∨ c.platform ≠ 0) →
    c.state = .scheduled → expand s tr.template (tr.deadline.map (timeAdd (expectedTime c))) (some (callInfo c))
      (some (x.fire, tr.lateLimit)) = some y →
    zdiff (targetZones s c tr.target) (offZones s) ≠ 0 →
    (∀ l, y.latestStart = some l → earlier l (now s).1 = false ∧ earlier l (lawTime s) = false) → s.zar.queue.length < 64 →
    k < 96 → (request s k).state = .free → (∀ j, j < k → (request s j).state ≠ .free) →
    (∀ z, z < 48 → lineOf s z = .off ∨ lineOf s z = .fault) → (∀ e, e < 6 → (tget s.engines e).state ≠ .preroll) →
    r = firedRequest tr.cls tr.priority tr.preempt tr.resume false (zdiff (targetZones s c tr.target) (offZones s)) y
      (.call slot i) →
    ∃ t, takeTrigger slot i s = t ∧ ActFrame s t ∧
      request t k = { r with state := .waiting, minCoverage := 1, level := 16384, order := s.zar.nextOrder } ∧
      k ∈ t.zar.queue ∧ (tget t.csc.calls slot).state = .open ∧
      (tget t.csc.calls slot).triggers[i]? = some { x with state := .fired, handle := some k } ∧
      (∀ e, e ∈ t.csc.due ↔ e ∈ s.csc.due ∧ e.item ≠ .trigger slot i) ∧
      (t.ch.eventLost = true ∨ ∃ u, t.ch.events = s.ch.events ++ [⟨0x0C, 2, BitVec.ofNat 16 slot, s.stc.time, s.stc.phase,
        [.b1 1, f2 c.number, fBool c.arrival, fTime (expectedTime c)] ++ u⟩]))

/-- R161, R160, R170: the scheduler's record of an end. A request of a call trigger that ends COMPLETE makes the trigger SOUNDED, CANCELLED SUPERSEDED, WITHDRAWN PENDING again, a NORMAL one at its fire time from the call's fields as they stand; any other cause makes it MISSED with reason ENDED and TRIGGER_MISSED. The handle is cleared, the call's state stands, and an outcome walk becomes due. The end of a periodic request clears the entry's previous request. R167: a call that is past its expected time by its close margin, with no trigger FIRED, closes at the test of a tick end: its PENDING triggers become SUPERSEDED and leave the due list, with CALL_STATE; otherwise it stands. -/
def Obligations.OutcomesAndClosesOfCalls : Prop :=
  (∀ s h cause r slot i c x t, h < 96 → r = request s h → r.origin = .call slot i → slot < 256 →
    c = tget s.csc.calls slot → c.triggers[i]? = some x → t = endRequest h cause s →
    t.work = { s.work with passesDue := s.work.passesDue + 1, walksDue := s.work.walksDue + 1 } ∧
    (∀ k, k < 256 → k ≠ slot → tget t.csc.calls k = tget s.csc.calls k) ∧
    (cause = .complete → t.csc.due = s.csc.due ∧ tget t.csc.calls slot =
      { c with triggers := c.triggers.modify i fun y => { y with state := .sounded, handle := none } }) ∧
    (cause = .cancelled → t.csc.due = s.csc.due ∧ tget t.csc.calls slot =
      { c with triggers := c.triggers.modify i fun y => { y with state := .superseded, handle := none } }) ∧
    (cause = .withdrawn → x.role ≠ .normal → t.csc.due = s.csc.due ∧ tget t.csc.calls slot =
      { c with triggers := c.triggers.modify i fun y => { y with state := .pending, handle := none } }) ∧
    (∀ tr fire, cause = .withdrawn → x.role = .normal → planTrigger s c i = some tr →
      fire = c.scheduled + BitVec.ofInt 32 c.delay + BitVec.ofInt 32 tr.offset →
      (tget t.csc.calls slot = { c with triggers := c.triggers.modify i fun y =>
        { y with state := .pending, handle := none, fire := fire } }) ∧
      ∀ e, e ∈ t.csc.due ↔ (e ∈ s.csc.due ∧ e.item ≠ .trigger slot i) ∨ e = ⟨fire, .trigger slot i⟩) ∧
    (cause = .released ∨ cause = .preempted ∨ cause = .zoneLost ∨ cause = .expired → t.csc.due = s.csc.due ∧
      (tget t.csc.calls slot =
        { c with triggers := c.triggers.modify i fun y => { y with state := .missed, handle := none } }) ∧
      (s.ch.events.length + 2 ≤ 32 → ∃ d, t.ch.events = s.ch.events ++ [d, ⟨0x0A, 6, BitVec.ofNat 16 slot, s.stc.time,
        s.stc.phase, [f1 i, f1 (roleCode x.role), f2 c.number, fTime x.fire, f1 (causeCode cause), f1 h]⟩]))) ∧
  (∀ s h cause r i t, h < 96 → r = request s h → r.origin = .periodic i → i < 16 → t = endRequest h cause s →
    t.work = { s.work with passesDue := s.work.passesDue + 1, walksDue := s.work.walksDue + 1 } ∧
    tget t.csc.periodics i = { tget s.csc.periodics i with previous := none } ∧
    t.csc.calls = s.csc.calls ∧ t.csc.due = s.csc.due) ∧
  (∀ s slot c p new, slot < 256 → c = tget s.csc.calls slot → c.state = .scheduled ∨ c.state = .open →
    (∀ x ∈ c.triggers, x.state ≠ .fired) → callPlan s c = some p →
    0 ≤ timeDiff (now s).1 (expectedTime c + BitVec.ofNat 32 p.closeMargin) →
    new = { c with
      state := .closed, triggers := c.triggers.map fun x => if x.state = .pending then { x with state := .superseded } else x } →
    ∃ t, closeCall s slot = t ∧ tget t.csc.calls slot = new ∧
      (∀ k, k < 256 → k ≠ slot → tget t.csc.calls k = tget s.csc.calls k) ∧
      (∀ e, e ∈ t.csc.due ↔ e ∈ s.csc.due ∧ ∀ (i : Nat) (x : CallTrigger), c.triggers[i]? = some x → x.state = .pending →
        e.item ≠ .trigger slot i) ∧
      (s.ch.events.length < 32 → t.ch.events = s.ch.events ++ [⟨0x0C, 3, BitVec.ofNat 16 slot, s.stc.time, s.stc.phase,
        [f1 (callCode c.state), f2 c.number, fBool c.arrival, fTime (expectedTime c)] ++
          (List.range 8).map fun i => f1? (new.triggers[i]?.map fun x => triggerCode x.state)⟩]) ∧
      t = (s.setCsc { s.csc with calls := t.csc.calls, due := t.csc.due }).setCh t.ch) ∧
  (∀ s slot c, c = tget s.csc.calls slot → (c.state ≠ .scheduled ∧ c.state ≠ .open) ∨ (∃ x ∈ c.triggers, x.state = .fired) ∨
    callPlan s c = none ∨
    (∃ p, callPlan s c = some p ∧ timeDiff (now s).1 (expectedTime c + BitVec.ofNat 32 p.closeMargin) < 0) →
    closeCall s slot = s) ∧
  (∀ s slot c p, s.period.started = true → s.period.tickTaken = false → s.stc.tickLength ≤ s.stc.phase + 1 →
    s.stc.status ≠ .unset → Settled s → s.zar.queue = [] → (∀ e ∈ s.csc.due, 0 < timeDiff e.time (s.stc.time + 1)) →
    slot < 256 → c = tget s.csc.calls slot → c.state = .scheduled ∨ c.state = .open →
    (∀ x ∈ c.triggers, x.state ≠ .fired) → callPlan s c = some p →
    ∃ t, exec .tickEnd s = .next t ∧ tget t.csc.calls slot =
      if 0 ≤ timeDiff (s.stc.time + 1) (expectedTime c + BitVec.ofNat 32 p.closeMargin)
      then { c with state := .closed, triggers := c.triggers.map fun x =>
        if x.state = .pending then { x with state := .superseded } else x }
      else c)

/-- R164, R165, R163: special triggers. In UNSET none fires; a FIRED one is skipped with TRIGGER_SKIPPED; one whose target needs a platform that the call has not is MISSED with reason NO_PLATFORM, and one whose expansion is EMPTY with reason EMPTY; otherwise it is fired with T as its fire time, and where the arbiter admits it, here with no zone usable, it is FIRED with the handle. ALTERATION and DELAY_NOTICE qualify by R165, and no amendment that writes the values the call already holds qualifies (R162; one that changes the platform alone: log 44). The last notified delay follows a DELAY_NOTICE whose firing was made. That a special trigger's outcome in UNSET is NONE, and that a MISSED firing counts as made, also for lack of a platform, is the model's reading (log 33). An amendment moves a PENDING NORMAL trigger to its new fire time, withdraws the WAITING request of a FIRED one, here in time status UNSET, so that it stays PENDING at its new fire time, and leaves every other trigger. -/
def Obligations.SpecialTriggersAndWithdrawals : Prop :=
  (∀ s slot i, s.stc.status = .unset → fireSpecial slot i s = (s, .none)) ∧
  (∀ s slot i c tr x, s.stc.status ≠ .unset → c = tget s.csc.calls slot → planTrigger s c i = some tr →
    c.triggers[i]? = some x → x.state = .fired → s.ch.events.length < 32 →
    fireSpecial slot i s = (s.setCh { s.ch with events := s.ch.events ++ [⟨0x0B, BitVec.ofNat 8 (roleCode x.role),
      BitVec.ofNat 16 slot, s.stc.time, s.stc.phase, [f1 i, f2 c.number, f1? x.handle]⟩] }, .skipped)) ∧
  (∀ s slot i c tr x (plat : Prop) [Decidable plat], s.stc.status ≠ .unset → slot < 256 → c = tget s.csc.calls slot →
    planTrigger s c i = some tr → c.triggers[i]? = some x → x.state ≠ .fired →
    (plat ↔ tr.target ≠ .concourse ∧ c.platform = 0) → plat ∨ tget s.tex.templates tr.template = none →
    s.ch.events.length < 32 → Settled s →
    fireSpecial slot i s = ((s.setCsc { s.csc with
        calls := tset s.csc.calls slot { c with triggers := c.triggers.modify i (fun y => { y with state := .missed }) }
        due := s.csc.due.filter fun e => e.item != .trigger slot i }).setCh
      { s.ch with events := s.ch.events ++ [⟨0x0A, if plat then 5 else 1, BitVec.ofNat 16 slot, s.stc.time, s.stc.phase,
        [f1 i, f1 (roleCode x.role), f2 c.number, fTime x.fire, .b1 0xFF, .b1 0xFF]⟩] }, .missed)) ∧
  (∀ s slot i c tr x y k r, s.stc.status ≠ .unset → slot < 256 → c = tget s.csc.calls slot → planTrigger s c i = some tr →
    c.triggers[i]? = some x → x.state ≠ .fired → (tr.target = .concourse ∨ c.platform ≠ 0) →
    expand s tr.template (tr.deadline.map (timeAdd (expectedTime c))) (some (callInfo c))
      (some ((now s).1, tr.lateLimit)) = some y →
    zdiff (targetZones s c tr.target) (offZones s) ≠ 0 →
    (∀ l, y.latestStart = some l → earlier l (now s).1 = false ∧ earlier l (lawTime s) = false) →
    s.zar.queue.length < 64 → k < 96 → (request s k).state = .free → (∀ j, j < k → (request s j).state ≠ .free) →
    (∀ z, z < 48 → lineOf s z = .off ∨ lineOf s z = .fault) → (∀ e, e < 6 → (tget s.engines e).state ≠ .preroll) →
    Settled s →
    r = firedRequest tr.cls tr.priority tr.preempt tr.resume false (zdiff (targetZones s c tr.target) (offZones s)) y
      (.call slot i) →
    ∃ t, fireSpecial slot i s = (t, .admitted) ∧ ActFrame s t ∧
      request t k = { r with state := .waiting, minCoverage := 1, level := 16384, order := s.zar.nextOrder } ∧
      k ∈ t.zar.queue ∧ (tget t.csc.calls slot).triggers[i]? = some { x with state := .fired, handle := some k }) ∧
  (∀ (old : Call) set platform, alterationQualifies old set platform = true ↔
    set = true ∧ old.state = .open ∧ platform ≠ old.platform) ∧
  (∀ s (old new : Call) set, delayQualifies s old new set = true ↔ set = true ∧ old.state = .open ∧ new ≠ old ∧
    old.lastNotified < new.delay ∧ ∃ p, callPlan s old = some p ∧ (p.threshold : Int) ≤ new.delay - old.lastNotified) ∧
  (∀ s slot o delay qualified, slot < 256 → noteDelay slot qualified o delay s =
    if qualified = true ∧ (o = .admitted ∨ o = .missed)
    then s.setCsc { s.csc with calls := tset s.csc.calls slot { tget s.csc.calls slot with lastNotified := delay } }
    else s) ∧
  (∀ s slot i c tr x w fire, slot < 256 → c = tget s.csc.calls slot → c.triggers[i]? = some x → x.state = .pending →
    x.role = .normal → planTrigger s c i = some tr →
    fire = c.scheduled + BitVec.ofInt 32 c.delay + BitVec.ofInt 32 tr.offset →
    ∃ t, amendTrigger slot (s, w) i = (t, w) ∧ t = s.setCsc { s.csc with
        calls := tset s.csc.calls slot { c with triggers := c.triggers.modify i fun y => { y with fire := fire } }
        due := t.csc.due } ∧
      ∀ e, e ∈ t.csc.due ↔ (e ∈ s.csc.due ∧ e.item ≠ .trigger slot i) ∨ e = ⟨fire, .trigger slot i⟩) ∧
  (∀ s slot i c tr x w fire h r, slot < 256 → h < 96 → c = tget s.csc.calls slot → c.triggers[i]? = some x →
    x.state = .fired → x.handle = some h → r = request s h → r.state = .waiting → r.origin = .call slot i →
    r.engine = none → x.role = .normal → planTrigger s c i = some tr → s.stc.status = .unset → Settled s →
    (∀ z, z < 48 → lineOf s z = .off ∨ lineOf s z = .fault) → (∀ e, e < 6 → (tget s.engines e).state ≠ .preroll) →
    fire = c.scheduled + BitVec.ofInt 32 c.delay + BitVec.ofInt 32 tr.offset →
    ∃ t, amendTrigger slot (s, w) i = (t, { w with normal := w.normal + 1 }) ∧ ActFrame s t ∧
      request t h = freeRequest ∧ (tget t.csc.calls slot).triggers[i]? =
        some { x with state := .pending, handle := none, fire := fire } ∧
      ∀ e, e ∈ t.csc.due ↔ (e ∈ s.csc.due ∧ e.item ≠ .trigger slot i) ∨ e = ⟨fire, .trigger slot i⟩) ∧
  (∀ s slot i c x w, c = tget s.csc.calls slot → c.triggers[i]? = some x →
    x.state = .sounded ∨ x.state = .missed ∨ x.state = .superseded ∨ (x.state = .pending ∧ x.role ≠ .normal) ∨
      (∃ h, x.state = .fired ∧ x.handle = some h ∧ (request s h).state ≠ .waiting) →
    amendTrigger slot (s, w) i = (s, w))

/-- R162, R163, R165, R171: CALL_AMEND. BADARG and STATE; an accepted one writes the delay, clamped, or the platform, or both, and the rest is the scheduler's and the arbiter's. The last notified delay either stands or becomes the new delay; a call amended while SCHEDULED, or with the values it already holds (R162), with no special trigger FIRED, has no special firing. In time status UNSET, with no trigger FIRED, every PENDING NORMAL trigger moves to its new fire time and nothing fires; that both special outcomes are then NONE even where they qualify is the model's reading (log 33). -/
def Obligations.CallAmendRewritesACall : Prop :=
  (∀ h slot flags delay platform s, Addressed h s →
    flags.toNat = 0 ∨ flags.toNat > 3 ∨ (flags.getLsbD 1 = true ∧ platform.toNat > 32) →
    exec (.callAmend h slot flags delay platform) s = .next (refusedBy h 0x94 .badarg s)) ∧
  (∀ h slot flags delay platform s, Addressed h s → 1 ≤ flags.toNat → flags.toNat ≤ 3 →
    (flags.getLsbD 1 = true → platform.toNat ≤ 32) →
    (tget s.csc.calls slot.toNat).state ≠ .scheduled → (tget s.csc.calls slot.toNat).state ≠ .open →
    exec (.callAmend h slot flags delay platform) s = .next (refusedBy h 0x94 .state s)) ∧
  (∀ h slot flags delay platform s old new, Addressed h s → 1 ≤ flags.toNat → flags.toNat ≤ 3 →
    (flags.getLsbD 1 = true → platform.toNat ≤ 32) → old = tget s.csc.calls slot.toNat →
    old.state = .scheduled ∨ old.state = .open →
    new = { old with delay := (if flags.getLsbD 0 then max (-360000) (min 8640000 delay.toInt) else old.delay)
                     platform := (if flags.getLsbD 1 then platform.toNat else old.platform) } →
    ∃ t st last n w a d, exec (.callAmend h slot flags delay platform) s = .next (answered h 0x94 .done
        [.b1 slot, f1 (callCode st), f4i new.delay, f1 new.platform, fTime (new.scheduled + BitVec.ofInt 32 new.delay),
         f2 w, f2 n, f1 (specialCode a), f1 (specialCode d), f4i last] s t) ∧
      st = (tget t.csc.calls slot.toNat).state ∧ (last = old.lastNotified ∨ last = new.delay) ∧
      (old.state = .scheduled ∨ new = old → last = old.lastNotified) ∧
      ActFrame (s.setCsc { s.csc with
        calls := tset s.csc.calls slot.toNat { new with lastNotified := last } }) t ∧
      (old.state = .scheduled ∨ new = old → DueListLaw s →
        (∀ (i : Nat) (x : CallTrigger), old.triggers[i]? = some x → x.role ≠ .normal → x.state ≠ .fired) →
        a = .none ∧ d = .none) ∧
      (s.stc.status = .unset → (∀ (i : Nat) (x : CallTrigger), old.triggers[i]? = some x → x.state ≠ .fired) →
        (a = .none ∧ d = .none ∧ last = old.lastNotified) ∧
        ∀ (i : Nat) (x : CallTrigger) (tr : Trigger), old.triggers[i]? = some x → x.state = .pending → x.role = .normal → planTrigger s old i = some tr →
          (tget t.csc.calls slot.toNat).triggers[i]? =
            some { x with fire := new.scheduled + BitVec.ofInt 32 new.delay + BitVec.ofInt 32 tr.offset } ∧
          ⟨new.scheduled + BitVec.ofInt 32 new.delay + BitVec.ofInt 32 tr.offset, .trigger slot.toNat i⟩ ∈ t.csc.due))

/-- R166, R172: CALL_CANCEL. STATE unless the call is SCHEDULED or OPEN; an accepted one leaves the call CANCELLED, with CALL_STATE behind the events of its steps, and the rest is the scheduler's and the arbiter's. A SCHEDULED call without a FIRED trigger is cancelled in silence: every PENDING trigger becomes SUPERSEDED and leaves the due list. R168: CALL_CLEAR frees a CLOSED or CANCELLED slot without a FIRED trigger, and is refused with STATE otherwise. -/
def Obligations.CallCancelAndCallClear : Prop :=
  (∀ h slot s, Addressed h s → (tget s.csc.calls slot.toNat).state ≠ .scheduled →
    (tget s.csc.calls slot.toNat).state ≠ .open →
    exec (.callCancel h slot) s = .next (refusedBy h 0x95 .state s)) ∧
  (∀ h slot s old, Addressed h s → old = tget s.csc.calls slot.toNat → old.state = .scheduled ∨ old.state = .open →
    ∃ t n o u, exec (.callCancel h slot) s = .next (answered h 0x95 .done
        [.b1 slot, f1 (callCode old.state),
         f2 (old.triggers.filter fun x => x.state == .pending && x.role != .cancellation).length, f2 n,
         f1 (specialCode o)] s t) ∧
      ActFrame s t ∧ (tget t.csc.calls slot.toNat).state = .cancelled ∧
      (t.ch.eventLost = true ∨ t.ch.events.getLast? = some ⟨0x0C, 4, BitVec.ofNat 16 slot.toNat, s.stc.time, s.stc.phase,
        [f1 (callCode old.state), f2 old.number, fBool old.arrival, fTime (expectedTime old)] ++ u⟩) ∧
      (old.state = .scheduled → (∀ (i : Nat) (x : CallTrigger), old.triggers[i]? = some x → x.state ≠ .fired) → n = 0 ∧ o = .none ∧
        (tget t.csc.calls slot.toNat).triggers =
          old.triggers.map (fun x => if x.state = .pending then { x with state := .superseded } else x) ∧
        (∀ e, e ∈ t.csc.due ↔ e ∈ s.csc.due ∧ ∀ (i : Nat) (x : CallTrigger), old.triggers[i]? = some x → x.state = .pending →
          e.item ≠ .trigger slot.toNat i) ∧ t.zar = s.zar ∧ t.engines = s.engines)) ∧
  (∀ h slot s c, Addressed h s → c = tget s.csc.calls slot.toNat →
    (c.state ≠ .closed ∧ c.state ≠ .cancelled) ∨ (∃ x ∈ c.triggers, x.state = .fired) →
    exec (.callClear h slot) s = .next (refusedBy h 0x96 .state s)) ∧
  (∀ h slot s c, Addressed h s → c = tget s.csc.calls slot.toNat → c.state = .closed ∨ c.state = .cancelled →
    (∀ x ∈ c.triggers, x.state ≠ .fired) →
    exec (.callClear h slot) s = .next (answered h 0x96 .done
      ([.b1 slot, f1 (callCode c.state), f2 c.number] ++ c.triggers.map (fun x => f1 (triggerCode x.state))) s
      (s.setCsc { s.csc with calls := tset s.csc.calls slot.toNat freeCall })))

/-- R169, R156: PERIODIC_SET. Its checks in the rule's order; with present 1 it writes the entry, with skip count 0 and the previous request kept, and places it in the due list at the first due; with present 0 it makes the entry absent and takes it out of the due list. That a removal leaves the skip count is the model's reading (log 35), and the next due in its reply is free (log 13). R170: a walk that takes a due entry first fires it: a present previous request or an EMPTY expansion adds to the skip count, and an admission, here where no zone is usable, records the handle, with class INFO and a latest start of T plus one interval. Then the next due becomes that time plus the smallest whole number of intervals, one or more, for which it is after T, and the entry moves to its place there. -/
def Obligations.PeriodicEntriesAreSetAndFired : Prop :=
  (∀ h p s, Addressed h s → p.index.toNat > 15 ∨ p.present.toNat > 1 ∨ (p.present.toNat = 1 ∧
      (p.template.toNat > 63 ∨ p.flags.toNat > 7 ∨ p.priority.toNat > 15 ∨ p.interval.toNat = 0 ∨ p.zones = 0)) →
    exec (.periodicSet h p) s = .next (refusedBy h 0x97 .badarg s)) ∧
  (∀ h p s, Addressed h s → p.index.toNat ≤ 15 → p.present.toNat = 1 → periodicBad p = false →
    tget s.tex.templates p.template.toNat = none →
    exec (.periodicSet h p) s = .next (refusedBy h 0x97 .noent s)) ∧
  (∀ h p s x, Addressed h s → p.index.toNat ≤ 15 → p.present.toNat = 1 → periodicBad p = false →
    tget s.tex.templates p.template.toNat = some x → x.callField = true →
    exec (.periodicSet h p) s = .next (refusedBy h 0x97 .badarg s)) ∧
  (∀ h p s x old, Addressed h s → p.index.toNat ≤ 15 → p.present.toNat = 1 → p.template.toNat ≤ 63 → p.flags.toNat ≤ 7 →
    p.priority.toNat ≤ 15 → p.interval.toNat ≠ 0 → p.zones ≠ 0 → tget s.tex.templates p.template.toNat = some x →
    x.callField = false → old = tget s.csc.periodics p.index.toNat →
    ∃ t, exec (.periodicSet h p) s = .next (answered h 0x97 .done
        [.b1 p.index, .b1 1, fTime p.firstDue, f1? old.previous, f2 old.skips] s t) ∧
      t = s.setCsc { s.csc with periodics := t.csc.periodics, due := t.csc.due } ∧
      tget t.csc.periodics p.index.toNat = ⟨true, p.template.toNat, p.flags.getLsbD 0, p.flags.getLsbD 1,
        p.flags.getLsbD 2, p.priority.toNat, p.zones, p.interval.toNat, p.firstDue, old.previous, 0⟩ ∧
      (∀ k, k < 16 → k ≠ p.index.toNat → tget t.csc.periodics k = tget s.csc.periodics k) ∧
      (∀ e, e ∈ t.csc.due ↔ (e ∈ s.csc.due ∧ e.item ≠ .periodic p.index.toNat) ∨
        e = ⟨p.firstDue, .periodic p.index.toNat⟩)) ∧
  (∀ h p s old, Addressed h s → p.index.toNat ≤ 15 → p.present.toNat = 0 → old = tget s.csc.periodics p.index.toNat →
    ∃ t next, exec (.periodicSet h p) s = .next (answered h 0x97 .done
        [.b1 p.index, .b1 0, .b4 next, f1? old.previous, f2 old.skips] s t) ∧
      t = s.setCsc { s.csc with
        periodics := tset s.csc.periodics p.index.toNat { old with present := false }, due := t.csc.due } ∧
      (∀ e, e ∈ t.csc.due ↔ e ∈ s.csc.due ∧ e.item ≠ .periodic p.index.toNat)) ∧
  (∀ (now due : Time) (interval k : Nat) (next : Time), 1 ≤ interval → interval ≤ 6553500 → 0 ≤ timeDiff now due →
    timeDiff now due + interval ≤ 2147483647 → next = nextDueTime now due interval →
    k = (timeDiff now due).toNat / interval + 1 →
    next = due + BitVec.ofNat 32 (k * interval) ∧ 1 ≤ k ∧ earlier now next = true ∧
    timeDiff next now ≤ interval ∧ ((k - 1) * interval : Nat) ≤ timeDiff now due) ∧
  (∀ s i p, i < 16 → p = tget s.csc.periodics i → p.previous ≠ none ∨ tget s.tex.templates p.template = none →
    firePeriodic i s = s.setCsc { s.csc with
      periodics := tset s.csc.periodics i { p with skips := min 65535 (p.skips + 1) } }) ∧
  (∀ s i p y k r, i < 16 → p = tget s.csc.periodics i → p.previous = none →
    expand s p.template none none (some ((now s).1, 100 * p.interval)) = some y →
    zdiff p.zones (offZones s) ≠ 0 → earlier ((now s).1 + BitVec.ofNat 32 (100 * p.interval)) (now s).1 = false →
    earlier ((now s).1 + BitVec.ofNat 32 (100 * p.interval)) (lawTime s) = false → s.zar.queue.length < 64 →
    k < 96 → (request s k).state = .free → (∀ j, j < k → (request s j).state ≠ .free) →
    (∀ z, z < 48 → lineOf s z = .off ∨ lineOf s z = .fault) → (∀ e, e < 6 → (tget s.engines e).state ≠ .preroll) →
    r = firedRequest .info p.priority p.preempt p.resume p.repeats (zdiff p.zones (offZones s)) y (.periodic i) →
    ∃ t, firePeriodic i s = t ∧ ActFrame s t ∧
      request t k = { r with state := .waiting, minCoverage := 1, level := 16384, order := s.zar.nextOrder } ∧
      r.latestStart = some ((now s).1 + BitVec.ofNat 32 (100 * p.interval)) ∧ k ∈ t.zar.queue ∧
      tget t.csc.periodics i = { p with previous := some k } ∧ t.csc.due = s.csc.due ∧ t.ch.events = s.ch.events) ∧
  (∀ s i p next, i < 16 → p = tget s.csc.periodics i → next = nextDueTime (now s).1 p.nextDue (100 * p.interval) →
    ∃ t, rebasePeriodic i s = t ∧ t = s.setCsc { s.csc with
        periodics := tset s.csc.periodics i { p with nextDue := next }, due := t.csc.due } ∧
      ∀ e, e ∈ t.csc.due ↔ (e ∈ s.csc.due ∧ e.item ≠ .periodic i) ∨ e = ⟨next, .periodic i⟩) ∧
  (∀ s i time, takeEntry s ⟨time, .periodic i⟩ = rebasePeriodic i (firePeriodic i s))

/-! ### Queries and IDENTIFY (Chapter 10) -/

/-- R70, R93, R179 to R182, R114, R147, R173: the queries answer DONE with kind, subject, part and part count before the contents of the part, NOENT for a subject or a part that is absent, BADARG for fields out of range, and change nothing but what R180 clears: EVENT_LOST by STATUS, and every counter by COUNTERS with CLEAR. R183: IDENTIFY answers DONE with the part code 48 and the revision 1, the unit address, and the capacities of the part, which are fixed; it changes no state. Where a reply has a latest start or a length of an absent thing that field is free (log 13); that the talk count of a LIVE request whose count is not loaded is 0 is the model's choice (log 13), and the widths of small numbers (log 14) and of the unit address and IDENTIFY's fields (log 36) are its reading, as is that the fields of CALL's parts 1 and 2 end with the last trigger (log 46). -/
def Obligations.QueriesAndIdentifyReportTheState : Prop :=
  (∀ h subject s z, Addressed h s → z = subject.toNat → z ≤ 47 →
    ∃ mark, (∀ k, claim s z = .joined k → mark = .b1 1) ∧ (∀ k, claim s z = .pendingJoin k → mark = .b1 0) ∧
      (claim s z = .empty → mark = .b1 0xFF) ∧
      exec (.queryZone h ⟨subject, 0, 0⟩) s = .next (answered h 0xA1 .done
        [.b1 1, .b2 subject, .b1 0, .b2 1,
         f1 (lineCode (lineOf s z)), f1 ((tget s.zlc z).width16.toNat + 2 * (tget s.zlc z).keepAwake.toNat +
           4 * (tget s.zlc z).routeLive.toNat),
         f2 (tget s.zlc z).preroll, f2 (tget s.zlc z).hang, f2 (tget s.zlc z).wakeCount, f2 (tget s.zlc z).hangCount,
         .b1 (tget s.zlc z).faultCode, f1? (claimHandle (claim s z)), mark,
         f2 (tget s.zmx z).trim, f2 (tget s.zmx z).duckLevel, f2 (tget s.zmx z).rampStep, f2 (tget s.zmx z).duck,
         f2 (tget s.zmx z).saturation, f1? (ambientLane s z), f2 (tget s.amt z).factor, f4 (tget s.amt z).level,
         f4 (tget s.amt z).peak] s s)) ∧
  (∀ h q s, Addressed h s → q.subject.toNat > 47 ∨ q.part.toNat > 0 ∨ q.flags.toNat > 0 →
    exec (.queryZone h q) s = .next (refusedBy h 0xA1 .badarg s)) ∧
  (∀ h subject s e x, Addressed h s → e = subject.toNat → e ≤ 5 → x = tget s.engines e →
    ∃ len, (∀ f, engineFragment s x = some f → len = f4 (fragmentFrames f)) ∧
      exec (.queryEngine h ⟨subject, 0, 0⟩) s = .next (answered h 0xA1 .done
        [.b1 3, .b2 subject, .b1 0, .b2 1, f1 e, f1 (engineCode x.state), f1? x.handle,
         fBool (decide (s.zar.evacMark = some e)), fZones x.waitSet, f1? x.fragment, f2 (engineList s x).length,
         f1? ((engineFragment s x).map fragmentKind), len, f4 x.position, f2 x.loops, f2 x.fade] s s)) ∧
  (∀ h q s, Addressed h s → q.subject.toNat > 5 ∨ q.part.toNat > 0 ∨ q.flags.toNat > 0 →
    exec (.queryEngine h q) s = .next (refusedBy h 0xA1 .badarg s)) ∧
  (∀ h subject s k r, Addressed h s → k = subject.toNat → k ≤ 95 → r = request s k → r.state ≠ .free →
    exec (.queryRequest h ⟨subject, 0, 0⟩) s = .next (answered h 0xA1 .done
      [.b1 2, .b2 subject, .b1 0, f2 (2 + (r.fragments.length - 2 + 3) / 4),
       f1 (requestCode r.state), f1 (classNum r.cls), f1 r.priority, f1 (originKind r.origin), f1 (originId r.origin),
       f1 (originTrigger r.origin), fBool r.live, f1 r.lane, f2 r.talkLimit, f2 (r.talkCount.getD 0),
       f1 (currentCode r.current), fZones r.requested, fZones r.granted, fZones (joinedZones s k), f2 r.minCoverage,
       f1 (requestFlags r.flags), f2 r.level] s s)) ∧
  (∀ h q s, Addressed h s → q.subject.toNat > 95 ∨ q.part.toNat > 9 ∨ q.flags.toNat > 0 →
    exec (.queryRequest h q) s = .next (refusedBy h 0xA1 .badarg s)) ∧
  (∀ h subject s k r, Addressed h s → k = subject.toNat → k ≤ 95 → r = request s k → r.state ≠ .free →
    ∃ l, (∀ d, r.latestStart = some d → l = .b4 d) ∧
      exec (.queryRequest h ⟨subject, 1, 0⟩) s = .next (answered h 0xA1 .done
        ([.b1 2, .b2 subject, .b1 1, f2 (2 + (r.fragments.length - 2 + 3) / 4),
          fBool r.latestStart.isSome, l, f2 r.restarts, f1? r.engine, f1 (pendingCode r.pendingEnd),
          f1 (endingCode r.ending).1, f1 (endingCode r.ending).2, f4 r.duration, f2 r.fragments.length] ++
          fragmentPlace r.fragments 0 ++ fragmentPlace r.fragments 1) s s)) ∧
  (∀ h subject part s k r n, Addressed h s → k = subject.toNat → k ≤ 95 → r = request s k → r.state ≠ .free →
    2 ≤ part.toNat → part.toNat ≤ 9 → n = 4 * part.toNat - 6 → n < r.fragments.length →
    exec (.queryRequest h ⟨subject, part, 0⟩) s = .next (answered h 0xA1 .done
      ([.b1 2, .b2 subject, .b1 part, f2 (2 + (r.fragments.length - 2 + 3) / 4)] ++ fragmentPlace r.fragments n ++
        fragmentPlace r.fragments (n + 1) ++ fragmentPlace r.fragments (n + 2) ++ fragmentPlace r.fragments (n + 3)) s s)) ∧
  (∀ (fs : List Fragment) (i : Nat), (fs.length ≤ i → fragmentPlace fs i = [.b1 0, .b4 0, .b4 0]) ∧
    (∀ start length, fs[i]? = some (.clip start length) → fragmentPlace fs i = [.b1 0, f4 start, f4 length]) ∧
    (∀ frames, fs[i]? = some (.pause frames) → fragmentPlace fs i = [.b1 1, .b4 0, f4 frames])) ∧
  (∀ h q s, Addressed h s → q.subject.toNat ≤ 95 → q.part.toNat ≤ 9 → q.flags = 0 →
    (request s q.subject.toNat).state = .free ∨
      (request s q.subject.toNat).fragments.length ≤ 4 * q.part.toNat - 6 ∧ 2 ≤ q.part.toNat →
    exec (.queryRequest h q) s = .next (refusedBy h 0xA1 .noent s)) ∧
  (∀ h subject s c, Addressed h s → subject.toNat ≤ 255 → c = tget s.csc.calls subject.toNat → c.state ≠ .free →
    exec (.queryCall h ⟨subject, 0, 0⟩) s = .next (answered h 0xA1 .done
      [.b1 4, .b2 subject, .b1 0, f2 (1 + (c.triggers.length + 4) / 5),
       f1 (callCode c.state), f2 c.number, fBool c.arrival, f2 c.destination, f2 c.via.length, f2 (c.via.getD 0 0xFFFF),
       f2 (c.via.getD 1 0xFFFF), f2 (c.via.getD 2 0xFFFF), f2 (c.via.getD 3 0xFFFF), fTime c.scheduled, f4i c.delay,
       fTime (c.scheduled + BitVec.ofInt 32 c.delay), f1 c.platform, f1 c.plan, f4i c.lastNotified,
       f2 c.triggers.length] s s)) ∧
  (∀ h subject part s c rest, Addressed h s → subject.toNat ≤ 255 → c = tget s.csc.calls subject.toNat → c.state ≠ .free →
    part.toNat = 1 ∨ part.toNat = 2 → 5 * part.toNat - 5 < c.triggers.length → c.triggers.length ≤ 8 →
    rest = (c.triggers.drop (5 * part.toNat - 5)).take 5 →
    exec (.queryCall h ⟨subject, part, 0⟩) s = .next (answered h 0xA1 .done
      ([.b1 4, .b2 subject, .b1 part, f2 (1 + (c.triggers.length + 4) / 5)] ++
        (rest.map fun x => [f1 (roleCode x.role), f1 (triggerCode x.state), f1? x.handle, fTime x.fire]).flatten) s s)) ∧
  (∀ h q s, Addressed h s → q.subject.toNat ≤ 255 → q.part.toNat ≤ 2 → q.flags = 0 →
    (tget s.csc.calls q.subject.toNat).state = .free ∨
      (1 ≤ q.part.toNat ∧ (tget s.csc.calls q.subject.toNat).triggers.length ≤ 5 * q.part.toNat - 5) →
    exec (.queryCall h q) s = .next (refusedBy h 0xA1 .noent s)) ∧
  (∀ h q s, Addressed h s → q.subject.toNat > 255 ∨ q.part.toNat > 2 ∨ q.flags.toNat > 0 →
    exec (.queryCall h q) s = .next (refusedBy h 0xA1 .badarg s)) ∧
  (∀ h subject s, Addressed h s → exec (.queryStatus h ⟨subject, 0, 0⟩) s = .next (answered h 0xA1 .done
    [.b1 0, .b2 subject, .b1 0, .b2 2, .b1 (BitVec.ofNat 8 s.ch.unitAddr.toNat), f1 (linkCode s.itp.link), f2 s.itp.badRun,
     fBool s.ch.eventLost, f2 s.ch.events.length, fTime s.stc.time, f2 s.stc.phase, f2 s.stc.tickLength, f4i s.stc.slew,
     f1 (statusCode s.stc.status), f4 s.stc.holdoverCount, f4 s.stc.slewWindow, f2 s.stc.holdoverLimit] s
    (s.setCh { s.ch with eventLost := false }))) ∧
  (∀ h subject s records (calls : CallState → Field), Addressed h s →
    records = ((List.range 96).filter fun k => (request s k).state != .free).length →
    (∀ c, calls c = f2 ((List.range 256).filter fun k => (tget s.csc.calls k).state == c).length) →
    exec (.queryStatus h ⟨subject, 1, 0⟩) s = .next (answered h 0xA1 .done
      [.b1 0, .b2 subject, .b1 1, .b2 2, f2 records, f2 s.zar.queue.length, f1? s.zar.evacMark, calls .scheduled,
       calls .open, calls .closed, calls .cancelled, f2 s.csc.due.length, f1? (s.csc.load.map (·.plan)),
       f1? (s.tex.load.map (·.template))] s s)) ∧
  (∀ h q s, Addressed h s → q.part.toNat > 1 ∨ q.flags.toNat > 0 →
    exec (.queryStatus h q) s = .next (refusedBy h 0xA1 .badarg s)) ∧
  (∀ h subject part s first n, Addressed h s → (part.toNat, first, n) ∈ [(1, 0, 19), (2, 19, 19), (3, 38, 10)] →
    exec (.queryCounters h ⟨subject, part, 0⟩) s = .next (answered h 0xA1 .done
      ([.b1 5, .b2 subject, .b1 part, .b2 4] ++
        (List.range n).map (fun i => f2 (tget s.zmx (first + i)).saturation)) s s)) ∧
  (∀ h subject s, Addressed h s → exec (.queryCounters h ⟨subject, 0, 0⟩) s = .next (answered h 0xA1 .done
    ([.b1 5, .b2 subject, .b1 0, .b2 4, f2 s.itp.crcErrors, f2 s.itp.missing, f2 s.ch.discards] ++
      (List.range 16).map (fun i => f2 (tget s.csc.periodics i).skips)) s s)) ∧
  (∀ h subject part s, Addressed h s → part.toNat ≤ 3 → ∃ t fields,
    exec (.queryCounters h ⟨subject, part, 0⟩) s = .next (answered h 0xA1 .done fields s s) ∧
    exec (.queryCounters h ⟨subject, part, 1⟩) s = .next (answered h 0xA1 .done fields s t) ∧
    t = (((s.setItp { s.itp with crcErrors := 0, missing := 0 }).setCh { s.ch with discards := 0 }).setCsc
      { s.csc with periodics := t.csc.periodics }).setZmx t.zmx ∧
    (∀ i, i < 16 → tget t.csc.periodics i = { tget s.csc.periodics i with skips := 0 }) ∧
    (∀ z, z < 48 → tget t.zmx z = { tget s.zmx z with saturation := 0 })) ∧
  (∀ h q s, Addressed h s → q.part.toNat > 3 ∨ q.flags.toNat > 1 →
    exec (.queryCounters h q) s = .next (refusedBy h 0xA1 .badarg s)) ∧
  (∀ h s, Addressed h s → exec (.identify h) s = .next (answered h 0xA2 .done
    [.b2 48, .b1 1, .b1 (BitVec.ofNat 8 s.ch.unitAddr.toNat), .b2 48, .b2 40, .b2 6, .b2 96, .b2 64, .b2 32, .b2 1024,
     .b2 64, .b2 64, .b2 32, .b2 32, .b2 256, .b2 16, .b2 4, .b2 32] s s))
end

