-- ==== Sys2Proof/Laws/State.lean ====
section
/-! SUPPORT. One lemma per field per update of State, all true by rfl, so that no proof unfolds a record update. -/

namespace Sys2Proof.Machine

@[simp] theorem State.setItp_itp (s : State) (x) : (s.setItp x).itp = x := rfl
@[simp] theorem State.setItp_etp (s : State) (x) : (s.setItp x).etp = s.etp := rfl
@[simp] theorem State.setItp_ch (s : State) (x) : (s.setItp x).ch = s.ch := rfl
@[simp] theorem State.setItp_zmx (s : State) (x) : (s.setItp x).zmx = s.zmx := rfl
@[simp] theorem State.setItp_amt (s : State) (x) : (s.setItp x).amt = s.amt := rfl
@[simp] theorem State.setItp_zlc (s : State) (x) : (s.setItp x).zlc = s.zlc := rfl
@[simp] theorem State.setItp_zar (s : State) (x) : (s.setItp x).zar = s.zar := rfl
@[simp] theorem State.setItp_engines (s : State) (x) : (s.setItp x).engines = s.engines := rfl
@[simp] theorem State.setItp_cmc (s : State) (x) : (s.setItp x).cmc = s.cmc := rfl
@[simp] theorem State.setItp_tex (s : State) (x) : (s.setItp x).tex = s.tex := rfl
@[simp] theorem State.setItp_stc (s : State) (x) : (s.setItp x).stc = s.stc := rfl
@[simp] theorem State.setItp_csc (s : State) (x) : (s.setItp x).csc = s.csc := rfl
@[simp] theorem State.setItp_period (s : State) (x) : (s.setItp x).period = s.period := rfl
@[simp] theorem State.setItp_work (s : State) (x) : (s.setItp x).work = s.work := rfl
@[simp] theorem State.setItp_free (s : State) (x) : (s.setItp x).free = s.free := rfl
@[simp] theorem State.setItp_pending (s : State) (x) : (s.setItp x).pending = s.pending := rfl

@[simp] theorem State.setEtp_itp (s : State) (x) : (s.setEtp x).itp = s.itp := rfl
@[simp] theorem State.setEtp_etp (s : State) (x) : (s.setEtp x).etp = x := rfl
@[simp] theorem State.setEtp_ch (s : State) (x) : (s.setEtp x).ch = s.ch := rfl
@[simp] theorem State.setEtp_zmx (s : State) (x) : (s.setEtp x).zmx = s.zmx := rfl
@[simp] theorem State.setEtp_amt (s : State) (x) : (s.setEtp x).amt = s.amt := rfl
@[simp] theorem State.setEtp_zlc (s : State) (x) : (s.setEtp x).zlc = s.zlc := rfl
@[simp] theorem State.setEtp_zar (s : State) (x) : (s.setEtp x).zar = s.zar := rfl
@[simp] theorem State.setEtp_engines (s : State) (x) : (s.setEtp x).engines = s.engines := rfl
@[simp] theorem State.setEtp_cmc (s : State) (x) : (s.setEtp x).cmc = s.cmc := rfl
@[simp] theorem State.setEtp_tex (s : State) (x) : (s.setEtp x).tex = s.tex := rfl
@[simp] theorem State.setEtp_stc (s : State) (x) : (s.setEtp x).stc = s.stc := rfl
@[simp] theorem State.setEtp_csc (s : State) (x) : (s.setEtp x).csc = s.csc := rfl
@[simp] theorem State.setEtp_period (s : State) (x) : (s.setEtp x).period = s.period := rfl
@[simp] theorem State.setEtp_work (s : State) (x) : (s.setEtp x).work = s.work := rfl
@[simp] theorem State.setEtp_free (s : State) (x) : (s.setEtp x).free = s.free := rfl
@[simp] theorem State.setEtp_pending (s : State) (x) : (s.setEtp x).pending = s.pending := rfl

@[simp] theorem State.setCh_itp (s : State) (x) : (s.setCh x).itp = s.itp := rfl
@[simp] theorem State.setCh_etp (s : State) (x) : (s.setCh x).etp = s.etp := rfl
@[simp] theorem State.setCh_ch (s : State) (x) : (s.setCh x).ch = x := rfl
@[simp] theorem State.setCh_zmx (s : State) (x) : (s.setCh x).zmx = s.zmx := rfl
@[simp] theorem State.setCh_amt (s : State) (x) : (s.setCh x).amt = s.amt := rfl
@[simp] theorem State.setCh_zlc (s : State) (x) : (s.setCh x).zlc = s.zlc := rfl
@[simp] theorem State.setCh_zar (s : State) (x) : (s.setCh x).zar = s.zar := rfl
@[simp] theorem State.setCh_engines (s : State) (x) : (s.setCh x).engines = s.engines := rfl
@[simp] theorem State.setCh_cmc (s : State) (x) : (s.setCh x).cmc = s.cmc := rfl
@[simp] theorem State.setCh_tex (s : State) (x) : (s.setCh x).tex = s.tex := rfl
@[simp] theorem State.setCh_stc (s : State) (x) : (s.setCh x).stc = s.stc := rfl
@[simp] theorem State.setCh_csc (s : State) (x) : (s.setCh x).csc = s.csc := rfl
@[simp] theorem State.setCh_period (s : State) (x) : (s.setCh x).period = s.period := rfl
@[simp] theorem State.setCh_work (s : State) (x) : (s.setCh x).work = s.work := rfl
@[simp] theorem State.setCh_free (s : State) (x) : (s.setCh x).free = s.free := rfl
@[simp] theorem State.setCh_pending (s : State) (x) : (s.setCh x).pending = s.pending := rfl

@[simp] theorem State.setZmx_itp (s : State) (x) : (s.setZmx x).itp = s.itp := rfl
@[simp] theorem State.setZmx_etp (s : State) (x) : (s.setZmx x).etp = s.etp := rfl
@[simp] theorem State.setZmx_ch (s : State) (x) : (s.setZmx x).ch = s.ch := rfl
@[simp] theorem State.setZmx_zmx (s : State) (x) : (s.setZmx x).zmx = x := rfl
@[simp] theorem State.setZmx_amt (s : State) (x) : (s.setZmx x).amt = s.amt := rfl
@[simp] theorem State.setZmx_zlc (s : State) (x) : (s.setZmx x).zlc = s.zlc := rfl
@[simp] theorem State.setZmx_zar (s : State) (x) : (s.setZmx x).zar = s.zar := rfl
@[simp] theorem State.setZmx_engines (s : State) (x) : (s.setZmx x).engines = s.engines := rfl
@[simp] theorem State.setZmx_cmc (s : State) (x) : (s.setZmx x).cmc = s.cmc := rfl
@[simp] theorem State.setZmx_tex (s : State) (x) : (s.setZmx x).tex = s.tex := rfl
@[simp] theorem State.setZmx_stc (s : State) (x) : (s.setZmx x).stc = s.stc := rfl
@[simp] theorem State.setZmx_csc (s : State) (x) : (s.setZmx x).csc = s.csc := rfl
@[simp] theorem State.setZmx_period (s : State) (x) : (s.setZmx x).period = s.period := rfl
@[simp] theorem State.setZmx_work (s : State) (x) : (s.setZmx x).work = s.work := rfl
@[simp] theorem State.setZmx_free (s : State) (x) : (s.setZmx x).free = s.free := rfl
@[simp] theorem State.setZmx_pending (s : State) (x) : (s.setZmx x).pending = s.pending := rfl

@[simp] theorem State.setAmt_itp (s : State) (x) : (s.setAmt x).itp = s.itp := rfl
@[simp] theorem State.setAmt_etp (s : State) (x) : (s.setAmt x).etp = s.etp := rfl
@[simp] theorem State.setAmt_ch (s : State) (x) : (s.setAmt x).ch = s.ch := rfl
@[simp] theorem State.setAmt_zmx (s : State) (x) : (s.setAmt x).zmx = s.zmx := rfl
@[simp] theorem State.setAmt_amt (s : State) (x) : (s.setAmt x).amt = x := rfl
@[simp] theorem State.setAmt_zlc (s : State) (x) : (s.setAmt x).zlc = s.zlc := rfl
@[simp] theorem State.setAmt_zar (s : State) (x) : (s.setAmt x).zar = s.zar := rfl
@[simp] theorem State.setAmt_engines (s : State) (x) : (s.setAmt x).engines = s.engines := rfl
@[simp] theorem State.setAmt_cmc (s : State) (x) : (s.setAmt x).cmc = s.cmc := rfl
@[simp] theorem State.setAmt_tex (s : State) (x) : (s.setAmt x).tex = s.tex := rfl
@[simp] theorem State.setAmt_stc (s : State) (x) : (s.setAmt x).stc = s.stc := rfl
@[simp] theorem State.setAmt_csc (s : State) (x) : (s.setAmt x).csc = s.csc := rfl
@[simp] theorem State.setAmt_period (s : State) (x) : (s.setAmt x).period = s.period := rfl
@[simp] theorem State.setAmt_work (s : State) (x) : (s.setAmt x).work = s.work := rfl
@[simp] theorem State.setAmt_free (s : State) (x) : (s.setAmt x).free = s.free := rfl
@[simp] theorem State.setAmt_pending (s : State) (x) : (s.setAmt x).pending = s.pending := rfl

@[simp] theorem State.setZlc_itp (s : State) (x) : (s.setZlc x).itp = s.itp := rfl
@[simp] theorem State.setZlc_etp (s : State) (x) : (s.setZlc x).etp = s.etp := rfl
@[simp] theorem State.setZlc_ch (s : State) (x) : (s.setZlc x).ch = s.ch := rfl
@[simp] theorem State.setZlc_zmx (s : State) (x) : (s.setZlc x).zmx = s.zmx := rfl
@[simp] theorem State.setZlc_amt (s : State) (x) : (s.setZlc x).amt = s.amt := rfl
@[simp] theorem State.setZlc_zlc (s : State) (x) : (s.setZlc x).zlc = x := rfl
@[simp] theorem State.setZlc_zar (s : State) (x) : (s.setZlc x).zar = s.zar := rfl
@[simp] theorem State.setZlc_engines (s : State) (x) : (s.setZlc x).engines = s.engines := rfl
@[simp] theorem State.setZlc_cmc (s : State) (x) : (s.setZlc x).cmc = s.cmc := rfl
@[simp] theorem State.setZlc_tex (s : State) (x) : (s.setZlc x).tex = s.tex := rfl
@[simp] theorem State.setZlc_stc (s : State) (x) : (s.setZlc x).stc = s.stc := rfl
@[simp] theorem State.setZlc_csc (s : State) (x) : (s.setZlc x).csc = s.csc := rfl
@[simp] theorem State.setZlc_period (s : State) (x) : (s.setZlc x).period = s.period := rfl
@[simp] theorem State.setZlc_work (s : State) (x) : (s.setZlc x).work = s.work := rfl
@[simp] theorem State.setZlc_free (s : State) (x) : (s.setZlc x).free = s.free := rfl
@[simp] theorem State.setZlc_pending (s : State) (x) : (s.setZlc x).pending = s.pending := rfl

@[simp] theorem State.setZar_itp (s : State) (x) : (s.setZar x).itp = s.itp := rfl
@[simp] theorem State.setZar_etp (s : State) (x) : (s.setZar x).etp = s.etp := rfl
@[simp] theorem State.setZar_ch (s : State) (x) : (s.setZar x).ch = s.ch := rfl
@[simp] theorem State.setZar_zmx (s : State) (x) : (s.setZar x).zmx = s.zmx := rfl
@[simp] theorem State.setZar_amt (s : State) (x) : (s.setZar x).amt = s.amt := rfl
@[simp] theorem State.setZar_zlc (s : State) (x) : (s.setZar x).zlc = s.zlc := rfl
@[simp] theorem State.setZar_zar (s : State) (x) : (s.setZar x).zar = x := rfl
@[simp] theorem State.setZar_engines (s : State) (x) : (s.setZar x).engines = s.engines := rfl
@[simp] theorem State.setZar_cmc (s : State) (x) : (s.setZar x).cmc = s.cmc := rfl
@[simp] theorem State.setZar_tex (s : State) (x) : (s.setZar x).tex = s.tex := rfl
@[simp] theorem State.setZar_stc (s : State) (x) : (s.setZar x).stc = s.stc := rfl
@[simp] theorem State.setZar_csc (s : State) (x) : (s.setZar x).csc = s.csc := rfl
@[simp] theorem State.setZar_period (s : State) (x) : (s.setZar x).period = s.period := rfl
@[simp] theorem State.setZar_work (s : State) (x) : (s.setZar x).work = s.work := rfl
@[simp] theorem State.setZar_free (s : State) (x) : (s.setZar x).free = s.free := rfl
@[simp] theorem State.setZar_pending (s : State) (x) : (s.setZar x).pending = s.pending := rfl

@[simp] theorem State.setEngines_itp (s : State) (x) : (s.setEngines x).itp = s.itp := rfl
@[simp] theorem State.setEngines_etp (s : State) (x) : (s.setEngines x).etp = s.etp := rfl
@[simp] theorem State.setEngines_ch (s : State) (x) : (s.setEngines x).ch = s.ch := rfl
@[simp] theorem State.setEngines_zmx (s : State) (x) : (s.setEngines x).zmx = s.zmx := rfl
@[simp] theorem State.setEngines_amt (s : State) (x) : (s.setEngines x).amt = s.amt := rfl
@[simp] theorem State.setEngines_zlc (s : State) (x) : (s.setEngines x).zlc = s.zlc := rfl
@[simp] theorem State.setEngines_zar (s : State) (x) : (s.setEngines x).zar = s.zar := rfl
@[simp] theorem State.setEngines_engines (s : State) (x) : (s.setEngines x).engines = x := rfl
@[simp] theorem State.setEngines_cmc (s : State) (x) : (s.setEngines x).cmc = s.cmc := rfl
@[simp] theorem State.setEngines_tex (s : State) (x) : (s.setEngines x).tex = s.tex := rfl
@[simp] theorem State.setEngines_stc (s : State) (x) : (s.setEngines x).stc = s.stc := rfl
@[simp] theorem State.setEngines_csc (s : State) (x) : (s.setEngines x).csc = s.csc := rfl
@[simp] theorem State.setEngines_period (s : State) (x) : (s.setEngines x).period = s.period := rfl
@[simp] theorem State.setEngines_work (s : State) (x) : (s.setEngines x).work = s.work := rfl
@[simp] theorem State.setEngines_free (s : State) (x) : (s.setEngines x).free = s.free := rfl
@[simp] theorem State.setEngines_pending (s : State) (x) : (s.setEngines x).pending = s.pending := rfl

@[simp] theorem State.setCmc_itp (s : State) (x) : (s.setCmc x).itp = s.itp := rfl
@[simp] theorem State.setCmc_etp (s : State) (x) : (s.setCmc x).etp = s.etp := rfl
@[simp] theorem State.setCmc_ch (s : State) (x) : (s.setCmc x).ch = s.ch := rfl
@[simp] theorem State.setCmc_zmx (s : State) (x) : (s.setCmc x).zmx = s.zmx := rfl
@[simp] theorem State.setCmc_amt (s : State) (x) : (s.setCmc x).amt = s.amt := rfl
@[simp] theorem State.setCmc_zlc (s : State) (x) : (s.setCmc x).zlc = s.zlc := rfl
@[simp] theorem State.setCmc_zar (s : State) (x) : (s.setCmc x).zar = s.zar := rfl
@[simp] theorem State.setCmc_engines (s : State) (x) : (s.setCmc x).engines = s.engines := rfl
@[simp] theorem State.setCmc_cmc (s : State) (x) : (s.setCmc x).cmc = x := rfl
@[simp] theorem State.setCmc_tex (s : State) (x) : (s.setCmc x).tex = s.tex := rfl
@[simp] theorem State.setCmc_stc (s : State) (x) : (s.setCmc x).stc = s.stc := rfl
@[simp] theorem State.setCmc_csc (s : State) (x) : (s.setCmc x).csc = s.csc := rfl
@[simp] theorem State.setCmc_period (s : State) (x) : (s.setCmc x).period = s.period := rfl
@[simp] theorem State.setCmc_work (s : State) (x) : (s.setCmc x).work = s.work := rfl
@[simp] theorem State.setCmc_free (s : State) (x) : (s.setCmc x).free = s.free := rfl
@[simp] theorem State.setCmc_pending (s : State) (x) : (s.setCmc x).pending = s.pending := rfl

@[simp] theorem State.setTex_itp (s : State) (x) : (s.setTex x).itp = s.itp := rfl
@[simp] theorem State.setTex_etp (s : State) (x) : (s.setTex x).etp = s.etp := rfl
@[simp] theorem State.setTex_ch (s : State) (x) : (s.setTex x).ch = s.ch := rfl
@[simp] theorem State.setTex_zmx (s : State) (x) : (s.setTex x).zmx = s.zmx := rfl
@[simp] theorem State.setTex_amt (s : State) (x) : (s.setTex x).amt = s.amt := rfl
@[simp] theorem State.setTex_zlc (s : State) (x) : (s.setTex x).zlc = s.zlc := rfl
@[simp] theorem State.setTex_zar (s : State) (x) : (s.setTex x).zar = s.zar := rfl
@[simp] theorem State.setTex_engines (s : State) (x) : (s.setTex x).engines = s.engines := rfl
@[simp] theorem State.setTex_cmc (s : State) (x) : (s.setTex x).cmc = s.cmc := rfl
@[simp] theorem State.setTex_tex (s : State) (x) : (s.setTex x).tex = x := rfl
@[simp] theorem State.setTex_stc (s : State) (x) : (s.setTex x).stc = s.stc := rfl
@[simp] theorem State.setTex_csc (s : State) (x) : (s.setTex x).csc = s.csc := rfl
@[simp] theorem State.setTex_period (s : State) (x) : (s.setTex x).period = s.period := rfl
@[simp] theorem State.setTex_work (s : State) (x) : (s.setTex x).work = s.work := rfl
@[simp] theorem State.setTex_free (s : State) (x) : (s.setTex x).free = s.free := rfl
@[simp] theorem State.setTex_pending (s : State) (x) : (s.setTex x).pending = s.pending := rfl

@[simp] theorem State.setStc_itp (s : State) (x) : (s.setStc x).itp = s.itp := rfl
@[simp] theorem State.setStc_etp (s : State) (x) : (s.setStc x).etp = s.etp := rfl
@[simp] theorem State.setStc_ch (s : State) (x) : (s.setStc x).ch = s.ch := rfl
@[simp] theorem State.setStc_zmx (s : State) (x) : (s.setStc x).zmx = s.zmx := rfl
@[simp] theorem State.setStc_amt (s : State) (x) : (s.setStc x).amt = s.amt := rfl
@[simp] theorem State.setStc_zlc (s : State) (x) : (s.setStc x).zlc = s.zlc := rfl
@[simp] theorem State.setStc_zar (s : State) (x) : (s.setStc x).zar = s.zar := rfl
@[simp] theorem State.setStc_engines (s : State) (x) : (s.setStc x).engines = s.engines := rfl
@[simp] theorem State.setStc_cmc (s : State) (x) : (s.setStc x).cmc = s.cmc := rfl
@[simp] theorem State.setStc_tex (s : State) (x) : (s.setStc x).tex = s.tex := rfl
@[simp] theorem State.setStc_stc (s : State) (x) : (s.setStc x).stc = x := rfl
@[simp] theorem State.setStc_csc (s : State) (x) : (s.setStc x).csc = s.csc := rfl
@[simp] theorem State.setStc_period (s : State) (x) : (s.setStc x).period = s.period := rfl
@[simp] theorem State.setStc_work (s : State) (x) : (s.setStc x).work = s.work := rfl
@[simp] theorem State.setStc_free (s : State) (x) : (s.setStc x).free = s.free := rfl
@[simp] theorem State.setStc_pending (s : State) (x) : (s.setStc x).pending = s.pending := rfl

@[simp] theorem State.setCsc_itp (s : State) (x) : (s.setCsc x).itp = s.itp := rfl
@[simp] theorem State.setCsc_etp (s : State) (x) : (s.setCsc x).etp = s.etp := rfl
@[simp] theorem State.setCsc_ch (s : State) (x) : (s.setCsc x).ch = s.ch := rfl
@[simp] theorem State.setCsc_zmx (s : State) (x) : (s.setCsc x).zmx = s.zmx := rfl
@[simp] theorem State.setCsc_amt (s : State) (x) : (s.setCsc x).amt = s.amt := rfl
@[simp] theorem State.setCsc_zlc (s : State) (x) : (s.setCsc x).zlc = s.zlc := rfl
@[simp] theorem State.setCsc_zar (s : State) (x) : (s.setCsc x).zar = s.zar := rfl
@[simp] theorem State.setCsc_engines (s : State) (x) : (s.setCsc x).engines = s.engines := rfl
@[simp] theorem State.setCsc_cmc (s : State) (x) : (s.setCsc x).cmc = s.cmc := rfl
@[simp] theorem State.setCsc_tex (s : State) (x) : (s.setCsc x).tex = s.tex := rfl
@[simp] theorem State.setCsc_stc (s : State) (x) : (s.setCsc x).stc = s.stc := rfl
@[simp] theorem State.setCsc_csc (s : State) (x) : (s.setCsc x).csc = x := rfl
@[simp] theorem State.setCsc_period (s : State) (x) : (s.setCsc x).period = s.period := rfl
@[simp] theorem State.setCsc_work (s : State) (x) : (s.setCsc x).work = s.work := rfl
@[simp] theorem State.setCsc_free (s : State) (x) : (s.setCsc x).free = s.free := rfl
@[simp] theorem State.setCsc_pending (s : State) (x) : (s.setCsc x).pending = s.pending := rfl

@[simp] theorem State.setPeriod_itp (s : State) (x) : (s.setPeriod x).itp = s.itp := rfl
@[simp] theorem State.setPeriod_etp (s : State) (x) : (s.setPeriod x).etp = s.etp := rfl
@[simp] theorem State.setPeriod_ch (s : State) (x) : (s.setPeriod x).ch = s.ch := rfl
@[simp] theorem State.setPeriod_zmx (s : State) (x) : (s.setPeriod x).zmx = s.zmx := rfl
@[simp] theorem State.setPeriod_amt (s : State) (x) : (s.setPeriod x).amt = s.amt := rfl
@[simp] theorem State.setPeriod_zlc (s : State) (x) : (s.setPeriod x).zlc = s.zlc := rfl
@[simp] theorem State.setPeriod_zar (s : State) (x) : (s.setPeriod x).zar = s.zar := rfl
@[simp] theorem State.setPeriod_engines (s : State) (x) : (s.setPeriod x).engines = s.engines := rfl
@[simp] theorem State.setPeriod_cmc (s : State) (x) : (s.setPeriod x).cmc = s.cmc := rfl
@[simp] theorem State.setPeriod_tex (s : State) (x) : (s.setPeriod x).tex = s.tex := rfl
@[simp] theorem State.setPeriod_stc (s : State) (x) : (s.setPeriod x).stc = s.stc := rfl
@[simp] theorem State.setPeriod_csc (s : State) (x) : (s.setPeriod x).csc = s.csc := rfl
@[simp] theorem State.setPeriod_period (s : State) (x) : (s.setPeriod x).period = x := rfl
@[simp] theorem State.setPeriod_work (s : State) (x) : (s.setPeriod x).work = s.work := rfl
@[simp] theorem State.setPeriod_free (s : State) (x) : (s.setPeriod x).free = s.free := rfl
@[simp] theorem State.setPeriod_pending (s : State) (x) : (s.setPeriod x).pending = s.pending := rfl

@[simp] theorem State.setWork_itp (s : State) (x) : (s.setWork x).itp = s.itp := rfl
@[simp] theorem State.setWork_etp (s : State) (x) : (s.setWork x).etp = s.etp := rfl
@[simp] theorem State.setWork_ch (s : State) (x) : (s.setWork x).ch = s.ch := rfl
@[simp] theorem State.setWork_zmx (s : State) (x) : (s.setWork x).zmx = s.zmx := rfl
@[simp] theorem State.setWork_amt (s : State) (x) : (s.setWork x).amt = s.amt := rfl
@[simp] theorem State.setWork_zlc (s : State) (x) : (s.setWork x).zlc = s.zlc := rfl
@[simp] theorem State.setWork_zar (s : State) (x) : (s.setWork x).zar = s.zar := rfl
@[simp] theorem State.setWork_engines (s : State) (x) : (s.setWork x).engines = s.engines := rfl
@[simp] theorem State.setWork_cmc (s : State) (x) : (s.setWork x).cmc = s.cmc := rfl
@[simp] theorem State.setWork_tex (s : State) (x) : (s.setWork x).tex = s.tex := rfl
@[simp] theorem State.setWork_stc (s : State) (x) : (s.setWork x).stc = s.stc := rfl
@[simp] theorem State.setWork_csc (s : State) (x) : (s.setWork x).csc = s.csc := rfl
@[simp] theorem State.setWork_period (s : State) (x) : (s.setWork x).period = s.period := rfl
@[simp] theorem State.setWork_work (s : State) (x) : (s.setWork x).work = x := rfl
@[simp] theorem State.setWork_free (s : State) (x) : (s.setWork x).free = s.free := rfl
@[simp] theorem State.setWork_pending (s : State) (x) : (s.setWork x).pending = s.pending := rfl

@[simp] theorem State.setFree_itp (s : State) (x) : (s.setFree x).itp = s.itp := rfl
@[simp] theorem State.setFree_etp (s : State) (x) : (s.setFree x).etp = s.etp := rfl
@[simp] theorem State.setFree_ch (s : State) (x) : (s.setFree x).ch = s.ch := rfl
@[simp] theorem State.setFree_zmx (s : State) (x) : (s.setFree x).zmx = s.zmx := rfl
@[simp] theorem State.setFree_amt (s : State) (x) : (s.setFree x).amt = s.amt := rfl
@[simp] theorem State.setFree_zlc (s : State) (x) : (s.setFree x).zlc = s.zlc := rfl
@[simp] theorem State.setFree_zar (s : State) (x) : (s.setFree x).zar = s.zar := rfl
@[simp] theorem State.setFree_engines (s : State) (x) : (s.setFree x).engines = s.engines := rfl
@[simp] theorem State.setFree_cmc (s : State) (x) : (s.setFree x).cmc = s.cmc := rfl
@[simp] theorem State.setFree_tex (s : State) (x) : (s.setFree x).tex = s.tex := rfl
@[simp] theorem State.setFree_stc (s : State) (x) : (s.setFree x).stc = s.stc := rfl
@[simp] theorem State.setFree_csc (s : State) (x) : (s.setFree x).csc = s.csc := rfl
@[simp] theorem State.setFree_period (s : State) (x) : (s.setFree x).period = s.period := rfl
@[simp] theorem State.setFree_work (s : State) (x) : (s.setFree x).work = s.work := rfl
@[simp] theorem State.setFree_free (s : State) (x) : (s.setFree x).free = x := rfl
@[simp] theorem State.setFree_pending (s : State) (x) : (s.setFree x).pending = s.pending := rfl

@[simp] theorem State.setPending_itp (s : State) (x) : (s.setPending x).itp = s.itp := rfl
@[simp] theorem State.setPending_etp (s : State) (x) : (s.setPending x).etp = s.etp := rfl
@[simp] theorem State.setPending_ch (s : State) (x) : (s.setPending x).ch = s.ch := rfl
@[simp] theorem State.setPending_zmx (s : State) (x) : (s.setPending x).zmx = s.zmx := rfl
@[simp] theorem State.setPending_amt (s : State) (x) : (s.setPending x).amt = s.amt := rfl
@[simp] theorem State.setPending_zlc (s : State) (x) : (s.setPending x).zlc = s.zlc := rfl
@[simp] theorem State.setPending_zar (s : State) (x) : (s.setPending x).zar = s.zar := rfl
@[simp] theorem State.setPending_engines (s : State) (x) : (s.setPending x).engines = s.engines := rfl
@[simp] theorem State.setPending_cmc (s : State) (x) : (s.setPending x).cmc = s.cmc := rfl
@[simp] theorem State.setPending_tex (s : State) (x) : (s.setPending x).tex = s.tex := rfl
@[simp] theorem State.setPending_stc (s : State) (x) : (s.setPending x).stc = s.stc := rfl
@[simp] theorem State.setPending_csc (s : State) (x) : (s.setPending x).csc = s.csc := rfl
@[simp] theorem State.setPending_period (s : State) (x) : (s.setPending x).period = s.period := rfl
@[simp] theorem State.setPending_work (s : State) (x) : (s.setPending x).work = s.work := rfl
@[simp] theorem State.setPending_free (s : State) (x) : (s.setPending x).free = s.free := rfl
@[simp] theorem State.setPending_pending (s : State) (x) : (s.setPending x).pending = x := rfl

/-- Two states with the same fields are equal. -/
theorem State.ext_fields {s t : State} (h1 : s.itp = t.itp) (h2 : s.etp = t.etp) (h3 : s.ch = t.ch) (h4 : s.zmx = t.zmx)
    (h5 : s.amt = t.amt) (h6 : s.zlc = t.zlc) (h7 : s.zar = t.zar) (h8 : s.engines = t.engines) (h9 : s.cmc = t.cmc)
    (h10 : s.tex = t.tex) (h11 : s.stc = t.stc) (h12 : s.csc = t.csc) (h13 : s.period = t.period) (h14 : s.work = t.work)
    (h15 : s.free = t.free) (h16 : s.pending = t.pending) : s = t := by
  cases s; cases t; simp_all

end Sys2Proof.Machine
end

