-- ==== Sys2Proof/Laws/Ops.lean ====
section
/-! SUPPORT. What the shared operations can do: tables, zone sets, the cell queues, station time and the clip memory. -/

namespace Sys2Proof.Machine

/-! ### Tables -/

theorem tget_tset {α : Type} {n : Nat} [Inhabited α] (t : Vector α n) (i j : Nat) (x : α) :
    tget (tset t i x) j = if i = j ∧ i < n then x else tget t j := by
  by_cases h : i = j <;> by_cases h' : i < n <;> simp [tget, tset, Vector.getElem?_setIfInBounds, h, h']
  · subst h; simp [h']
  · subst h; simp [h']

@[simp] theorem tget_tset_self {α : Type} {n : Nat} [Inhabited α] (t : Vector α n) (i : Nat) (x : α) (h : i < n) :
    tget (tset t i x) i = x := by simp [tget_tset, h]

theorem tget_tset_of_ne {α : Type} {n : Nat} [Inhabited α] (t : Vector α n) {i j : Nat} (x : α) (h : i ≠ j) :
    tget (tset t i x) j = tget t j := by simp [tget_tset, h]

theorem tget_tmod {α : Type} {n : Nat} [Inhabited α] (t : Vector α n) (i j : Nat) (f : α → α) :
    tget (tmod t i f) j = if i = j ∧ i < n then f (tget t j) else tget t j := by
  simp only [tmod, tget_tset]; split
  · next h => simp [h.1]
  · rfl

theorem tget_map {α : Type} {n : Nat} [Inhabited α] (t : Vector α n) (f : α → α) (i : Nat) (h : i < n) :
    tget (t.map f) i = f (tget t i) := by simp [tget, h]

theorem tget_tmapIdx {α β : Type} {n : Nat} [Inhabited α] [Inhabited β] (t : Vector α n) (f : Nat → α → β) (i : Nat)
    (h : i < n) : tget (tmapIdx t f) i = f i (tget t i) := by
  simp [tget, tmapIdx, h]

theorem tget_replicate {α : Type} {n : Nat} [Inhabited α] (x : α) (i : Nat) (h : i < n) :
    tget (Vector.replicate n x) i = x := by simp [tget, h]

theorem tget_of_le {α : Type} {n : Nat} [Inhabited α] (t : Vector α n) (i : Nat) (h : n ≤ i) : tget t i = default := by
  simp [tget, Nat.not_lt.mpr h]

/-- A property of every entry is kept by setting one entry that has it. -/
theorem forall_tset {α : Type} {n : Nat} [Inhabited α] {P : Nat → α → Prop} {t : Vector α n} {i : Nat} {x : α}
    (h : ∀ j, j < n → P j (tget t j)) (hx : P i x) : ∀ j, j < n → P j (tget (tset t i x) j) := by
  intro j hj
  rw [tget_tset]; split
  · next e => exact e.1 ▸ hx
  · exact h j hj

/-- A property of every entry is kept by changing one entry in a way that keeps it. -/
theorem forall_tmod {α : Type} {n : Nat} [Inhabited α] {P : Nat → α → Prop} {t : Vector α n} {i : Nat} {f : α → α}
    (h : ∀ j, j < n → P j (tget t j)) (hf : ∀ j x, P j x → P j (f x)) : ∀ j, j < n → P j (tget (tmod t i f) j) := by
  intro j hj
  rw [tget_tmod]; split
  · exact hf j _ (h j hj)
  · exact h j hj

/-! ### Zone sets -/

theorem zmem_zone1 (z y : Nat) (hy : y < 48) : zmem (zone1 z) y = decide (z = y) := by
  simp only [zmem, zone1, BitVec.getLsbD_shiftLeft, hy, decide_true, Bool.true_and, BitVec.getLsbD_one]
  by_cases h : z = y
  · subst h; simp
  · by_cases h' : y < z
    · simp [h', h]
    · have : ¬ y - z = 0 := by omega
      simp [h', h, this]

@[simp] theorem zmem_or (a b : ZoneSet) (z : Nat) : zmem (a ||| b) z = (zmem a z || zmem b z) := by simp [zmem]

@[simp] theorem zmem_and (a b : ZoneSet) (z : Nat) : zmem (a &&& b) z = (zmem a z && zmem b z) := by simp [zmem]

theorem zmem_zdiff (a b : ZoneSet) (z : Nat) (h : z < 48) : zmem (zdiff a b) z = (zmem a z && !zmem b z) := by
  simp [zmem, zdiff, h]

@[simp] theorem zmem_zero (z : Nat) : zmem 0 z = false := by simp [zmem]

theorem zmem_lt {s : ZoneSet} {z : Nat} (h : zmem s z = true) : z < 48 := by
  by_contra hc
  rw [zmem, BitVec.getLsbD_of_ge _ _ (by omega)] at h
  exact absurd h (by simp)

theorem zmem_foldl_zone1 (p : Nat → Bool) (zs : List Nat) (acc : ZoneSet) (z : Nat) (hz : z < 48) :
    zmem (zs.foldl (fun acc z => if p z then acc ||| zone1 z else acc) acc) z =
      (zmem acc z || (decide (z ∈ zs) && p z)) := by
  induction zs generalizing acc with
  | nil => simp
  | cons y ys ih =>
    simp only [List.foldl_cons, ih, List.mem_cons]
    by_cases hp : p y = true
    · simp only [hp, if_true, zmem_or, zmem_zone1 y z hz]
      by_cases e : y = z
      · subst e; simp [hp]
      · have : ¬ z = y := fun h => e h.symm
        simp [e, this]
    · simp only [Bool.not_eq_true] at hp
      simp only [hp]
      by_cases e : z = y
      · subst e; simp [hp]
      · simp [e]

/-- The zones of `zwhere p` are the zones that pass. -/
theorem zmem_zwhere (p : Nat → Bool) (z : Nat) : zmem (zwhere p) z = (decide (z < 48) && p z) := by
  by_cases hz : z < 48
  · rw [zwhere, zmem_foldl_zone1 p _ _ z hz, show (0 : ZoneSet) = 0#48 from rfl, show zmem 0#48 z = false from zmem_zero z]; simp [hz]
  · have : zmem (zwhere p) z = false := by
      by_contra hc
      exact hz (zmem_lt (by simpa using hc))
    simp [hz, this]

/-- Zone sets with the same zones are equal. -/
theorem zset_ext {a b : ZoneSet} (h : ∀ z, z < 48 → zmem a z = zmem b z) : a = b :=
  BitVec.eq_of_getLsbD_eq fun i hi => h i hi

theorem zset_eq_zero {a : ZoneSet} (h : ∀ z, z < 48 → zmem a z = false) : a = 0 :=
  zset_ext fun z hz => by rw [h z hz, zmem_zero]

/-! ### Lists -/

/-- A fold keeps what each of its steps keeps. -/
theorem foldl_keeps {σ α : Type} (P : σ → Prop) (f : σ → α → σ) (hf : ∀ s a, P s → P (f s a)) :
    ∀ (l : List α) (s : σ), P s → P (l.foldl f s)
  | [], _, h => h
  | a :: l, s, h => foldl_keeps P f hf l (f s a) (hf s a h)

/-! ### The cell queues -/

/-- What raising an event does: it joins the tail of the queue, or is lost with EVENT_LOST set (R178). -/
theorem pushEvent_spec (kind cause : Byte) (subject : Nat) (detail : List Field) (s : State) :
    pushEvent kind cause subject detail s =
      s.setCh (if s.ch.events.length < 32 then
        { s.ch with events := s.ch.events ++ [⟨kind, cause, BitVec.ofNat 16 subject, s.stc.time, s.stc.phase, detail⟩] }
        else { s.ch with eventLost := true }) := by
  unfold pushEvent; split <;> rfl

/-- What placing a reply does (R177). -/
theorem pushReply_spec (r : Reply) (s : State) :
    pushReply r s = s.setCh (if s.ch.replies.length < 4 then { s.ch with replies := s.ch.replies ++ [r] } else s.ch) := by
  unfold pushReply; split <;> rfl

/-! ### Station time as an action reads it -/

/-- The time shown to an action on a notice leaves no trace in the clock and in what blocks read, and nothing else is touched (R136, R138). -/
theorem withTime_keeps (P : State → Prop) (hc : ∀ t p s, P s → P (s.setStc { s.stc with time := t, phase := p }))
    (hr : ∀ r s, P s → P (s.setPeriod { s.period with read := r })) (t : Time) (p : Nat) (f : State → State) (s : State)
    (hf : ∀ s, P s → P (f s)) (hs : P s) : P (withTime t p f s) :=
  hr _ _ (hc _ _ _ (hf _ (hr _ _ (hc _ _ _ hs))))

@[simp] theorem withTime_time (t : Time) (p : Nat) (f : State → State) (s : State) :
    (withTime t p f s).stc.time = s.stc.time := rfl

@[simp] theorem withTime_phase (t : Time) (p : Nat) (f : State → State) (s : State) :
    (withTime t p f s).stc.phase = s.stc.phase := rfl

@[simp] theorem withTime_read (t : Time) (p : Nat) (f : State → State) (s : State) :
    (withTime t p f s).period.read = s.period.read := rfl

/-- Without a step in the frame period, blocks read the clock as it stands (R136). -/
theorem now_of_read_none {s : State} (h : s.period.read = none) : now s = (s.stc.time, s.stc.phase) := by simp [now, h]

/-- After a step, blocks go on reading the time of the period's start (R136). -/
theorem now_of_read {s : State} {r : Time × Nat} (h : s.period.read = some r) : now s = r := by simp [now, h]

/-- Before any notice of a frame period the law of R87 is about the clock's T. -/
theorem lawTime_of_none {s : State} (h : s.period.handed = none) : lawTime s = s.stc.time := by simp [lawTime, h]

theorem lawTime_of_handed {s : State} {t : Time} (h : s.period.handed = some t) : lawTime s = t := by simp [lawTime, h]

/-! ### The clip memory -/

theorem memSorted_cons {a : Nat × ClipSample} {l : List (Nat × ClipSample)} :
    memSorted (a :: l) = true ↔ (∀ b, l.head? = some b → a.1 < b.1) ∧ memSorted l = true := by
  cases l with
  | nil => simp [memSorted]
  | cons b l => simp [memSorted]

theorem memWrite_head (m : List (Nat × ClipSample)) (a : Nat) (v : ClipSample) (b : Nat × ClipSample)
    (h : (memWrite m a v).head? = some b) : b.1 = a ∨ m.head? = some b := by
  cases m with
  | nil => simp [memWrite] at h; simp [← h]
  | cons c l =>
    simp only [memWrite] at h
    split at h
    · simp at h; simp [← h]
    · split at h
      · simp at h; simp [← h]
      · simp at h; simp [h]

/-- A write keeps the addresses strictly rising. -/
theorem memWrite_sorted (m : List (Nat × ClipSample)) (a : Nat) (v : ClipSample) (h : memSorted m = true) :
    memSorted (memWrite m a v) = true := by
  induction m with
  | nil => rfl
  | cons c l ih =>
    rw [memSorted_cons] at h
    unfold memWrite
    split
    · next hlt => rw [memSorted_cons, memSorted_cons]; exact ⟨by rintro b ⟨⟩; exact hlt, h⟩
    · split
      · next he => rw [memSorted_cons]; exact ⟨fun b hb => he ▸ h.1 b hb, h.2⟩
      · next h1 h2 =>
        rw [memSorted_cons]
        refine ⟨fun b hb => ?_, ih h.2⟩
        rcases memWrite_head l a v b hb with e | e
        · omega
        · exact h.1 b e

theorem memWrite_mem (m : List (Nat × ClipSample)) (a : Nat) (v : ClipSample) (c : Nat × ClipSample)
    (h : c ∈ memWrite m a v) : c.1 = a ∨ c ∈ m := by
  induction m with
  | nil => simp [memWrite] at h; simp [h]
  | cons b l ih =>
    unfold memWrite at h
    split at h
    · rcases List.mem_cons.mp h with e | e
      · simp [e]
      · exact .inr e
    · split at h
      · rcases List.mem_cons.mp h with e | e
        · simp [e]
        · simp [e]
      · rcases List.mem_cons.mp h with e | e
        · simp [e]
        · rcases ih e with e | e
          · exact .inl e
          · simp [e]

/-- A write at an address of the memory keeps the canonical form. -/
theorem memWrite_wf (m : List (Nat × ClipSample)) (a : Nat) (v : ClipSample) (ha : a < clipCapacity)
    (h : memWf m = true) : memWf (memWrite m a v) = true := by
  simp only [memWf, Bool.and_eq_true, List.all_eq_true, decide_eq_true_eq] at *
  refine ⟨memWrite_sorted m a v h.1, fun c hc => ?_⟩
  rcases memWrite_mem m a v c hc with e | e
  · omega
  · exact h.2 c e

theorem memLookup_cons (c : Nat × ClipSample) (l : List (Nat × ClipSample)) (b : Nat) :
    memLookup (c :: l) b = if c.1 = b then some c.2 else memLookup l b := by
  simp only [memLookup, List.find?_cons]
  by_cases e : c.1 = b
  · simp [e]
  · have : (c.1 == b) = false := by simpa using e
    simp [e, this]

/-- A read after a write: the written address gives the sample written, any other what it gave before. -/
theorem memLookup_memWrite (m : List (Nat × ClipSample)) (a b : Nat) (v : ClipSample) :
    memLookup (memWrite m a v) b = if a = b then some v else memLookup m b := by
  induction m with
  | nil => simp only [memWrite, memLookup_cons]
  | cons c l ih =>
    unfold memWrite
    split
    · simp only [memLookup_cons]
    · split
      · next he =>
        simp only [memLookup_cons, he]
        split <;> rfl
      · next he =>
        simp only [memLookup_cons, ih]
        by_cases e : c.1 = b
        · have : ¬ a = b := fun h => he (h.trans e.symm)
          simp [e, this]
        · simp [e]

/-- Writing samples keeps the canonical form (R119). -/
theorem writeClips_wf (m : Cmc) (a : Nat) (vs : List ClipSample) (h : memWf m.memory = true) :
    memWf (writeClips m a vs).memory = true := by
  induction vs generalizing m a with
  | nil => exact h
  | cons v vs ih =>
    unfold writeClips
    apply ih
    split
    · next ha => exact memWrite_wf _ _ _ ha h
    · exact h

@[simp] theorem writeClips_powerCycle (m : Cmc) (a : Nat) (vs : List ClipSample) :
    (writeClips m a vs).powerCycle = m.powerCycle := by
  induction vs generalizing m a with
  | nil => rfl
  | cons v vs ih => unfold writeClips; rw [ih]; split <;> rfl

@[simp] theorem writeClips_phrases (m : Cmc) (a : Nat) (vs : List ClipSample) :
    (writeClips m a vs).phrases = m.phrases := by
  induction vs generalizing m a with
  | nil => rfl
  | cons v vs ih => unfold writeClips; rw [ih]; split <;> rfl

@[simp] theorem writeClips_useCounts (m : Cmc) (a : Nat) (vs : List ClipSample) :
    (writeClips m a vs).useCounts = m.useCounts := by
  induction vs generalizing m a with
  | nil => rfl
  | cons v vs ih => unfold writeClips; rw [ih]; split <;> rfl

/-- What the memory holds after samples were written at successive addresses (R116, R119). -/
theorem clipAt_writeClips (m : Cmc) (a b : Nat) (vs : List ClipSample) (h : memWf m.memory = true) :
    clipAt (writeClips m a vs) b =
      if a ≤ b ∧ b < a + vs.length ∧ b < clipCapacity then vs.getD (b - a) 0 else clipAt m b := by
  induction vs generalizing m a with
  | nil => simp [writeClips]; omega
  | cons v vs ih =>
    unfold writeClips
    by_cases ha : a < clipCapacity
    · rw [if_pos ha, ih _ _ (memWrite_wf _ _ _ ha h)]
      have e0 : clipAt { m with memory := memWrite m.memory a v } b = if a = b then v else clipAt m b := by
        simp only [clipAt, memLookup_memWrite]; split <;> rfl
      rw [e0]
      by_cases e : a = b
      · subst e; simp [ha]
      · rw [if_neg e]
        by_cases hb : a ≤ b
        · have hb' : a + 1 ≤ b := by omega
          obtain ⟨d, rfl⟩ : ∃ d, b = a + 1 + d := ⟨b - (a + 1), by omega⟩
          have e1 : a + 1 + d - a = d + 1 := by omega
          have e2 : a + 1 + d - (a + 1) = d := by omega
          simp only [e1, e2, List.length_cons, List.getD_cons_succ]
          congr 1
          simp only [eq_iff_iff]; omega
        · rw [if_neg (by omega), if_neg (by omega)]
    · rw [if_neg ha, ih _ _ h, if_neg (by omega), if_neg (by omega)]

end Sys2Proof.Machine
end

