-- ==== Sys2Proof/Laws/Frames.lean ====
section
/-! SUPPORT. What an action of the Zone Arbiter or the Call Scheduler can change, said once: every operation of the arbiter and of the walks has the frame ActFrame. -/

namespace Sys2Proof.Machine

namespace ActFrame

theorem refl (s : State) : ActFrame s s := by
  constructor <;> first | rfl | exact List.prefix_refl _ | exact fun h => h | exact fun _ => rfl

theorem trans {s t u : State} (a : ActFrame s t) (b : ActFrame t u) : ActFrame s u where
  itp := b.itp.trans a.itp
  etp := b.etp.trans a.etp
  zmx := b.zmx.trans a.zmx
  amt := b.amt.trans a.amt
  zlc := b.zlc.trans a.zlc
  tex := b.tex.trans a.tex
  stc := b.stc.trans a.stc
  period := b.period.trans a.period
  free := b.free.trans a.free
  pending := b.pending.trans a.pending
  unitAddr := b.unitAddr.trans a.unitAddr
  words := b.words.trans a.words
  capture := b.capture.trans a.capture
  complete := b.complete.trans a.complete
  replies := b.replies.trans a.replies
  discards := b.discards.trans a.discards
  events := a.events.trans b.events
  eventsBound h := b.eventsBound (a.eventsBound h)
  memory := b.memory.trans a.memory
  powerCycle := b.powerCycle.trans a.powerCycle
  phrases := b.phrases.trans a.phrases
  platforms := b.platforms.trans a.platforms
  plans := b.plans.trans a.plans
  load := b.load.trans a.load
  calls k := (b.calls k).trans (a.calls k)
  queueBound h := b.queueBound (a.queueBound h)

/-- A fold of actions is an action. -/
theorem foldl {α : Type} {f : State → α → State} (hf : ∀ s a, ActFrame s (f s a)) (l : List α) (s : State) :
    ActFrame s (l.foldl f s) := by
  induction l generalizing s with
  | nil => exact refl s
  | cons a l ih => exact (hf s a).trans (ih (f s a))

theorem setZar {s : State} {z : Zar} (h : s.zar.queue.length ≤ 64 → z.queue.length ≤ 64) : ActFrame s (s.setZar z) := by
  constructor <;> first | rfl | exact List.prefix_refl _ | exact fun h => h | exact fun _ => rfl | exact h

theorem setEngines (s : State) (x : Vector Engine 6) : ActFrame s (s.setEngines x) := by
  constructor <;> first | rfl | exact List.prefix_refl _ | exact fun h => h | exact fun _ => rfl

theorem setWork (s : State) (x : Work) : ActFrame s (s.setWork x) := by
  constructor <;> first | rfl | exact List.prefix_refl _ | exact fun h => h | exact fun _ => rfl

theorem setUse (s : State) (u : Vector Nat 64) : ActFrame s (s.setCmc { s.cmc with useCounts := u }) := by
  constructor <;> first | rfl | exact List.prefix_refl _ | exact fun h => h | exact fun _ => rfl

theorem setCsc {s : State} {c : Csc} (h1 : c.platforms = s.csc.platforms) (h2 : c.plans = s.csc.plans)
    (h3 : c.load = s.csc.load) (h4 : ∀ k, (tget c.calls k).fixed = (tget s.csc.calls k).fixed) :
    ActFrame s (s.setCsc c) := by
  constructor <;> first | rfl | exact List.prefix_refl _ | exact fun h => h | exact h1 | exact h2 | exact h3 | exact h4

theorem pushEvent (kind cause : Byte) (n : Nat) (d : List Field) (s : State) :
    ActFrame s (Machine.pushEvent kind cause n d s) := by
  unfold Machine.pushEvent
  split
  · next hl =>
    constructor <;> first | rfl | exact fun h => h | exact fun _ => rfl | skip
    · exact List.prefix_append _ _
    · intro _; simp; omega
  · constructor <;> first | rfl | exact List.prefix_refl _ | exact fun h => h | exact fun _ => rfl

theorem setPeriodics (s : State) (p : Vector Periodic 16) : ActFrame s (s.setCsc { s.csc with periodics := p }) :=
  setCsc rfl rfl rfl fun _ => rfl

theorem setNextOrder (s : State) (n : Nat) : ActFrame s (s.setZar { s.zar with nextOrder := n }) := setZar fun h => h

theorem fixed_state (c : Call) (st : CallState) : ({ c with state := st } : Call).fixed = c.fixed := rfl

/-- Setting a call record to one with the same fixed fields is an action. -/
theorem setCall {s : State} {k : Nat} {c : Call} (h : c.fixed = (tget s.csc.calls k).fixed) :
    ActFrame s (Machine.setCall k c s) := by
  refine setCsc rfl rfl rfl fun j => ?_
  simp only [tget_tset]; split
  · next e => rw [h, e.1]
  · rfl

/-! ### The due list and triggers -/

theorem duePlace (i : DueItem) (t : Time) (s : State) : ActFrame s (Machine.duePlace i t s) :=
  setCsc rfl rfl rfl fun _ => rfl

theorem dueDrop (i : DueItem) (s : State) : ActFrame s (Machine.dueDrop i s) := setCsc rfl rfl rfl fun _ => rfl

theorem fixed_triggers (c : Call) (ts : List CallTrigger) (h : ts.map (·.role) = c.triggers.map (·.role)) :
    ({ c with triggers := ts } : Call).fixed = c.fixed := by simp [Call.fixed, h]

theorem map_lmod_role (ts : List CallTrigger) (i : Nat) (f : CallTrigger → CallTrigger) (hf : ∀ t, (f t).role = t.role) :
    (lmod ts i f).map (·.role) = ts.map (·.role) := by
  apply List.ext_getElem?
  intro j
  simp only [lmod, List.getElem?_map, List.getElem?_modify]
  cases ts[j]? with
  | none => simp
  | some x => by_cases e : i = j <;> simp [e, hf]

theorem fixed_lmod (c : Call) (i : Nat) (f : CallTrigger → CallTrigger) (hf : ∀ t, (f t).role = t.role) :
    ({ c with triggers := lmod c.triggers i f } : Call).fixed = c.fixed :=
  fixed_triggers c _ (map_lmod_role _ i f hf)

theorem modTrigger (k i : Nat) (f : CallTrigger → CallTrigger) (s : State)
    (hf : ∀ t, (f t).role = t.role := by intro _; rfl) : ActFrame s (Machine.modTrigger k i f s) := by
  unfold Machine.modTrigger
  exact setCall (fixed_lmod _ i f hf)

theorem raiseMissed (k i r : Nat) (c : Option EndCause) (h : Option Nat) (s : State) :
    ActFrame s (Machine.raiseMissed k i r c h s) := pushEvent ..

theorem missTrigger (k i r : Nat) (s : State) : ActFrame s (Machine.missTrigger k i r s) :=
  ((modTrigger k i _ s).trans (dueDrop _ _)).trans (raiseMissed ..)

theorem raiseCallState (k : Nat) (o : CallState) (s : State) : ActFrame s (Machine.raiseCallState k o s) := pushEvent ..

theorem needWalk (s : State) : ActFrame s (Machine.needWalk s) := setWork ..

theorem needPass (s : State) : ActFrame s (Machine.needPass s) := setWork ..

theorem rearmTrigger (k i : Nat) (s : State) : ActFrame s (Machine.rearmTrigger k i s) := by
  unfold Machine.rearmTrigger
  simp only
  split
  · exact (modTrigger k i _ s).trans (duePlace ..)
  · exact modTrigger k i _ s

theorem recordCallEnd (k i h : Nat) (c : EndCause) (s : State) : ActFrame s (Machine.recordCallEnd k i h c s) := by
  unfold Machine.recordCallEnd
  split
  · exact modTrigger k i _ s
  · exact modTrigger k i _ s
  · exact rearmTrigger k i s
  all_goals exact (modTrigger k i _ s).trans (raiseMissed ..)

theorem recordPeriodicEnd (i : Nat) (s : State) : ActFrame s (Machine.recordPeriodicEnd i s) :=
  setCsc rfl rfl rfl fun _ => rfl

theorem tellScheduler (o : Origin) (h : Nat) (c : EndCause) (s : State) : ActFrame s (Machine.tellScheduler o h c s) := by
  cases o
  · exact refl s
  · exact (recordCallEnd ..).trans (needWalk _)
  · exact (recordPeriodicEnd ..).trans (needWalk _)

/-! ### The arbiter -/

theorem setRequest (h : Nat) (r : Request) (s : State) : ActFrame s (Machine.setRequest h r s) := setZar fun h => h

theorem writeClaims (zs : ZoneSet) (c : Claim) (s : State) : ActFrame s (Machine.writeClaims zs c s) := setZar fun h => h

theorem dequeue (h : Nat) (s : State) : ActFrame s (Machine.dequeue h s) :=
  setZar fun hq => (List.length_filter_le _ _).trans hq

theorem setEngine (e : Nat) (x : Engine) (s : State) : ActFrame s (Machine.setEngine e x s) := setEngines ..

theorem bindEngine (e h : Nat) (z : ZoneSet) (s : State) : ActFrame s (Machine.bindEngine e h z s) := setEngine ..

theorem stopEngine (e : Nat) (s : State) : ActFrame s (Machine.stopEngine e s) := setEngine ..

theorem releaseEngine (e : Nat) (s : State) : ActFrame s (Machine.releaseEngine e s) := by
  unfold Machine.releaseEngine
  simp only
  split
  · exact (setEngine ..).trans (setZar fun h => h)
  · exact setEngine ..

theorem releaseEngine? (e : Option Nat) (s : State) : ActFrame s (Machine.releaseEngine? e s) := by
  cases e
  · exact refl s
  · exact releaseEngine ..

theorem unuseBanks (fs : List Fragment) (s : State) : ActFrame s (Machine.unuseBanks fs s) := setUse ..

theorem useBanks (fs : List Fragment) (s : State) : ActFrame s (Machine.useBanks fs s) := setUse ..

theorem endRequest (h : Nat) (c : EndCause) (s : State) : ActFrame s (Machine.endRequest h c s) := by
  unfold Machine.endRequest
  exact ((((((((writeClaims ..).trans (releaseEngine? ..)).trans (dequeue ..)).trans (pushEvent ..)).trans
    (unuseBanks ..)).trans (tellScheduler ..)).trans (setRequest ..)).trans (needPass _))

theorem enterEnding (h : Nat) (o : EndingOutcome) (s : State) : ActFrame s (Machine.enterEnding h o s) := by
  unfold Machine.enterEnding
  simp only
  split
  · exact (setRequest ..).trans (stopEngine ..)
  · exact setRequest ..

theorem endLive (h : Nat) (c : EndCause) (s : State) : ActFrame s (Machine.endLive h c s) := by
  unfold Machine.endLive; split
  · exact endRequest ..
  · exact enterEnding ..

theorem raiseStarted (h : Nat) (z : ZoneSet) (s : State) : ActFrame s (Machine.raiseStarted h z s) := pushEvent ..

theorem joinLive (h : Nat) (s : State) : ActFrame s (Machine.joinLive h s) := by
  unfold Machine.joinLive
  simp only
  split
  · exact refl s
  · split
    · exact ((writeClaims ..).trans (setRequest ..)).trans (raiseStarted ..)
    · exact writeClaims ..

theorem joinLane (h : Nat) (s : State) : ActFrame s (Machine.joinLane h s) := by
  unfold Machine.joinLane
  simp only
  split
  · exact joinLive ..
  · exact refl s

theorem leavePreroll (e : Nat) (s : State) : ActFrame s (Machine.leavePreroll e s) := by
  unfold Machine.leavePreroll
  simp only
  repeat' split
  all_goals first | exact refl _ | exact endRequest .. | exact (setEngine ..).trans (joinLive ..)

theorem testEngine (e : Option Nat) (s : State) : ActFrame s (Machine.testEngine e s) := by
  unfold Machine.testEngine
  split
  · exact leavePreroll ..
  · exact refl s

theorem displace (h : Nat) (c : RemovalCause) (s : State) : ActFrame s (Machine.displace h c s) := by
  unfold Machine.displace
  simp only
  split
  · exact enterEnding ..
  · exact endRequest ..

theorem unwait (e : Option Nat) (zs : ZoneSet) (s : State) : ActFrame s (Machine.unwait e zs s) := by
  unfold Machine.unwait
  split
  · simp only; split
    · exact setEngine ..
    · exact refl s
  · exact refl s

theorem loseZones (h : Nat) (zs : ZoneSet) (c : RemovalCause) (k : Option Nat) (s : State) :
    ActFrame s (Machine.loseZones h zs c k s) := by
  unfold Machine.loseZones
  simp only
  have a : ActFrame s (Machine.unwait (request s h).engine zs (Machine.setRequest h
      (withPartial { request s h with granted := zdiff (request s h).granted zs }) (Machine.writeClaims zs .empty s))) :=
    ((writeClaims ..).trans (setRequest ..)).trans (unwait ..)
  split
  · exact (a.trans (pushEvent ..)).trans (displace ..)
  · exact (a.trans (pushEvent ..)).trans (testEngine ..)

theorem grant (h : Nat) (zs : ZoneSet) (b : Bool) (s : State) : ActFrame s (Machine.grant h zs b s) := by
  unfold Machine.grant
  simp only
  split
  · exact ((((((dequeue ..).trans (setRequest ..)).trans (foldl (fun _ _ => loseZones ..) _ _)).trans
      (writeClaims ..)).trans (setRequest ..)).trans (bindEngine ..)).trans (joinLane ..)
  · exact ((((dequeue ..).trans (setRequest ..)).trans (foldl (fun _ _ => loseZones ..) _ _)).trans
      (writeClaims ..)).trans (joinLane ..)

theorem stopVictim (s : State) : ActFrame s (Machine.stopVictim s) := by
  unfold Machine.stopVictim
  split
  · exact refl s
  · split
    · exact refl s
    · exact (enterEnding ..).trans (setZar fun h => h)

theorem walkRequest (p : State × Bool) (h : Nat) : ActFrame p.1 (Machine.walkRequest p h).1 := by
  unfold Machine.walkRequest
  simp only
  repeat' split
  all_goals first | exact refl _ | exact grant .. | exact stopVictim _

theorem waitingWalk (s : State) : ActFrame s (Machine.waitingWalk s) := by
  unfold Machine.waitingWalk
  suffices h : ∀ (l : List Nat) (p : State × Bool), ActFrame p.1 (l.foldl Machine.walkRequest p).1 from h _ (s, false)
  intro l
  induction l with
  | nil => exact fun p => refl p.1
  | cons a l ih => exact fun p => (walkRequest p a).trans (ih _)

theorem addWait (e : Option Nat) (zs : ZoneSet) (s : State) : ActFrame s (Machine.addWait e zs s) := by
  unfold Machine.addWait
  split
  · simp only; split
    · exact setEngine ..
    · exact refl s
  · exact refl s

theorem lateJoin (s : State) (h : Nat) : ActFrame s (Machine.lateJoin s h) := by
  unfold Machine.lateJoin
  simp only
  split
  · exact refl s
  · split
    · exact refl s
    · exact (((writeClaims ..).trans (setRequest ..)).trans (addWait ..)).trans (joinLane ..)

theorem lateJoinWalk (s : State) : ActFrame s (Machine.lateJoinWalk s) := foldl lateJoin _ _

theorem pass (s : State) : ActFrame s (Machine.pass s) :=
  (((setWork ..).trans (waitingWalk _)).trans (lateJoinWalk _)).trans (setWork ..)

theorem prerollTests (s : State) : ActFrame s (Machine.prerollTests s) := foldl (fun s e => leavePreroll e s) _ _

theorem passWithTests (s : State) : ActFrame s (Machine.passWithTests s) := (pass s).trans (prerollTests _)

theorem passes (n : Nat) (s : State) : ActFrame s (Machine.passes n s) := by
  induction n generalizing s with
  | zero => exact refl s
  | succ n ih =>
    unfold Machine.passes
    split
    · exact (passWithTests s).trans (ih _)
    · exact refl s

theorem ownPasses {f : State → State} {s : State} (hf : ∀ w, ActFrame (s.setWork w) (f (s.setWork w))) :
    ActFrame s (Machine.ownPasses s f) :=
  (((setWork ..).trans (hf _)).trans (passes ..)).trans (setWork ..)

theorem continueList (e h i : Nat) (s : State) : ActFrame s (Machine.continueList e h i s) := by
  unfold Machine.continueList
  simp only
  split
  · exact setEngine ..
  · exact (setEngine ..).trans (pushEvent ..)

theorem handOver (e h : Nat) (s : State) : ActFrame s (Machine.handOver e h s) :=
  ((setRequest ..).trans (releaseEngine ..)).trans (needPass _)

theorem takeBoundary (e h i : Nat) (s : State) : ActFrame s (Machine.takeBoundary e h i s) := by
  unfold Machine.takeBoundary
  split
  · exact endRequest ..
  · simp only
    repeat' split
    · exact (joinLive ..).trans (handOver ..)
    · exact (joinLive ..).trans (endRequest ..)
    · exact (joinLive ..).trans (continueList ..)

theorem boundary (e : Nat) (s : State) : ActFrame s (Machine.boundary e s) := by
  unfold Machine.boundary
  simp only
  split
  · exact takeBoundary ..
  · exact refl s

theorem insertHandle_length (s : State) (h : Nat) (l : List Nat) : (insertHandle s h l).length = l.length + 1 := by
  induction l with
  | nil => rfl
  | cons k l ih => unfold insertHandle; split <;> simp [ih]

theorem enqueue {h : Nat} {s : State} (hq : s.zar.queue.length < 64) : ActFrame s (Machine.enqueue h s) :=
  setZar fun _ => by simp only [insertHandle_length]; omega

theorem requeue {h : Nat} {s : State} (hq : s.zar.queue.length < 64) : ActFrame s (Machine.requeue h s) := by
  unfold Machine.requeue
  simp only
  have q : (Machine.releaseEngine? (request s h).engine (Machine.writeClaims (claimedZones s h) .empty s)).zar.queue
      = s.zar.queue := by
    cases (request s h).engine
    · rfl
    · simp only [Machine.releaseEngine?, Machine.releaseEngine]; split <;> rfl
  refine (((((writeClaims ..).trans (releaseEngine? ..)).trans (setRequest ..)).trans (enqueue ?_)).trans
    (pushEvent ..)).trans (needPass _)
  show (Machine.releaseEngine? _ _).zar.queue.length < 64
  rw [q]; exact hq

theorem takeOutcome (h : Nat) (s : State) : ActFrame s (Machine.takeOutcome h s) := by
  unfold Machine.takeOutcome
  simp only
  split
  · exact endRequest ..
  · split
    · exact endRequest ..
    · split
      · exact endRequest ..
      · exact requeue (by omega)
  · exact refl s

theorem endFade (e : Nat) (s : State) : ActFrame s (Machine.endFade e s) := by
  unfold Machine.endFade
  simp only
  split
  · split
    · exact ((takeOutcome ..).trans (releaseEngine ..)).trans (needPass _)
    · exact (releaseEngine ..).trans (needPass _)
  · exact refl s

theorem admitRecord {h : Nat} {r : Request} {s : State} (hq : s.zar.queue.length < 64) :
    ActFrame s (Machine.admitRecord h r s) := by
  unfold Machine.admitRecord
  exact ((((setRequest ..).trans (setNextOrder ..)).trans (useBanks ..)).trans (enqueue hq)).trans (needPass _)

/-! ### The scheduler -/

theorem schedulerAdmit {r : Request} {record : Nat → State → State} (hr : ∀ h s, ActFrame s (record h s)) (s : State) :
    ActFrame s (Machine.schedulerAdmit r record s).1 := by
  unfold Machine.schedulerAdmit
  simp only
  repeat' split
  all_goals first | exact refl s | skip
  next hq _ h _ =>
    dsimp only
    refine ownPasses fun w => ?_
    have hq' : (s.setWork w).zar.queue.length < 64 := by rw [State.setWork_zar]; omega
    exact (admitRecord hq').trans (hr h _)

theorem recordFired (k i h : Nat) (s : State) : ActFrame s (Machine.recordFired k i h s) :=
  (modTrigger k i _ s).trans (dueDrop ..)

theorem openCall (k : Nat) (s : State) : ActFrame s (Machine.openCall k s) := by
  unfold Machine.openCall
  simp only
  split
  · exact (setCall (fixed_state ..)).trans (raiseCallState ..)
  · exact refl s

theorem fireTrigger (k i : Nat) (t : Trigger) (f : Time) (s : State) : ActFrame s (Machine.fireTrigger k i t f s).1 := by
  unfold Machine.fireTrigger
  simp only
  split
  · exact missTrigger ..
  · next x _ =>
    have a := schedulerAdmit (r := triggerRequest s k i t x) (recordFired k i) s
    split
    · next e => rw [e] at a; exact a.trans (openCall ..)
    · next e => rw [e] at a; exact a.trans (missTrigger ..)
    · next e => rw [e] at a; exact a.trans (missTrigger ..)
    · next e =>
      rw [e] at a
      split
      · exact a
      · exact a.trans (missTrigger ..)

theorem takeTrigger (k i : Nat) (s : State) : ActFrame s (Machine.takeTrigger k i s) := by
  unfold Machine.takeTrigger
  simp only
  split
  · exact refl s
  · next t _ =>
    repeat' split
    · exact missTrigger ..
    · exact refl s
    all_goals
      next e =>
        have a := fireTrigger k i t (callTrigger (tget s.csc.calls k) i).fire s
        rw [e] at a
        first | exact a | exact a.trans (setWork ..)

theorem skipPeriodic (i : Nat) (s : State) : ActFrame s (Machine.skipPeriodic i s) := setCsc rfl rfl rfl fun _ => rfl

theorem recordPeriodic (i h : Nat) (s : State) : ActFrame s (Machine.recordPeriodic i h s) := setPeriodics ..

theorem firePeriodic (i : Nat) (s : State) : ActFrame s (Machine.firePeriodic i s) := by
  unfold Machine.firePeriodic
  simp only
  split
  · exact skipPeriodic ..
  · split
    · exact skipPeriodic ..
    · next x _ =>
      split
      all_goals
        next e =>
          have a := schedulerAdmit (r := periodicRequest (tget s.csc.periodics i) x i) (recordPeriodic i) s
          rw [e] at a
          first | exact a | exact a.trans (skipPeriodic ..)

theorem rebasePeriodic (i : Nat) (s : State) : ActFrame s (Machine.rebasePeriodic i s) :=
  (setPeriodics ..).trans (duePlace ..)

theorem takeEntry (s : State) (e : DueEntry) : ActFrame s (Machine.takeEntry s e) := by
  unfold Machine.takeEntry
  split
  · exact takeTrigger ..
  · exact (firePeriodic ..).trans (rebasePeriodic ..)

theorem walk (s : State) : ActFrame s (Machine.walk s) := foldl takeEntry _ _

theorem settleFor (n : Nat) (s : State) : ActFrame s (Machine.settleFor n s) := by
  induction n generalizing s with
  | zero => exact refl s
  | succ n ih =>
    unfold Machine.settleFor
    split
    · simp only
      split
      · exact ((setWork ..).trans (walk _)).trans (ih _)
      · exact (setWork ..).trans (ih _)
    · split
      · exact (passWithTests s).trans (ih _)
      · exact refl s

theorem settle (s : State) : ActFrame s (Machine.settle s) := settleFor ..

theorem map_supersede_role (p : CallTrigger → Bool) (ts : List CallTrigger) :
    (ts.map (supersedeTrigger p)).map (·.role) = ts.map (·.role) := by
  rw [List.map_map]
  apply List.map_congr_left
  intro t _
  simp only [Function.comp, supersedeTrigger]; split <;> rfl

theorem supersede (k : Nat) (p : CallTrigger → Bool) (s : State) : ActFrame s (Machine.supersede k p s) := by
  unfold Machine.supersede
  simp only
  have a : ActFrame s ((List.range (tget s.csc.calls k).triggers.length).foldl (fun s' i =>
      if supersedeTrigger p (callTrigger (tget s.csc.calls k) i) = callTrigger (tget s.csc.calls k) i then s'
      else Machine.dueDrop (.trigger k i) s') s) := by
    refine foldl (fun s' i => ?_) _ _
    split
    · exact refl _
    · exact dueDrop ..
  refine a.trans (setCall ?_)
  rw [fixed_triggers _ _ (map_supersede_role p _)]
  exact (a.calls k).symm

theorem closeCall (s : State) (k : Nat) : ActFrame s (Machine.closeCall s k) := by
  unfold Machine.closeCall
  simp only
  split
  · exact ((supersede ..).trans (setCall (fixed_state ..))).trans (raiseCallState ..)
  · exact refl s

theorem closeCalls (s : State) : ActFrame s (Machine.closeCalls s) := foldl closeCall _ _

theorem schedulerNotice (s : State) : ActFrame s (Machine.schedulerNotice s) := by
  unfold Machine.schedulerNotice
  split
  · exact ((walk s).trans (settle _)).trans (closeCalls _)
  · exact refl s

theorem withdraw (h : Nat) (s : State) : ActFrame s (Machine.withdraw h s) := by
  unfold Machine.withdraw; split
  · exact endRequest ..
  · exact refl s

theorem cancelRequest (h : Nat) (s : State) : ActFrame s (Machine.cancelRequest h s) := by
  unfold Machine.cancelRequest
  simp only
  repeat' split
  all_goals first | exact refl s | exact endRequest .. | exact setRequest ..

theorem raiseSkipped (k i : Nat) (s : State) : ActFrame s (Machine.raiseSkipped k i s) := pushEvent ..

theorem fireSpecial (k i : Nat) (s : State) : ActFrame s (Machine.fireSpecial k i s).1 := by
  unfold Machine.fireSpecial
  simp only
  split
  · exact refl s
  · next t _ =>
    repeat' split
    · exact refl s
    · exact raiseSkipped ..
    · exact missTrigger ..
    all_goals
      next e =>
        have a := fireTrigger k i t (now s).1 s
        rw [e] at a
        exact a.trans (settle _)

/-! ### The line controller's reports, and the timed ends -/

theorem testWaiting (z : Nat) (s : State) : ActFrame s (Machine.testWaiting z s) := by
  refine foldl (fun s e => ?_) _ _
  split
  · exact leavePreroll ..
  · exact refl _

theorem reportLive (z : Nat) (s : State) : ActFrame s (Machine.reportLive z s) := by
  unfold Machine.reportLive
  simp only
  refine ActFrame.trans ?_ ((testWaiting ..).trans (settle _))
  split
  · exact joinLane ..
  · exact refl s
  · exact refl s

theorem zoneLost (z : Nat) (c : RemovalCause) (s : State) : ActFrame s (Machine.zoneLost z c s) := by
  unfold Machine.zoneLost
  simp only
  refine ActFrame.trans ?_ ((needPass _).trans (settle _))
  split
  · exact refl s
  · exact loseZones ..

theorem endAll {f : Nat → State → State} (hf : ∀ h s, ActFrame s (f h s)) (hs : List Nat) (s : State) :
    ActFrame s (Machine.endAll f hs s) := by
  unfold Machine.endAll
  split
  · exact refl s
  · exact (foldl (fun s h => hf h s) _ _).trans (settle _)

theorem expireAll (s : State) : ActFrame s (Machine.expireAll s) := endAll (fun _ _ => endRequest ..) ..

theorem countTalk (s : State) : ActFrame s (Machine.countTalk s) := setZar fun h => h

theorem loseSources (s : State) : ActFrame s (Machine.loseSources s) := endAll (fun _ _ => endLive ..) ..

theorem releaseRequest (k : Nat) (b : Bool) (s : State) : ActFrame s (Machine.releaseRequest k b s) := by
  unfold Machine.releaseRequest
  simp only
  repeat' split
  all_goals first | exact refl s | exact endRequest .. | exact enterEnding .. | exact setRequest ..

/-! ### Actions on a notice -/

/-- An action on a notice is an action: the time that it reads leaves no trace (R136, R138). -/
theorem withTime {f : State → State} (hf : ∀ s, ActFrame s (f s)) (t : Time) (p : Nat) (s : State) :
    ActFrame s (Machine.withTime t p f s) := by
  have a := hf ((s.setStc { s.stc with time := t, phase := p }).setPeriod { s.period with read := none })
  exact {
    itp := a.itp, etp := a.etp, zmx := a.zmx, amt := a.amt, zlc := a.zlc, tex := a.tex
    stc := by simp [Machine.withTime, a.stc]
    period := by simp [Machine.withTime, a.period]
    free := a.free, pending := a.pending, unitAddr := a.unitAddr, words := a.words, capture := a.capture
    complete := a.complete, replies := a.replies, discards := a.discards, events := a.events
    eventsBound := a.eventsBound, memory := a.memory, powerCycle := a.powerCycle, phrases := a.phrases
    platforms := a.platforms, plans := a.plans, load := a.load, calls := a.calls, queueBound := a.queueBound }

theorem onTick {f : State → State} (hf : ∀ s, ActFrame s (f s)) (s : State) : ActFrame s (Machine.onTick f s) :=
  withTime hf ..

/-- An action on the tick-end notice is an action, but for the note of the zones whose holder it changes (R138, log 39). -/
theorem tickNotice {f : State → State} (hf : ∀ s, ActFrame s (f s)) (s : State) :
    ActFrame (s.setPeriod { s.period with tickZones := (Machine.tickNotice f s).period.tickZones })
      (Machine.tickNotice f s) := by
  have a := onTick hf s
  exact {
    itp := a.itp, etp := a.etp, zmx := a.zmx, amt := a.amt, zlc := a.zlc, tex := a.tex, stc := a.stc
    period := by simp [Machine.tickNotice, a.period]
    free := a.free, pending := a.pending, unitAddr := a.unitAddr, words := a.words, capture := a.capture
    complete := a.complete, replies := a.replies, discards := a.discards, events := a.events
    eventsBound := a.eventsBound, memory := a.memory, powerCycle := a.powerCycle, phrases := a.phrases
    platforms := a.platforms, plans := a.plans, load := a.load, calls := a.calls, queueBound := a.queueBound }

end ActFrame

/-! ### The test of R99 and the note of a load (R155) -/

/-- An engine that is not ready for the exit from PREROLL is left as it is. -/
@[simp] theorem leavePreroll_of_not_ready {s : State} {e : Nat} (h : prerollReady s (tget s.engines e) = false) :
    leavePreroll e s = s := by simp [leavePreroll, h]

@[simp] theorem testEngine_none (s : State) : testEngine none s = s := rfl

@[simp] theorem testEngine_some (e : Nat) (s : State) : testEngine (some e) s = leavePreroll e s := rfl

@[simp] theorem noteLoad_csc (slot : Nat) (s : State) : (noteLoad slot s).csc = s.csc := rfl

@[simp] theorem noteLoad_zar (slot : Nat) (s : State) : (noteLoad slot s).zar = s.zar := rfl

@[simp] theorem noteLoad_loaded (slot : Nat) (s : State) : (noteLoad slot s).period.loaded = s.period.loaded ++ [slot] := rfl

/-- After the note, and only then, a slot counts as loaded by the frame period (R155). -/
@[simp] theorem justLoaded_noteLoad (slot other : Nat) (s : State) :
    justLoaded (noteLoad slot s) other = (justLoaded s other || slot == other) := by
  simp only [justLoaded, noteLoad_loaded, List.contains_append, List.contains_cons, List.contains_nil, Bool.or_false,
    BEq.comm (a := slot)]

/-! ### The order of standing (R69) and the candidates of R77 -/

/-- A request stands before another by class, then priority, then admission order (R69). -/
theorem standsBefore_iff (a b : Request) : standsBefore a b = true ↔
    classNum a.cls < classNum b.cls ∨ (classNum a.cls = classNum b.cls ∧
      (a.priority < b.priority ∨ (a.priority = b.priority ∧ a.order < b.order))) := by
  simp [standsBefore]

/-- One that does not stand before another has no better key (R69). -/
theorem not_standsBefore_iff (a b : Request) : standsBefore a b = false ↔
    classNum b.cls < classNum a.cls ∨ (classNum b.cls = classNum a.cls ∧
      (b.priority < a.priority ∨ (b.priority = a.priority ∧ b.order ≤ a.order))) := by
  rw [Bool.eq_false_iff, Ne, standsBefore_iff]
  omega

theorem standsBefore_irrefl (a : Request) : standsBefore a a = false := by simp [not_standsBefore_iff]

/-- Which requests may be the victim of R77, each with its engine. -/
theorem victimEngine_iff (s : State) (h e : Nat) : victimEngine s h = some e ↔
    (request s h).cls ≠ .evac ∧ (request s h).live = false ∧ (request s h).engine = some e ∧
      ((tget s.engines e).state = .preroll ∨ (tget s.engines e).state = .playing) := by
  unfold victimEngine
  simp only
  cases (request s h).engine <;> simp
  constructor
  · rintro ⟨⟨a, b, c⟩, rfl⟩
    exact ⟨a, b, rfl, c⟩
  · rintro ⟨a, b, rfl, c⟩
    exact ⟨⟨a, b, c⟩, rfl⟩

end Sys2Proof.Machine
end

