-- ==== Sys2Proof/Laws/Start.lean ====
section
/-! SUPPORT. What the start of a frame period and the taking of a command can do. -/

namespace Sys2Proof.Machine

/-! ### The start work (R2, R14, R19) -/

/-- The slot arbiter's choice touches the egress port and the cell queues alone: a reply or an event leaves its queue, or neither (R14). -/
theorem chooseCell_spec (s : State) :
    chooseCell s = (s.setEtp (chooseCell s).etp).setCh
      { s.ch with replies := (chooseCell s).ch.replies, events := (chooseCell s).ch.events } := by
  unfold chooseCell; split
  · split <;> rfl
  · rfl

@[simp] theorem chooseCell_unitAddr (s : State) : (chooseCell s).ch.unitAddr = s.ch.unitAddr := by
  rw [chooseCell_spec]; rfl

@[simp] theorem beginPeriod_started (s : State) : (beginPeriod s).period.started = true := rfl

@[simp] theorem startPeriod_started (s : State) : (startPeriod s).period.started = true := by
  unfold startPeriod; split
  · assumption
  · rfl

/-- The start work is done once in a frame period. -/
@[simp] theorem startPeriod_of_started {s : State} (h : s.period.started = true) : startPeriod s = s := by
  simp [startPeriod, h]

@[simp] theorem startPeriod_startPeriod (s : State) : startPeriod (startPeriod s) = startPeriod s :=
  startPeriod_of_started (startPeriod_started s)

/-- What the start work leaves: everything but the ports' slot and frame, the cell queues, the mixer, the tracker, the engines and the note that it is done (R19). -/
theorem startPeriod_spec (s : State) :
    startPeriod s = { s with
      etp := (startPeriod s).etp
      ch := { s.ch with replies := (startPeriod s).ch.replies, events := (startPeriod s).ch.events }
      zmx := (startPeriod s).zmx
      amt := (startPeriod s).amt
      engines := (startPeriod s).engines
      period := { s.period with started := true } } := by
  by_cases h : s.period.started = true
  · rw [startPeriod_of_started h]
    obtain ⟨_, _, _, _, _, _, _, _, _, _, _, _, p, _, _, _⟩ := s
    simp only at h; cases p; simp_all
  · have e := chooseCell_spec s
    simp only [startPeriod, h]
    simp only [beginPeriod]
    rw [e]; rfl

@[simp] theorem startPeriod_unitAddr (s : State) : (startPeriod s).ch.unitAddr = s.ch.unitAddr := by
  rw [startPeriod_spec]

@[simp] theorem startPeriod_free (s : State) : (startPeriod s).free = s.free := by rw [startPeriod_spec]

@[simp] theorem startPeriod_pending (s : State) : (startPeriod s).pending = s.pending := by rw [startPeriod_spec]

@[simp] theorem startPeriod_stc (s : State) : (startPeriod s).stc = s.stc := by rw [startPeriod_spec]

@[simp] theorem startPeriod_zar (s : State) : (startPeriod s).zar = s.zar := by rw [startPeriod_spec]

@[simp] theorem startPeriod_zlc (s : State) : (startPeriod s).zlc = s.zlc := by rw [startPeriod_spec]

@[simp] theorem startPeriod_csc (s : State) : (startPeriod s).csc = s.csc := by rw [startPeriod_spec]

@[simp] theorem startPeriod_cmc (s : State) : (startPeriod s).cmc = s.cmc := by rw [startPeriod_spec]

@[simp] theorem startPeriod_itp (s : State) : (startPeriod s).itp = s.itp := by rw [startPeriod_spec]

@[simp] theorem startPeriod_tex (s : State) : (startPeriod s).tex = s.tex := by rw [startPeriod_spec]

@[simp] theorem startPeriod_work (s : State) : (startPeriod s).work = s.work := by rw [startPeriod_spec]

/-! ### The taking of a command (R175, R176, R177) -/

@[simp] theorem addressed_startPeriod (h : Header) (s : State) : addressed h (startPeriod s) = addressed h s := by
  simp [addressed]

/-- A command addressed to the unit is carried out and answered, once the frame period has begun (R175, R177). -/
theorem takeCommand_addressed {h : Header} {code : Byte} {run : State → Answer} {s : State}
    (hs : s.period.started = true) (h15 : h.addr ≠ 15) (ha : h.addr = s.ch.unitAddr) :
    takeCommand h code run s =
      pushReply ⟨h.tag, code, (run s).status, (run s).result⟩ ((run s).after.setFree (s.free + 1)) := by
  have : addressed h s = true := by simp [addressed, ha]
  rw [takeCommand, if_pos this, startPeriod_of_started hs, carryOut, if_neg h15]

/-- A broadcast command is carried out and not answered (R175). -/
theorem takeCommand_broadcast {h : Header} {code : Byte} {run : State → Answer} {s : State}
    (hs : s.period.started = true) (h15 : h.addr = 15) :
    takeCommand h code run s = (run s).after.setFree (s.free + 1) := by
  have : addressed h s = true := by simp [addressed, h15]
  rw [takeCommand, if_pos this, startPeriod_of_started hs, carryOut, if_pos h15]

/-- A command for another unit is ignored (R175). -/
theorem takeCommand_foreign {h : Header} {code : Byte} {run : State → Answer} {s : State}
    (h15 : h.addr ≠ 15) (ha : h.addr ≠ s.ch.unitAddr) : takeCommand h code run s = s := by
  have : ¬ addressed h s = true := by
    rw [addressed, Bool.or_eq_true, beq_iff_eq, beq_iff_eq]
    exact fun e => e.elim h15 ha
  rw [takeCommand, if_neg this]

/-- A command that is taken begins the frame period where no row has begun it (log 1). -/
theorem takeCommand_startPeriod {h : Header} {code : Byte} {run : State → Answer} {s : State} (ha : addressed h s = true) :
    takeCommand h code run (startPeriod s) = takeCommand h code run s := by
  simp [takeCommand, ha]

/-- What a taken command does is done by the start work and by its run, but for the reply and the index of free values. -/
theorem takeCommand_keeps (P : State → Prop) (hr : ∀ r s, P s → P (pushReply r s)) (hf : ∀ n s, P s → P (s.setFree n))
    (h : Header) (code : Byte) (run : State → Answer) (s : State) (hs : P s) (hrun : P (run (startPeriod s)).after) :
    P (takeCommand h code run s) := by
  unfold takeCommand; split
  · unfold carryOut; simp only; split
    · exact hf _ _ hrun
    · exact hr _ _ (hf _ _ hrun)
  · exact hs

end Sys2Proof.Machine
end

