-- ==== Sys2Proof/Tests/Slice0.lean ====
section
/-! SUPPORT. The model's own tests: ill-formed terms refused, the manual's worked examples, and for each obligation with hypotheses a state and operands that meet them. -/

open Sys2Proof Sys2Proof.Machine

namespace Sys2Proof.Tests

set_option Elab.async false

/-! ### Helpers -/

/-- The header of a command addressed to unit 0, with tag 5. -/
def hd : Header := ⟨0, 5⟩

/-- The state a command leaves. -/
def after (c : Instr) (s : State) : State :=
  match exec c s with
  | .next t => t
  | .fault _ | .refused _ => s

/-- The state a run of commands leaves. -/
def runs (cs : List Instr) (s : State) : State := cs.foldl (fun s c => after c s) s

/-- The set of the zones of a list. -/
def zs (l : List Nat) : ZoneSet := l.foldl (fun a z => a ||| zone1 z) 0

/-- `s` in a frame period whose start work is done. -/
def begun (s : State) : State := s.setPeriod { newPeriod with started := true }

/-- `s` in a frame period whose tick end is taken. -/
def ticked (s : State) : State :=
  s.setPeriod { newPeriod with
    started := true, tickTaken := true, tick := some (s.stc.time + 1), handed := some (s.stc.time + 1) }

/-- The status and result fields of the last reply. -/
def replied (s : State) : Option (Status × List Field) := s.ch.replies.getLast?.map fun r => (r.status, r.result)

/-- `s` with a zone table entry. -/
def withLine (z : Nat) (l : ZoneLine) (s : State) : State := s.setZlc (tset s.zlc z l)

/-- `s` with a claim entry. -/
def withClaim (z : Nat) (c : Claim) (s : State) : State := s.setZar { s.zar with claims := tset s.zar.claims z c }

/-- `s` with another clock. -/
def atTime (t : Time) (phase : Nat) (st : TimeStatus) (s : State) : State :=
  s.setStc { s.stc with time := t, phase := phase, status := st }

/-- An enabled 24-bit zone in a line state, with pre-roll 2,400 and hang 300. -/
def line (l : LineState) : ZoneLine := ⟨true, false, 2400, 300, false, l, if l = .waking then 1 else 0, 0, 0, false⟩

/-- A template item of a phrase. -/
def say (id : Word) : ItemCell := ⟨0, id⟩

/-- An item place that is not read. -/
def noItem : ItemCell := ⟨0, 0⟩

/-- A trigger place that is not read. -/
def noTrigger : TriggerCell := ⟨0, 0, 0, 0, 0, 0, 0, 0, 0, 0⟩

/-- An ANNOUNCE of template 3 by class, priority, flags, zones and minimum coverage. -/
def announcing (cls priority flags : Byte) (zones : List Nat) (coverage : Half) : AnnounceFields :=
  ⟨cls, priority, flags, zs zones, coverage, 16384, 0, 3, 0, 0xFFFF, 0, 0, 0⟩

/-- Phrase 310 of 240,000 frames and template 3 that speaks it alone. -/
def station : State :=
  (State.reset.setCmc { State.reset.cmc with phrases := tset State.reset.cmc.phrases 310 (some ⟨0, 120000⟩) }).setTex
    { State.reset.tex with templates := tset State.reset.tex.templates 3 (some ⟨[⟨[.phrase 310], 1⟩], false⟩) }

/-! ### Ill-formed terms -/

theorem test_frame_of_39_lanes_refused : Instr.wellFormed (.ingressGoodFrame ⟨0, List.replicate 39 0, 0, 0⟩) = false := by decide
theorem test_bad_frame_of_41_lanes_refused : Instr.wellFormed (.ingressBadFrame ⟨0, List.replicate 41 0, 0, 0⟩) = false := by decide
theorem test_command_kind_as_non_command_refused : Instr.wellFormed (.nonCommandCell 1 hd) = false := by decide
theorem test_broadcast_as_foreign_refused : Instr.wellFormed (.foreignCell ⟨15, 0⟩ 0x11) = false := by decide
theorem test_known_code_as_unknown_refused : Instr.wellFormed (.unknownCommand hd 0xA3) = false := by decide
theorem test_zone_48_refused :
    Instr.wellFormed (.windowEnd 48) = false ∧ Instr.wellFormed (.releaseHoldEnd 48) = false ∧
    Instr.wellFormed (.wakeEnd 48) = false ∧ Instr.wellFormed (.hangEnd 48) = false := by decide
theorem test_handle_96_refused : Instr.wellFormed (.talkTimeout 96) = false := by decide
theorem test_engine_6_refused :
    Instr.wellFormed (.prerollExit 6) = false ∧ Instr.wellFormed (.fragmentBoundary 6) = false ∧
    Instr.wellFormed (.fadeEnd 6) = false := by decide
theorem test_19_samples_refused : Instr.wellFormed (.clipWrite hd 0 (List.replicate 19 0)) = false := by decide
theorem test_six_items_refused : Instr.wellFormed (.templateSet hd 0 1 0 1 0 (List.replicate 6 noItem)) = false := by decide
theorem test_one_trigger_place_refused : Instr.wellFormed (.planSet hd 0 1 0 0 0 [noTrigger]) = false := by decide
theorem test_three_via_places_refused :
    Instr.wellFormed (.callLoad hd ⟨0, 0, 0, 0, 0, [0, 0, 0], 0, 0, 0, 0⟩) = false := by decide

/-! ### Worked examples of Chapters 1 to 3 -/

/-- R1: the check value by the method of CRC-32 with the parameters of R1, over one word of zeros (the CRC-32/BZIP2 value of four zero bytes). -/
theorem test_check_value : checkValue [0] = 0x38FB2284 := by decide +kernel

/-- Section 1.4, moving an ambient microphone: the reply gives displaced lane 30 and released zone FFh. -/
theorem test_lane_set_moves_the_microphone :
    let s := State.reset.setItp { State.reset.itp with roles := tset State.reset.itp.roles 30 (.ambient 12) }
    replied (after (.laneSet hd 31 2 12) s) = some (.done, [.b1 31, .b1 2, .b1 12, .b1 30, .b1 0xFF]) := by decide +kernel

/-- The same example: moving lane 31 from zone 12 to zone 13 releases zone 12, displaces no lane and clears both estimators. -/
theorem test_lane_set_releases_a_zone :
    let a := { defaultAmbientZone with acc := 7, level := 9, factor := 20000 }
    let s := (State.reset.setItp { State.reset.itp with roles := tset State.reset.itp.roles 31 (.ambient 12) }).setAmt
      (tset (tset State.reset.amt 12 a) 13 a)
    let t := after (.laneSet hd 31 2 13) s
    replied t = some (.done, [.b1 31, .b1 2, .b1 13, .b1 0xFF, .b1 12]) ∧
    (tget t.amt 12).factor = 16384 ∧ (tget t.amt 13).level = 0 := by decide +kernel

/-- Section 1.6, a torn cell: the damaged frame discards five words, the counter rises, and the link stays SYNC. -/
theorem test_torn_cell :
    let s := (State.reset.setItp { State.reset.itp with link := .sync }).setCh
      { State.reset.ch with words := [1, 2, 3, 4, 5], capture := some (0, 0) }
    let t := badFrame s
    t.ch.words = [] ∧ t.ch.discards = 1 ∧ t.itp.badRun = 1 ∧ t.itp.crcErrors = 1 ∧ t.itp.link = .sync := by decide +kernel

/-- R3, R15: the first good frame of DOWN makes the link SYNC, and its flagged service word begins a cell. -/
theorem test_first_good_frame :
    let f : Frame := ⟨0xC35A2880, List.replicate 40 0x00000100, 0x01020304, 0⟩
    let t := goodFrame f State.reset
    headerFound f = true ∧ t.itp.link = .sync ∧ t.ch.words = [0x01020304] ∧ tget t.itp.lastGood 39 = 1 := by decide +kernel

/-- R1, R7: a missing frame of SYNC counts once in both counters. -/
theorem test_missing_frame :
    let t := after .ingressMissingFrame (State.reset.setItp { State.reset.itp with link := .sync })
    t.itp.missing = 1 ∧ t.itp.badRun = 1 := by decide +kernel

/-- Section 2.5, a live desk: a run of three damaged frames delivers the held sample, the fourth delivers 0. -/
theorem test_held_samples :
    let s := State.reset.setItp { State.reset.itp with
      link := .sync, badRun := 3,
      lastGood := tset State.reset.itp.lastGood 7 100000, roles := tset State.reset.itp.roles 7 .source }
    sourceValue s 7 = 100000 ∧ sourceValue (s.setItp { s.itp with badRun := 4 }) 7 = 0 := by decide +kernel

/-- Section 2.3, programme terms on small samples: −2 and 3, and their sum 1. -/
theorem test_programme_terms :
    let m := { defaultMixZone with routes := tset (tset defaultMixZone.routes 0 ⟨some 4, 8192⟩) 1 ⟨some 5, 8192⟩ }
    let s := State.reset.setItp { State.reset.itp with
      link := .sync,
      lastGood := tset (tset State.reset.itp.lastGood 4 (BitVec.ofInt 24 (-5))) 5 5,
      roles := tset (tset State.reset.itp.roles 4 .source) 5 .source }
    routeTerm s (tget m.routes 0) = -2 ∧ routeTerm s (tget m.routes 1) = 3 ∧ programmeSum s m = 1 := by decide +kernel

/-- The same example: ROUTE_SET with lane FFh replies with previous lane 5 and previous coefficient 8192; the zone stays programme-awake by route 0. -/
theorem test_route_set :
    let m := { defaultMixZone with routes := tset (tset defaultMixZone.routes 0 ⟨some 4, 8192⟩) 1 ⟨some 5, 8192⟩ }
    let t := after (.routeSet hd 3 1 0xFF 0) (State.reset.setZmx (tset State.reset.zmx 3 m))
    replied t = some (.done, [.b1 3, .b1 1, .b1 0xFF, .b2 0, .b1 5, .b2 8192]) ∧ (tget t.zlc 3).routeLive = true := by
  decide +kernel

/-- R34: ZONE_MIX_SET replies with what was written, what was held, and d. -/
theorem test_zone_mix_set :
    replied (after (.zoneMixSet hd 9 20000 8192 64) State.reset) =
      some (.done, [.b1 9, .b2 20000, .b2 8192, .b2 64, .b2 16384, .b2 16384, .b2 16384, .b2 16384]) := by decide +kernel

/-- Section 3.3, one window end: level 260,000 takes the factor from 16384 to 18,384. -/
theorem test_window_end :
    let a := { defaultAmbientZone with
      acc := 4800 * 260000, count := 4800, threshold := 200000, slope := 8192, factorMax := 32768, step := 2000 }
    let t := after (.windowEnd 6) (State.reset.setAmt (tset State.reset.amt 6 a))
    (tget t.amt 6).level = 260000 ∧ (tget t.amt 6).factor = 18384 ∧ (tget t.amt 6).count = 0 := by decide +kernel

/-- The same example: the targets 23,884 and, at level 600,000, the maximum 32,768. -/
theorem test_ambient_target :
    let a := { defaultAmbientZone with threshold := 200000, slope := 8192, factorMax := 32768 }
    ambientTarget a 260000 = 23884 ∧ ambientTarget a 600000 = 32768 := by decide

/-- R48: with KEEP a factor above the new maximum is lowered at once. -/
theorem test_ambient_set_keep :
    let s := State.reset.setAmt (tset State.reset.amt 6 { defaultAmbientZone with factorMax := 40000, factor := 30000, level := 5 })
    let t := after (.ambientSet hd 6 1 0 0 20000 1 0) s
    (tget t.amt 6).factor = 20000 ∧ (tget t.amt 6).level = 5 := by decide +kernel

/-- R42: the release hold over, the gate is OPEN again. -/
theorem test_release_hold_end :
    (tget (after (.releaseHoldEnd 2) (State.reset.setAmt
      (tset State.reset.amt 2 { defaultAmbientZone with gate := .release }))).amt 2).gate = .open := by decide +kernel

/-! ### Worked examples of Chapters 4 to 6 -/

/-- Section 4.7.1: a granted STANDBY zone with pre-roll 2,400 enters WAKING at the end of the frame period. -/
theorem test_standby_zone_wakes :
    let t := lineTests (withClaim 12 (.pendingJoin 0) (withLine 12 (line .standby) State.reset))
    lineOf t 12 = .waking ∧ (tget t.zlc 12).wakeCount = 2400 := by decide +kernel

/-- Section 4.7.1: at the last frame of the wake the zone enters LIVE, at the end of the frame period. -/
theorem test_wake_end :
    let t := after (.wakeEnd 12) (withLine 12 (line .waking) State.reset)
    lineOf t 12 = .waking ∧ lineOf (heldWakes t) 12 = .live := by decide +kernel

/-- R53, R64: a ZONE_FAULT in the frame period of a WAKE_END decides, and the zone is reported in FAULT alone. -/
theorem test_fault_after_wake_end :
    let s := withLine 12 (line .waking) State.reset
    let t := heldWakes (runs [.wakeEnd 12, .zoneFault hd 12 7] s)
    lineOf t 12 = .fault ∧ t.ch.events.map (fun e => (e.kind, e.cause)) = [(0x02, 5)] := by decide +kernel

/-- R22, R34, R2: a ZONE_MIX_SET given before FRAME_PERIOD finds the start work done: it replies with the duck coefficient after its step of 64 toward unity. -/
theorem test_start_work_comes_first :
    let s := State.reset.setZmx (tset State.reset.zmx 9 { defaultMixZone with duck := 8000, rampStep := 64 })
    let t := after (.zoneMixSet hd 9 20000 8192 64) s
    (replied t).map (fun r => r.2.getD 7 (.b1 9)) = some (.b2 8064) ∧ t.period.started = true := by decide +kernel

/-- R138, R87: after a TICK_END, an ANNOUNCE whose deadline is the old T finds no usable zone and is refused with STATE: it would wait behind the new T. -/
theorem test_announce_behind_the_notice :
    let a : AnnounceFields := ⟨3, 5, 0, zs [0], 1, 16384, 1, 0, 2, 0xFFFF, 9, 1, 7000⟩
    let s := (withLine 0 (line .fault) (atTime 7000 479 .unset State.reset)).setItp
      { State.reset.itp with roles := tset State.reset.itp.roles 2 .source }
    (replied (after (.announce hd a) s)).map (·.1) = some .done ∧
    replied (runs [.tickEnd, .announce hd a] s) = some (.state, []) := by decide +kernel

/-- Section 4.7.1: an idle LIVE zone enters HANG with its hang count of 300. -/
theorem test_idle_zone_hangs :
    let t := lineTests (withLine 12 (line .live) State.reset)
    lineOf t 12 = .hang ∧ (tget t.zlc 12).hangCount = 300 := by decide +kernel

/-- Section 4.7.1: at the last tick end of the hang the zone enters STANDBY with ZONE_STATE (STANDBY, from HANG, HANG_END). -/
theorem test_hang_end :
    let t := lineTests (after (.hangEnd 12) (ticked (withLine 12 (line .hang) State.reset)))
    lineOf t 12 = .standby ∧ t.ch.events = [⟨0x02, 1, 12, 1, 0, [.b1 4, .b1 3, .b1 0]⟩] := by decide +kernel

/-- R61: ZONE_SET brings a zone into service. -/
theorem test_zone_set_enables : lineOf (after (.zoneSet hd 12 1 2400 300) State.reset) 12 = .standby := by decide +kernel

/-- Section 4.7.2: the reply to ZONE_FAULT gives previous line state WAKING, fault code 7 and the request's handle. -/
theorem test_zone_fault :
    let s := withClaim 14 (.pendingJoin 3) (withLine 14 { line .waking with wakeCount := 1000 } State.reset)
    let t := after (.zoneFault hd 14 7) s
    replied t = some (.done, [.b1 14, .b1 2, .b1 7, .b1 3]) ∧ lineOf t 14 = .fault ∧ (tget t.zlc 14).wakeCount = 0 := by
  decide +kernel

/-- Section 4.7.2: a second ZONE_FAULT answers DONE with handle FFh and keeps the stored code; ZONE_CLEAR of a zone not in FAULT is refused. -/
theorem test_second_zone_fault :
    let s := withLine 14 { line .fault with faultCode := 7 } State.reset
    replied (after (.zoneFault hd 14 9) s) = some (.done, [.b1 14, .b1 5, .b1 7, .b1 0xFF]) ∧
    replied (after (.zoneClear hd 12) s) = some (.state, []) := by decide +kernel

/-- Section 4.7.2: ZONE_CLEAR returns the zone to STANDBY with ZONE_STATE (STANDBY, from FAULT, ZONE_CLEAR, code 7). -/
theorem test_zone_clear :
    let t := after (.zoneClear hd 14) (withLine 14 { line .fault with faultCode := 7 } State.reset)
    lineOf t 14 = .standby ∧ t.ch.events = [⟨0x02, 1, 14, 0, 0, [.b1 5, .b1 2, .b1 7]⟩] := by decide +kernel

/-- Section 5.9.1: request 1 (TIMED, PREEMPT) takes zones 10 and 11 from request 0 (INFO); zone 14 is in FAULT, so it is PARTIAL. The reply gives handle 1, GRANTED, flags PREEMPT and PARTIAL, and the granted set. -/
theorem test_preemption :
    let live := fun s => [10, 11, 12, 13].foldl (fun s z => withLine z (line .live) s) s
    let s := after (.announce hd (announcing 3 5 2 [10, 11, 12, 13] 1)) (withLine 14 (line .fault) (live station))
    let t := after (.announce hd (announcing 2 3 1 [10, 11, 14] 2)) s
    (replied t).map (fun r => (r.1, r.2.take 5)) =
      some (.done, [.b1 1, .b1 2, .b1 9, .zones (zs [10, 11, 14]), .zones (zs [10, 11])]) ∧
    claim t 10 = .joined 1 ∧ claim t 12 = .joined 0 ∧ (request t 0).granted = zs [12, 13] ∧
    (request t 1).state = .active := by decide +kernel

/-- Section 5.9.2: the victim of an EVAC request is the INFO request of the worse priority, although another was admitted later. -/
theorem test_victim :
    let r := fun (c : AnnClass) (p o e : Nat) => { freeRequest with state := .active, cls := c, priority := p, order := o, engine := some e }
    let s := [(2, r .timed 4 10 0), (5, r .info 2 12 1), (7, r .info 6 9 2), (8, r .info 6 14 3),
      (9, { r .live 0 15 4 with live := true }), (11, r .evac 0 8 5)].foldl (fun s p => setRequest p.1 p.2 s) State.reset
    let s := [(0, EngineState.playing), (1, .playing), (2, .stopping), (3, .playing), (4, .playing), (5, .playing)].foldl
      (fun s p => setEngine p.1 { idleEngine with state := p.2 } s) s
    victim s = some (8, 3) := by decide +kernel

/-- Section 6.8.1: the samples of a clip of 1000, −999, −1000, with the floored midpoint −1000. -/
theorem test_clip_samples :
    let m := { State.reset.cmc with memory := [(0, 1000), (1, BitVec.ofInt 16 (-999)), (2, BitVec.ofInt 16 (-1000))] }
    [0, 1, 2, 3, 4, 5].map (fragmentSample m (.clip 0 3)) = [256000, 0, -255744, -256000, -256000, -256000] := by decide +kernel

/-- Section 6.8.2: a stopping engine's first faded sample is 63 sixty-fourths of 2,048,000. -/
theorem test_fade_sample :
    let s := (State.reset.setCmc { State.reset.cmc with memory := [(0, 8000), (1, 8000)] }).setZar
      { resetZar with requests := tset resetZar.requests 14 { freeRequest with state := .ending, fragments := [.clip 0 2] } }
    let x := engineStep s ⟨.stopping, some 14, 0, some 0, 0, 0, 64, 0⟩
    x.output = 2016000 ∧ x.fade = 63 ∧ x.position = 1 := by decide +kernel

/-- Section 6.8.2: the reply to a HARD RELEASE gives state before ACTIVE and state after ENDING. -/
theorem test_hard_release :
    let r := { freeRequest with state := .active, engine := some 4, fragments := [.pause 9], cls := .timed }
    let s := setEngine 4 { idleEngine with state := .playing, handle := some 14, fragment := some 0 } (setRequest 14 r State.reset)
    let t := after (.release hd 14 1) s
    replied t = some (.done, [.b1 14, .b1 0, .b1 3, .b1 4, .b1 0]) ∧ (tget t.engines 4).fade = 64 := by decide +kernel

/-- Section 6.8.2: at fade count 0 the engine becomes IDLE and the request ends RELEASED. -/
theorem test_fade_end :
    let r := { freeRequest with state := .ending, ending := .ends .released, engine := some 4, cls := .timed }
    let s := setEngine 4 { idleEngine with state := .stopping, handle := some 14 } (setRequest 14 r State.reset)
    let t := after (.fadeEnd 4) s
    (tget t.engines 4).state = .idle ∧ (request t 14).state = .free ∧
    t.ch.events.map (fun e => (e.kind, e.cause)) = [(0x04, 1)] := by decide +kernel

/-- Section 6.8.3: at the end of a REPEAT list the late zone joins, the list starts again, and LOOP has loop count 1. -/
theorem test_loop :
    let r := { freeRequest with state := .active, engine := some 0, fragments := [.clip 0 48000, .pause 24000],
                                granted := zs [33], flags := { freeRequest.flags with repeats := true } }
    let s := setEngine 0 ⟨.playing, some 20, 0, some 1, 24000, 0, 0, 0⟩
      (setRequest 20 r (withClaim 33 (.pendingJoin 20) (withLine 33 (line .live) State.reset)))
    let t := after (.fragmentBoundary 0) s
    claim t 33 = .joined 20 ∧ (tget t.engines 0).fragment = some 0 ∧
    t.ch.events = [⟨0x07, 0, 20, 0, 0, [.b2 1, .zones (zs [33]), .zones (zs [33]), .b2 0]⟩] := by decide +kernel

/-- Section 6.8.4: the engine leaves PREROLL when its wait set is LIVE; all zones join and the talk count is 6,000. -/
theorem test_preroll_exit :
    let r := { freeRequest with state := .granted, live := true, lane := 7, talkLimit := 60, engine := some 1,
                                fragments := [.clip 0 12000], granted := zs [40, 41] }
    let s := setEngine 1 { idleEngine with state := .preroll, handle := some 9, waitSet := zs [40, 41] }
      (setRequest 9 r (withClaim 40 (.pendingJoin 9) (withClaim 41 (.pendingJoin 9)
        (withLine 40 (line .live) (withLine 41 (line .live) State.reset)))))
    let t := after (.prerollExit 1) s
    (tget t.engines 1).state = .playing ∧ claim t 41 = .joined 9 ∧ (request t 9).talkCount = some 6000 := by decide +kernel

/-- Section 6.8.4: at the end of the chime the engine is released and the desk is the current source. -/
theorem test_chime_end :
    let r := { freeRequest with state := .active, live := true, lane := 7, talkLimit := 60, engine := some 1,
                                fragments := [.clip 0 12000], talkCount := some 5500 }
    let s := setEngine 1 ⟨.playing, some 9, 0, some 0, 24000, 0, 0, 0⟩ (setRequest 9 r State.reset)
    let t := after (.fragmentBoundary 1) s
    (tget t.engines 1).state = .idle ∧ (request t 9).current = .lane ∧ (request t 9).talkCount = some 5500 := by decide +kernel

/-- R88: the talk count over, a live request on its lane ends TALK_TIMEOUT with the new T. -/
theorem test_talk_timeout :
    let r := { freeRequest with state := .active, live := true, current := .lane, talkCount := some 0 }
    let t := after (.talkTimeout 9) (ticked (setRequest 9 r State.reset))
    (request t 9).state = .free ∧ t.ch.events.map (fun e => (e.kind, e.cause, e.time)) = [(0x04, 5, 1)] := by decide +kernel

/-- R4, R89: the link lost, a live request ends SOURCE_LOST behind LINK_STATE. -/
theorem test_link_lost :
    let r := { freeRequest with state := .active, live := true, current := .lane }
    let t := after .linkLost ((setRequest 9 r State.reset).setItp { State.reset.itp with link := .sync, badRun := 48 })
    t.itp.link = .lost ∧ t.ch.events.map (fun e => (e.kind, e.cause)) = [(0x01, 2), (0x04, 6)] := by decide +kernel

/-- R89: two live requests of class INFO are lost together, and a WAITING request that could take the zone of the second for its own grant has no part in their ends: each ends SOURCE_LOST. -/
theorem test_link_lost_ends_every_live_request :
    let live := fun z => { freeRequest with state := .active, cls := .info, live := true, current := .lane,
                                            requested := zs [z], granted := zs [z] }
    let taker := { freeRequest with state := .waiting, cls := .timed, requested := zs [1, 2], minCoverage := 2,
                                    fragments := [.pause 9], flags := { freeRequest.flags with preempt := true } }
    let s := withClaim 1 (.joined 7) (withClaim 2 (.joined 9) (withLine 1 (line .standby) (withLine 2 (line .standby)
      (setRequest 7 (live 1) (setRequest 9 (live 2) (setRequest 3 taker
        (State.reset.setZar { resetZar with queue := [3] })))))))
    let t := after .linkLost (s.setItp { s.itp with link := .sync, badRun := 48 })
    t.ch.events.map (fun e => (e.kind, e.cause, e.subject)) = [(0x01, 2, 0), (0x04, 6, 7), (0x04, 6, 9)] ∧
      (request t 3).state = .granted ∧ (request t 3).granted = zs [1, 2] := by decide +kernel

/-- R5, R6: the link recovered. -/
theorem test_link_recovered :
    (after .linkRecovered (State.reset.setItp { State.reset.itp with link := .lost, goodRun := 16 })).itp.link = .sync := by
  decide +kernel

/-! ### Worked examples of Chapters 7 to 11 -/

/-- Section 7.2, a busy bank: CLIP_WRITE at 3,200,000 is answered BUSY with first bank 3 and count 2, second bank FFh. -/
theorem test_busy_bank :
    let s := State.reset.setCmc { State.reset.cmc with useCounts := tset State.reset.cmc.useCounts 3 2 }
    replied (after (.clipWrite hd 3200000 (List.replicate 20 0)) s) =
      some (.busy, [.b4 3200000, .b1 3, .b2 2, .b1 0xFF, .b2 0]) := by decide +kernel

/-- R119, R120: the last block holds four addresses; what was written there is read back, with 0 past the end. -/
theorem test_last_block :
    let t := after (.clipWrite hd 67108860 (List.replicate 20 7)) State.reset
    replied t = some (.done, [.b4 67108860, .b2 4, .b1 63, .b1 0xFF]) ∧
    replied (after (.clipRead hd 67108860) t) =
      some (.done, .b4 67108860 :: List.replicate 4 (.b2 7) ++ List.replicate 16 (.b2 0)) := by decide +kernel

/-- Section 7.2: PHRASE_SET for phrase 420 is answered DONE with bank 5 and the old clip start 3,200,000. -/
theorem test_phrase_set :
    let s := State.reset.setCmc { State.reset.cmc with phrases := tset State.reset.cmc.phrases 420 (some ⟨3200000, 19200⟩) }
    replied (after (.phraseSet hd 420 1 5300000 19200) s) =
      some (.done, [.b2 420, .b1 1, .b4 5300000, .b4 19200, .b1 5, .b1 1, .b4 3200000, .b4 19200]) := by decide +kernel

/-- R123: QUERY PHRASE of the entry of Section 7.2. -/
theorem test_query_phrase :
    let s := State.reset.setCmc { State.reset.cmc with phrases := tset State.reset.cmc.phrases 420 (some ⟨3200000, 19200⟩),
                                                       useCounts := tset State.reset.cmc.useCounts 3 2 }
    replied (after (.queryPhrase hd ⟨420, 0, 0⟩) s) =
      some (.done, [.b1 6, .b2 420, .b1 0, .b2 1, .b2 420, .b4 3200000, .b4 19200, .b1 3, .b2 2]) := by decide +kernel

/-- Section 7.6.1: with deadline 1,000,500 wording 1 is chosen; with deadline 1,000,200 wording 2 with OVERRUN. -/
theorem test_choice_of_wording :
    let s := atTime 1000000 0 .locked State.reset
    let w := fun n => (⟨[.pause n], false⟩ : WordingExpansion)
    chooseWording s (some 1000500) [w 336000, w 216000, w 120000] = some (w 216000, false) ∧
    chooseWording s (some 1000200) [w 336000, w 216000, w 120000] = some (w 120000, true) ∧
    latestStartOf (some 1000500) false 216000 none = some 1000050 := by decide +kernel

/-- Section 7.6.2: the times 14:05 and 14:12 and the delay of seven minutes. -/
theorem test_spoken_numbers :
    timePhrases 30990000 = [14, 101, 5] ∧ timePhrases 31035000 = [14, 12] ∧ delayPhrase 45000 = 7 := by decide

/-- Section 7.6.2: the four cells of template 5; the fourth is answered LOADED with worst-case count 10 and call-field flag 1. -/
theorem test_template_load :
    let w0 : List ItemCell := [say 310, ⟨2, 0⟩, say 311, ⟨5, 0⟩, say 312, ⟨6, 0⟩, say 313]
    let w0' : List ItemCell := [⟨7, 0⟩, say 314, ⟨1, 9600⟩, say 315, ⟨3, 0⟩, say 316, ⟨4, 0⟩]
    let w1 : List ItemCell := [say 310, ⟨2, 0⟩, say 311, ⟨5, 0⟩, say 317, ⟨1, 4850⟩, say 316]
    let w1' : List ItemCell := [⟨4, 0⟩, noItem, noItem, noItem, noItem, noItem, noItem]
    let s := runs [.templateSet hd 5 2 0 14 0 w0, .templateSet hd 5 2 0 14 7 w0'] State.reset
    let t := runs [.templateSet hd 5 2 1 8 0 w1, .templateSet hd 5 2 1 8 7 w1'] s
    replied s = some (.done, [.b1 5, .b1 0, .b1 1, .b1 0, .b2 21, .b1 0xFF, .b1 0]) ∧
    replied t = some (.done, [.b1 5, .b1 1, .b1 0xFF, .b1 0xFF, .b2 10, .b1 0xFF, .b1 1]) := by decide +kernel

/-- R126: a cell that does not fit the load under way is refused with STATE. -/
theorem test_template_cell_out_of_place :
    replied (after (.templateSet hd 5 2 1 8 0 (List.replicate 7 (say 310))) State.reset) = some (.state, []) := by decide +kernel

/-- Section 8.7.1: T_ref 1,000,002 captured at T 1,000,000, phase 300 is a slew of 660. -/
theorem test_time_slew :
    let s := (atTime 1000000 311 .locked State.reset).setCh { State.reset.ch with capture := some (1000000, 300) }
    let t := after (.time hd 1000002 0) s
    t.stc.slew = 660 ∧ t.stc.time = 1000000 ∧ t.stc.phase = 311 ∧ t.ch.events = [] := by decide +kernel

/-- Section 8.7.1: T_ref 1,000,100 is a step, reason WINDOW, to T 1,000,100, phase 11, with remainder 0. -/
theorem test_time_step :
    let s := (atTime 1000000 311 .locked State.reset).setCh { State.reset.ch with capture := some (1000000, 300) }
    stepReason 1000100 false s = some 2 ∧ timeOffset 1000100 s = 47700 ∧
    stepClock 47700 { s.stc with slew := 5 } = { s.stc with time := 1000100, phase := 11 } := by decide +kernel

/-- R138, R58, R88: a tick end lowers the hang count of a zone in HANG and the talk count of a live request by 1. -/
theorem test_tick_end :
    let r := { freeRequest with state := .active, live := true, current := .lane, talkCount := some 6000 }
    let t := after .tickEnd (atTime 7999 479 .unset (setRequest 9 r (withLine 12 { line .hang with hangCount := 300 } State.reset)))
    (tget t.zlc 12).hangCount = 299 ∧ (request t 9).talkCount = some 5999 := by decide +kernel

/-- Section 8.7.3: the holdover count has reached 60,000; the entry to HOLDOVER raises CLOCK_STATE (HOLDOVER, from LOCKED). -/
theorem test_holdover_entry :
    let s := ticked (State.reset.setStc { State.reset.stc with phase := 479, status := .locked, holdoverCount := 60000 })
    let t := after .holdoverEntry s
    t.stc.status = .holdover ∧ t.stc.holdoverCount = 60000 ∧
    t.ch.events = [⟨0x09, 2, 0, 1, 0, [.b1 1, .b4 60000, .b4 0]⟩] := by decide +kernel

/-- Section 8.7.3: CLOCK_SET with a limit of 300 s when the count stands at 45,000 makes the status HOLDOVER. -/
theorem test_clock_set :
    let s := State.reset.setStc { State.reset.stc with status := .locked, holdoverCount := 45000 }
    let t := after (.clockSet hd 24000 300) s
    t.stc.status = .holdover ∧ t.stc.holdoverCount = 45000 := by decide +kernel

/-- R136: a frame period adds 1 to the phase. -/
theorem test_frame_period :
    let t := after (.framePeriod .whole) State.reset
    t.stc.phase = 1 ∧ t.stc.time = 0 ∧ t.etp.slot = 1 := by decide +kernel

/-- R14: with both queues empty an idle cell is chosen. -/
theorem test_idle_cell : (after .egressCellPeriod State.reset).etp.sending = some (List.replicate 12 0) := by decide +kernel

/-- The trigger of Table 9.2 with these fields. -/
def trig (role : Byte) (offset : Int) (template target cls priority flags : Byte) (late : Half) (deadline : Option Int) :
    TriggerCell :=
  ⟨role, BitVec.ofInt 32 offset, template, target, cls, priority, flags, if deadline.isSome then 1 else 0,
    BitVec.ofInt 32 (deadline.getD 0), late⟩

/-- Section 11.1: plan 2 loaded, and slot 40 loaded at T = 31,100,000. -/
def departure : State :=
  runs [.platformSet hd 4 (zs [8, 9]) (zs [20]),
    .planSet hd 2 2 3000 0 0 [trig 0 (-12000) 3 1 3 5 0 2000 none, trig 0 (-3000) 3 0 2 2 2 500 (some 0)],
    .callLoad hd ⟨40, 1410, 0, 420, 0, [0, 0, 0, 0], 31200000, 0, 4, 2⟩]
    (atTime 31100000 0 .locked (withLine 20 { line .live with keepAwake := true, routeLive := true } station))

/-- Section 11.1: the due list gains (31,188,000, 40, 0) and (31,197,000, 40, 1). -/
theorem test_call_load :
    departure.csc.due = [⟨31188000, .trigger 40 0⟩, ⟨31197000, .trigger 40 1⟩] ∧
    (tget departure.csc.calls 40).state = .scheduled := by decide +kernel

/-- Section 11.1: the walk of the tick end to 31,188,000 fires trigger 0 for zone 20 as handle 0 on E0, with latest start 31,190,000; the call enters OPEN, and ANNOUNCE_STARTED stands ahead of CALL_STATE. -/
theorem test_trigger_fires :
    let t := settle (walk (atTime 31188000 0 .locked (departure.setPeriod newPeriod)))
    (request t 0).state = .active ∧ (request t 0).latestStart = some 31190000 ∧ claim t 20 = .joined 0 ∧
    (tget t.csc.calls 40).state = .open ∧ t.csc.due = [⟨31197000, .trigger 40 1⟩] ∧
    t.ch.events.map (fun e => (e.kind, e.cause, e.time)) = [(0x03, 3, 31188000), (0x0C, 2, 31188000)] := by decide +kernel

/-- R155: no trigger fires in the frame period of the load. -/
theorem test_load_fires_nothing :
    (walk (atTime 31188000 0 .locked departure)).csc = departure.csc ∧ departure.period.loaded = [40] := by decide +kernel

/-- R162: a delay of 36,000 re-places the entries of a SCHEDULED call, and its reply reports the new expected time. -/
theorem test_call_amend :
    let t := after (.callAmend hd 40 1 36000 0) (departure.setCh State.reset.ch)
    t.csc.due = [⟨31224000, .trigger 40 0⟩, ⟨31233000, .trigger 40 1⟩] ∧
    replied t = some (.done, [.b1 40, .b1 1, .b4 36000, .b1 4, .b4 31236000, .b2 0, .b2 0, .b1 0, .b1 0, .b4 0]) := by
  decide +kernel

/-- R166: CALL_CANCEL of a SCHEDULED call supersedes its triggers and leaves it CANCELLED. -/
theorem test_call_cancel :
    let t := after (.callCancel hd 40) (departure.setCh State.reset.ch)
    replied t = some (.done, [.b1 40, .b1 1, .b2 2, .b2 0, .b1 0]) ∧ t.csc.due = [] ∧
    (tget t.csc.calls 40).state = .cancelled := by decide +kernel

/-- R168: a CANCELLED call is cleared, with the trigger states it had. -/
theorem test_call_clear :
    let t := runs [.callCancel hd 40, .callClear hd 40] (departure.setCh State.reset.ch)
    replied t = some (.done, [.b1 40, .b1 4, .b2 1410, .b1 4, .b1 4]) ∧ tget t.csc.calls 40 = freeCall := by decide +kernel

/-- Section 9.10, periodic entry across a step: the next due after 31,290,000 is 31,320,000. -/
theorem test_next_due : nextDueTime 31290000 31050000 90000 = 31320000 := by decide

/-- R169: PERIODIC_SET places an entry in the due list. -/
theorem test_periodic_set :
    let t := after (.periodicSet hd ⟨3, 1, 3, 0, 5, zs [20], 900, 31050000⟩) station
    t.csc.due = [⟨31050000, .periodic 3⟩] ∧ replied t = some (.done, [.b1 3, .b1 1, .b4 31050000, .b1 0xFF, .b2 0]) := by
  decide +kernel

/-- R149: PLATFORM_SET replies with the sets written and held before. -/
theorem test_platform_set :
    replied (after (.platformSet hd 4 (zs [8, 9]) (zs [20])) State.reset) =
      some (.done, [.b1 4, .zones (zs [8, 9]), .zones (zs [20]), .zones 0, .zones 0]) := by decide +kernel

/-- R151: a plan of three triggers takes two cells; the second completes it. -/
theorem test_plan_load :
    let t := runs [.planSet hd 2 3 0 0 0 [trig 0 0 3 1 3 5 0 0 none, trig 0 1 3 1 3 5 0 0 none],
      .planSet hd 2 3 0 0 2 [trig 1 0 3 1 3 5 0 0 none, noTrigger]] State.reset
    t.ch.replies.map (fun r => r.result.getD 1 (.b1 9)) = [.b1 0, .b1 1] ∧
    (tget t.csc.plans 2).map (fun p => p.triggers.length) = some 3 := by decide +kernel

/-- Section 10.8: a request of ten fragments answers in four parts, and part 4 does not exist. -/
theorem test_query_request :
    let s := setRequest 4 { freeRequest with state := .active, fragments := List.replicate 10 (.pause 5) } State.reset
    (replied (after (.queryRequest hd ⟨4, 3, 0⟩) s)).map (fun r => (r.1, r.2.take 4)) = some (.done, [.b1 2, .b2 4, .b1 3, .b2 4]) ∧
    replied (after (.queryRequest hd ⟨4, 4, 0⟩) s) = some (.noent, []) := by decide +kernel

/-- R180: QUERY STATUS clears EVENT_LOST after the reply is formed. -/
theorem test_query_status :
    let t := after (.queryStatus hd ⟨0, 0, 0⟩) (State.reset.setCh { State.reset.ch with eventLost := true })
    (replied t).map (fun r => r.2.getD 7 (.b1 9)) = some (.b1 1) ∧ t.ch.eventLost = false := by decide +kernel

/-- R181, R70: QUERY ZONE reports the line state in the fifth field, and a mark of FFh for an empty claim entry. -/
theorem test_query_zone :
    (replied (after (.queryZone hd ⟨12, 0, 0⟩) (withLine 12 (line .hang) State.reset))).map
      (fun r => (r.2.getD 4 (.b1 9), r.2.getD 12 (.b1 9))) = some (.b1 4, .b1 0xFF) := by decide +kernel

/-- R114: QUERY ENGINE of an IDLE engine. -/
theorem test_query_engine :
    (replied (after (.queryEngine hd ⟨5, 0, 0⟩) State.reset)).map (fun r => (r.1, r.2.getD 5 (.b1 9))) = some (.done, .b1 0) := by
  decide +kernel

/-- R173: QUERY CALL of a FREE slot answers NOENT. -/
theorem test_query_call : replied (after (.queryCall hd ⟨40, 0, 0⟩) State.reset) = some (.noent, []) := by decide +kernel

/-- R180: QUERY COUNTERS with CLEAR reports the counters and sets them to 0. -/
theorem test_query_counters :
    let t := after (.queryCounters hd ⟨0, 0, 1⟩) (State.reset.setItp { State.reset.itp with crcErrors := 9 })
    (replied t).map (fun r => r.2.getD 4 (.b1 9)) = some (.b2 9) ∧ t.itp.crcErrors = 0 := by decide +kernel

/-- R183: IDENTIFY opens with part code 48, revision 1 and the unit address. -/
theorem test_identify : (replied (after (.identify hd) State.reset)).map (fun r => r.2.take 3) = some [.b2 48, .b1 1, .b1 0] := by
  decide +kernel

/-- R184: UNIT_RESET puts a LIVE zone into STANDBY and leaves one event and one reply. -/
theorem test_unit_reset :
    let t := after (.unitReset hd) (withLine 12 (line .live) State.reset)
    lineOf t 12 = .standby ∧ t.ch.events.length = 1 ∧ t.ch.replies.length = 1 := by decide +kernel

/-- R175: the pin reset reads the straps. -/
theorem test_resets :
    (after (.pinReset 9) State.reset).ch.unitAddr = 9 ∧ (after (.powerOn 3) State.reset).ch.unitAddr = 3 := by decide +kernel

/-- R175, R176, R15: a foreign cell and a cell that is no command change nothing; an unknown code is answered NOENT. -/
theorem test_cells_not_carried_out :
    exec (.foreignCell ⟨4, 0⟩ 0x11) State.reset = .next State.reset ∧ exec (.nonCommandCell 0 hd) State.reset = .next State.reset ∧
    replied (after (.unknownCommand hd 0x99) State.reset) = some (.noent, []) := ⟨rfl, rfl, by decide +kernel⟩

/-- Tables 1.8 and 1.10: the words of a ZONE_MIX_SET cell for unit 2 with tag 7. -/
theorem test_cell_decodes :
    decodeCell ([0x21072200, 0x094E2020, 0x00004000] ++ List.replicate 9 0) =
      .command (.zoneMixSet ⟨2, 7⟩ 9 20000 8192 64) := by decide +kernel

/-! ### Witnesses: for each obligation with hypotheses, a state and operands that meet those of every clause -/

/-- A command for unit 0 is addressed in a frame period that has begun, wherever the cell handler stands as after reset. -/
theorem addressed {s : State} (h : s.ch = State.reset.ch) (b : s.period.started = true) : Addressed hd s :=
  ⟨b, by rw [h]; rfl, by decide, by rw [h]; decide⟩

/-- The machine after reset, in a frame period that has begun. -/
def rest : State := begun State.reset

theorem restAddressed : Addressed hd rest := addressed rfl rfl

theorem test_witness_StepTakesTheFrontCommand :
    (State.reset.setPending [.tickEnd, .linkLost]).pending = [.tickEnd, .linkLost] ∧ State.reset.pending = [] := ⟨rfl, rfl⟩

/-- The words of an IDENTIFY cell for unit 0 with tag 5. -/
def identifyCell : List Word := 0x0105A200 :: List.replicate 11 0

/-- The words of a QUERY cell of kind 7 for unit 0 with tag 5. -/
def kindSevenCell : List Word := 0x0105A107 :: 0x07000000 :: List.replicate 10 0

theorem test_witness_CellsAreCarriedOutOrIgnored :
    Addressed hd rest ∧
    (Instr.command? (.laneSet ⟨14, 5⟩ 0 0 0) = some (⟨14, 5⟩, 0x11) ∧ (14 : BitVec 4) ≠ 15 ∧ (14 : BitVec 4) ≠ rest.ch.unitAddr ∧
      commandCodes.contains 0x98 = false ∧ (⟨15, 5⟩ : Header).addr = 15 ∧ rest.period.started = true) ∧
    (rest.setCh { rest.ch with complete := some identifyCell }).ch.complete = some identifyCell ∧
    decodeCell identifyCell = .command (.identify hd) ∧ (∃ t, exec (.identify hd) rest = .next t) ∧
    (6 < (7 : Byte).toNat ∧ (rest.setCh { rest.ch with complete := some kindSevenCell }).ch.complete =
      some (packWord (hd.addr ++ (1 : BitVec 4)) hd.tag 0xA1 7 :: packWord 7 0 0 0 :: List.replicate 10 0)) :=
  ⟨restAddressed, by decide, rfl, by decide +kernel, ⟨_, rfl⟩, by decide, by decide +kernel⟩

theorem test_witness_AddressedCommandsGetOneReplyAndBroadcastsNone :
    Instr.command? (.unitReset hd) = some (hd, 0xA3) ∧ hd.addr = rest.ch.unitAddr ∧ hd.addr ≠ 15 ∧
    rest.period.started = true ∧ rest.ch.replies.length < 4 := by decide

theorem test_witness_RefusedCommandsChangeNothing :
    Addressed hd rest ∧ Instr.command? (.zoneClear hd 48) = some (hd, 0x43) ∧
    exec (.zoneClear hd 48) rest = .next (after (.zoneClear hd 48) rest) ∧
    (after (.zoneClear hd 48) rest).ch.replies = rest.ch.replies ++ [⟨5, 0x43, .badarg, []⟩] :=
  ⟨restAddressed, rfl, rfl, by decide +kernel⟩

/-- Request 1 of class INFO, ACTIVE on E2, JOINED in zone 3 with zone 4 to join; request 2 of class TIMED WAITING, both with fragments in bank 1; a tick end at the front of the queue. -/
def busy : State :=
  ((((State.reset.setZar { resetZar with
      requests := (tset (tset resetZar.requests 1 { freeRequest with
          state := .active, cls := .info, fragments := [.clip 1048576 10, .pause 3], requested := zs [3, 4],
          granted := zs [3, 4], engine := some 2, order := 0 })
        2 { freeRequest with
          state := .waiting, cls := .timed, fragments := [.clip 1048600 5], requested := zs [3], minCoverage := 1,
          latestStart := some 9, order := 1 })
      queue := [2]
      claims := tset (tset resetZar.claims 3 (.joined 1)) 4 (.pendingJoin 1)
      nextOrder := 2 }).setEngines (tset State.reset.engines 2 ⟨.playing, some 1, 0, some 1, 2, 0, 0, 0⟩)).setCmc
    { State.reset.cmc with memory := [(7, 1), (9, 2)], useCounts := tset State.reset.cmc.useCounts 1 2 }).setZlc
    (tset (tset State.reset.zlc 3 (line .live)) 4 (line .waking))).setStc
    { State.reset.stc with phase := 479, slew := -3 } |>.setPending [.tickEnd]

theorem test_busy_step : ∃ t, step busy = .next t := ⟨_, rfl⟩

theorem test_witness_EveryStepKeepsTheStoresAndTheClockBounded :
    CellQueuesBounded busy ∧ LinkCountersBounded busy ∧ ClipMemoryCanonical busy ∧ ClockInRange busy.stc :=
  ⟨by unfold CellQueuesBounded; decide, by constructor <;> decide, by unfold ClipMemoryCanonical; decide,
    by constructor <;> decide⟩

theorem lineConsistent (z : Nat) (h : z < 48) : LineConsistent (tget busy.zlc z) := by
  constructor <;> revert z <;> decide +kernel

theorem test_witness_EveryStepKeepsLinesMixerAndTrackerLegal :
    LinesConsistent busy ∧ MixerLegal busy ∧ TrackerLegal busy ∧ AmbientLanesUnique busy := by
  refine ⟨lineConsistent, ⟨fun z h => ?_, by decide +kernel⟩, fun z h => ?_, fun i j z hi hj h => ?_⟩
  · have : tget busy.zmx z = defaultMixZone := by revert z; decide +kernel
    rw [this]
    constructor <;> decide +kernel
  · constructor <;> revert z <;> decide +kernel
  · have : ∀ i, i < 40 → tget busy.itp.roles i = .unused := by decide +kernel
    rw [this i hi] at h
    cases h

theorem busyQueue : WaitingQueueLaw busy :=
  ⟨by decide, by decide, by decide +kernel, by decide, by decide, by decide +kernel, by decide +kernel⟩

theorem test_witness_EveryStepKeepsTheWaitingQueueLaw : WaitingQueueLaw busy := busyQueue

theorem test_witness_EveryStepKeepsTheUseCounts : UseCountsAgree busy :=
  ⟨by decide +kernel, by decide +kernel⟩

theorem claimOfBusy : ∀ z, z < 48 → claimHandle (claim busy z) = if z = 3 ∨ z = 4 then some 1 else none := by decide +kernel

theorem busyClaims : ClaimsAgree busy := by
  refine ⟨by decide +kernel, fun z hz h hh => ?_, by decide +kernel, fun z hz h hh => ?_, by decide +kernel⟩
  · rw [claimOfBusy z hz] at hh
    split at hh <;> simp at hh
    omega
  · rw [claimOfBusy z hz] at hh
    split at hh
    · rename_i h34
      rcases h34 with rfl | rfl <;> decide +kernel
    · cases hh

theorem engineOfBusy : ∀ e, e < 6 → (tget busy.engines e).handle = if e = 2 then some 1 else none := by decide +kernel

theorem requestOfBusy : ∀ h, h < 96 → (request busy h).engine = if h = 1 then some 2 else none := by decide +kernel

theorem busyEngines : EnginesAgree busy := by
  have one : ∀ h, h < 96 → ∀ e, (request busy h).engine = some e → h = 1 ∧ e = 2 := fun h hh e he => by
    rw [requestOfBusy h hh] at he
    split at he <;> simp_all
  refine ⟨fun e he h hh => ?_, fun h hh e he => ?_, by decide +kernel, fun h hh e he => ?_, fun h hh e he => ?_,
    by decide +kernel, by decide +kernel, by decide +kernel⟩
  · rw [engineOfBusy e he] at hh
    split at hh <;> simp at hh
    subst_vars
    decide +kernel
  all_goals
    obtain ⟨rfl, rfl⟩ := one h hh e he
    decide +kernel

theorem test_witness_EveryStepKeepsTheClaimTable :
    WaitingQueueLaw busy ∧ EnginesAgree busy ∧ ClaimsAgree busy ∧ ∃ t, step busy = .next t :=
  ⟨busyQueue, busyEngines, busyClaims, test_busy_step⟩

theorem test_witness_EveryStepKeepsTheEngineLaw : WaitingQueueLaw busy ∧ ClaimsAgree busy ∧ EnginesAgree busy :=
  ⟨busyQueue, busyClaims, busyEngines⟩

/-- A FIRED trigger of slot 255 with request 95 WAITING, a PENDING one in the due list, and a periodic entry whose request stands. -/
def timed : State :=
  (setRequest 94 { freeRequest with state := .waiting, cls := .info, origin := .periodic 15, order := 1 }
    (setRequest 95 { freeRequest with state := .waiting, cls := .timed, origin := .call 255 1 }
      (State.reset.setZar { resetZar with queue := [95, 94] }))).setCsc
    { State.reset.csc with
      plans := tset State.reset.csc.plans 31 (some ⟨0, 0, [⟨.normal, 0, 0, .both, .info, 0, false, false, none, 9⟩,
        ⟨.cancellation, 0, 0, .concourse, .timed, 0, false, false, none, 9⟩]⟩)
      calls := tset State.reset.csc.calls 255 { freeCall with
        state := .open, plan := 31, triggers := [⟨.normal, 40, .pending, none⟩, ⟨.cancellation, 0xFFFFFFFF, .fired, some 95⟩] }
      due := [⟨40, .trigger 255 0⟩, ⟨40, .periodic 15⟩]
      periodics := tset State.reset.csc.periodics 15 { absentPeriodic with
        present := true, interval := 1, nextDue := 40, previous := some 94 } }

theorem callOfTimed : ∀ k, k < 256 → k ≠ 255 → tget timed.csc.calls k = freeCall := by decide +kernel

theorem periodicOfTimed : ∀ i, i < 16 → i ≠ 15 → tget timed.csc.periodics i = absentPeriodic := by decide +kernel

theorem requestOfTimed : ∀ h, h < 96 → (request timed h).state ≠ .free → h = 94 ∨ h = 95 := by decide +kernel

theorem triggerOfTimed (slot : Nat) (hs : slot < 256) (i : Nat) (x : CallTrigger) (h : triggerAt timed slot i = some x) :
    slot = 255 ∧ ((i = 0 ∧ x = ⟨.normal, 40, .pending, none⟩) ∨ (i = 1 ∧ x = ⟨.cancellation, 0xFFFFFFFF, .fired, some 95⟩)) := by
  rcases Nat.lt_or_ge slot 255 with hlt | hge
  · rw [triggerAt, callOfTimed slot hs (by omega)] at h
    simp [freeCall] at h
  · obtain rfl : slot = 255 := by omega
    have ht : (tget timed.csc.calls 255).triggers = [⟨.normal, 40, .pending, none⟩, ⟨.cancellation, 0xFFFFFFFF, .fired, some 95⟩] := by
      decide +kernel
    rw [triggerAt, ht] at h
    match i, h with
    | 0, h => exact ⟨rfl, .inl ⟨rfl, by simpa using h.symm⟩⟩
    | 1, h => exact ⟨rfl, .inr ⟨rfl, by simpa using h.symm⟩⟩
    | n + 2, h => simp at h

theorem timedTriggers : TriggersAgree timed := by
  refine ⟨fun slot hs i x hx hf => ?_, fun slot hs i x hx hf => ?_, fun h hh hf slot i ho => ?_, fun i hi h hp => ?_,
    fun h hh hf i ho => ?_, fun slot hs hc i x hx => ?_⟩
  · obtain ⟨rfl, ⟨rfl, rfl⟩ | ⟨rfl, rfl⟩⟩ := triggerOfTimed slot hs i x hx
    · cases hf
    · exact ⟨95, by decide, rfl, by decide +kernel⟩
  · obtain ⟨rfl, ⟨rfl, rfl⟩ | ⟨rfl, rfl⟩⟩ := triggerOfTimed slot hs i x hx
    · rfl
    · exact absurd rfl hf
  · obtain rfl | rfl := requestOfTimed h hh hf
    · rw [show (request timed 94).origin = .periodic 15 by decide +kernel] at ho
      cases ho
    · rw [show (request timed 95).origin = .call 255 1 by decide +kernel] at ho
      cases ho
      exact ⟨by decide, ⟨.cancellation, 0xFFFFFFFF, .fired, some 95⟩, by decide +kernel, rfl, rfl⟩
  · rcases Nat.lt_or_ge i 15 with hlt | hge
    · rw [periodicOfTimed i hi (by omega)] at hp
      cases hp
    · obtain rfl : i = 15 := by omega
      rw [show (tget timed.csc.periodics 15).previous = some 94 by decide +kernel] at hp
      cases hp
      decide +kernel
  · obtain rfl | rfl := requestOfTimed h hh hf
    · rw [show (request timed 94).origin = .periodic 15 by decide +kernel] at ho
      cases ho
      decide +kernel
    · rw [show (request timed 95).origin = .call 255 1 by decide +kernel] at ho
      cases ho
  · obtain ⟨rfl, -⟩ := triggerOfTimed slot hs i x hx
    rw [show (tget timed.csc.calls 255).state = .open by decide +kernel] at hc
    simp at hc

theorem timedDue : DueListLaw timed := by
  refine ⟨fun e => ⟨fun h => ?_, fun h => ?_⟩, by decide +kernel, fun slot hs hr => ?_⟩
  · rw [show timed.csc.due = [⟨40, .trigger 255 0⟩, ⟨40, .periodic 15⟩] from rfl] at h
    simp only [List.mem_cons, List.not_mem_nil, or_false] at h
    rcases h with rfl | rfl
    · exact ⟨by decide, by decide +kernel, ⟨.normal, 40, .pending, none⟩, by decide +kernel, rfl, rfl, rfl⟩
    · exact ⟨by decide, by decide +kernel, by decide +kernel⟩
  · rw [show timed.csc.due = [⟨40, .trigger 255 0⟩, ⟨40, .periodic 15⟩] from rfl]
    obtain ⟨time, item⟩ := e
    cases item with
    | trigger slot i =>
      obtain ⟨hs, -, x, hx, -, hp, ht⟩ := h
      obtain ⟨rfl, ⟨rfl, rfl⟩ | ⟨rfl, rfl⟩⟩ := triggerOfTimed slot hs i x hx
      · simp [show time = 40 from ht]
      · cases hp
    | periodic i =>
      obtain ⟨hi, hp, ht⟩ := h
      rcases Nat.lt_or_ge i 15 with hlt | hge
      · rw [periodicOfTimed i hi (by omega)] at hp
        cases hp
      · obtain rfl : i = 15 := by omega
        rw [show (tget timed.csc.periodics 15).nextDue = 40 by decide +kernel] at ht
        simp [show time = 40 from ht]
  · rcases Nat.lt_or_ge slot 255 with hlt | hge
    · rw [callOfTimed slot hs (by omega)] at hr
      cases hr
    · obtain rfl : slot = 255 := by omega
      exact ⟨⟨0, 0, [⟨.normal, 0, 0, .both, .info, 0, false, false, none, 9⟩,
        ⟨.cancellation, 0, 0, .concourse, .timed, 0, false, false, none, 9⟩]⟩, by decide +kernel, by decide +kernel⟩

theorem timedQueue : WaitingQueueLaw timed :=
  ⟨by decide, by decide, by decide +kernel, by decide, by decide +kernel, by decide +kernel, by decide +kernel⟩

theorem timedClaims : ClaimsAgree timed := by
  have none : ∀ z, z < 48 → claimHandle (claim timed z) = Option.none := by decide +kernel
  refine ⟨by decide +kernel, fun z hz h hh => ?_, by decide +kernel, fun z hz h hh => ?_, by decide +kernel⟩ <;>
    rw [none z hz] at hh <;> cases hh

theorem timedEngines : EnginesAgree timed := by
  have bound : ∀ e, e < 6 → (tget timed.engines e).handle = none := by decide +kernel
  have owned : ∀ h, h < 96 → (request timed h).engine = none := by decide +kernel
  refine ⟨fun e he h hh => ?_, fun h hh e he => ?_, by decide +kernel, fun h hh e he => ?_, fun h hh e he => ?_,
    by decide +kernel, by decide +kernel, by decide +kernel⟩
  · rw [bound e he] at hh
    cases hh
  all_goals
    rw [owned h hh] at he
    cases he

theorem test_witness_EveryStepKeepsTheScheduleLaws :
    WaitingQueueLaw timed ∧ ClaimsAgree timed ∧ EnginesAgree timed ∧ (TriggersAgree timed ∧ DueListLaw timed ∧ step (timed.setPending [.tickEnd]) ≠ .next timed) ∧
    ((∀ x ∈ (⟨5, .periodic 0⟩ : DueEntry) :: [⟨0, .trigger 3 1⟩, ⟨0x7FFFFFFE, .periodic 1⟩],
        (x.time - (0xFFFFFFFF : Time)).toNat < 2147483648) ∧
      [(⟨0, .trigger 3 1⟩ : DueEntry), ⟨0x7FFFFFFE, .periodic 1⟩].Pairwise fun a b => dueBefore b a = false) :=
  ⟨timedQueue, timedClaims, timedEngines, ⟨timedTriggers, timedDue, fun h => by
    have := congrArg (fun o => match o with
      | .next (t : State) => t.period.started
      | .fault _ | .refused _ => false) h
    revert this
    decide +kernel⟩, by decide⟩

theorem busyExpiry : ExpiryLaw busy := by
  refine ⟨fun h hh hw l hl => ?_, by decide, by decide, by decide⟩
  have one : ∀ h, h < 96 → (request busy h).state = .waiting → h = 2 := by decide +kernel
  obtain rfl := one h hh hw
  rw [show (request busy 2).latestStart = some 9 by decide +kernel] at hl
  cases hl
  decide +kernel

theorem test_witness_EveryStepKeepsTheExpiryLaw :
    WaitingQueueLaw busy ∧ ExpiryLaw busy ∧ busy.period.tickTaken = false ∧ busy.stc.tickLength ≤ busy.stc.phase + 1 ∧
    (∃ t, exec .tickEnd busy = .next t) := ⟨busyQueue, busyExpiry, by decide, by decide, ⟨_, rfl⟩⟩

theorem test_witness_AReferencedBankIsNeverWritten :
    (∀ straps, (.clipWrite hd 1048560 (List.replicate 20 1) : Instr) ≠ .powerOn straps) ∧
    (∃ t, exec (.clipWrite hd 1048560 (List.replicate 20 1)) busy = .next t) ∧
    0 < tget busy.cmc.useCounts (bankOf 1048576) :=
  ⟨by simp, ⟨_, rfl⟩, by decide +kernel⟩

theorem test_witness_TimeMovesBackOnlyByAStep :
    (∀ straps, (.framePeriod .whole : Instr) ≠ .powerOn straps) ∧ (∀ straps, (.framePeriod .whole : Instr) ≠ .pinReset straps) ∧
    (∀ h r f, (.framePeriod .whole : Instr) ≠ .time h r f) ∧
    (∀ ws, busy.ch.complete = some ws → ∀ h r f, decodeCell ws ≠ .command (.time h r f)) ∧
    (∃ t, exec (.framePeriod .whole) busy = .next t) :=
  ⟨by simp, by simp, by simp, fun ws h => by simp [busy, State.reset, State.setZar, State.setEngines, State.setCmc, State.setZlc, State.setStc, State.setPending] at h, ⟨_, rfl⟩⟩

theorem test_witness_TheSlotServesRepliesBeforeEvents :
    let r : Reply := ⟨5, 0xA2, .done, []⟩
    let e : Event := ⟨1, 1, 0, 0, 0, []⟩
    let one := State.reset.setCh { State.reset.ch with replies := [r], events := [e] }
    let two := State.reset.setCh { State.reset.ch with events := [e] }
    (one.etp.slot = 0 ∧ one.etp.sending = none ∧ one.ch.replies = r :: []) ∧
    (two.etp.slot = 0 ∧ two.etp.sending = none ∧ two.ch.replies = [] ∧ two.ch.events = e :: []) ∧
    (State.reset.etp.slot = 0 ∧ State.reset.etp.sending = none ∧ State.reset.ch.replies = [] ∧ State.reset.ch.events = []) ∧
    (State.reset.setEtp { State.reset.etp with slot := 11 }).etp.slot ≠ 0 := by decide

theorem test_witness_TheStartOfAFramePeriod :
    busy.period.started = false ∧ rest.period.started = true ∧
    (∃ u, exec (.framePeriod .start) busy = .next u) ∧ Instr.withinPeriod .tickEnd = true ∧
    Instr.command? (.zoneSet hd 4 0 0 0) = some (hd, 0x41) ∧ hd.addr = busy.ch.unitAddr ∧
    commandCodes.contains 0x98 = false := ⟨rfl, rfl, ⟨_, rfl⟩, by decide⟩

theorem test_witness_TheEgressTagReportsTheZone :
    busy.period.started = false ∧ claim busy 3 = .joined 1 ∧ lineOf busy 4 = .waking ∧ claim busy 4 = .pendingJoin 1 ∧
    (∀ h, claim busy 4 ≠ .joined h) ∧ claim busy 47 = .empty := by
  refine ⟨rfl, by decide +kernel, by decide +kernel, by decide +kernel, fun h => ?_, by decide +kernel⟩
  rw [show claim busy 4 = .pendingJoin 1 by decide +kernel]
  simp

theorem test_witness_TheDuckTakesOneRampStep :
    let m := { defaultMixZone with duckLevel := 8192, rampStep := 64 }
    busy.period.started = false ∧ claim busy 3 = .joined 1 ∧ (request busy 1).cls = .info ∧ claim busy 47 = .empty ∧
    (max 8200 m.duckLevel - min 8200 m.duckLevel ≤ m.rampStep) ∧ 0 + m.rampStep < m.duckLevel ∧
    m.duckLevel + m.rampStep < m.duck := by decide +kernel

/-- A good ingress frame, with or without the cell-start flag. -/
def goodIngress (head : Word) : Frame :=
  ⟨head, List.replicate 40 0x00000180, 7, checkValue (head :: List.replicate 40 0x00000180 ++ [7])⟩

/-- The same frame with a damaged CRC word. -/
def badIngress : Frame := { goodIngress 0xC35A2880 with crc := ~~~(goodIngress 0xC35A2880).crc }

theorem goodIngress_good (head : Word) (h : head.extractLsb' 8 24 = 0xC35A28#24) : frameGood (goodIngress head) = true := by
  simp [frameGood, headerFound, goodIngress, h]

theorem badIngress_bad : headerFound badIngress = true ∧ frameGood badIngress = false := by
  have h : ∀ x : Word, ~~~x ≠ x := fun x hx => by
    have := congrArg (·.getLsbD 0) hx
    simp at this
  exact ⟨by decide +kernel, by simp [frameGood, badIngress, goodIngress, h]⟩

/-- `s` with a link state, runs of bad and good frames, and words in the assembly. -/
def linked (l : LinkState) (bad good : Nat) (expecting : Bool) (ws : List Word) : State :=
  (State.reset.setItp { State.reset.itp with link := l, badRun := bad, goodRun := good, expecting := expecting }).setCh
    { State.reset.ch with words := ws }

theorem test_witness_LanesDeliverTheirSamples :
    let s := State.reset.setItp { State.reset.itp with roles := tset State.reset.itp.roles 39 .source }
    (tget s.itp.roles 0 ≠ .source ∧ tget s.itp.roles 39 = .source) ∧ s.itp.link = .down ∧
    ((linked .lost 48 15 true []).itp.link = .lost ∧ (linked .lost 48 15 true []).itp.goodRun ≠ 16) ∧
    (linked .sync 3 0 false []).itp.link = .sync ∧ frameGood (goodIngress 0xC35A2880) = true ∧ frameGood badIngress = false ∧
    (linked .lost 48 15 true []).itp.goodRun = 15 :=
  ⟨by decide +kernel, rfl, by decide, rfl, goodIngress_good _ (by decide), badIngress_bad.2, rfl⟩

theorem test_witness_TheMixStaysInItsBounds :
    let joined := withClaim 47 (.joined 95) (withLine 47 (line .hang) (setRequest 95 { freeRequest with level := 65535 } busy))
    (∀ r, r < 4 → (tget (tset defaultMixZone.routes 3 ⟨some 39, 65535⟩) r).coeff ≤ 65535) ∧
    (∀ h, h < 96 → (request joined h).level ≤ 65535) ∧
    ((134215680 : Int).natAbs ≤ 134215680 ∧ (-33553920 : Int).natAbs ≤ 33553920 ∧ 16384 ≤ 16384) ∧ 65535 ≤ 65535 ∧
    (lineOf busy 4 ≠ .live ∧ lineOf busy 4 ≠ .hang) ∧ lineOf busy 3 = .live ∧
    (lineOf joined 47 = .hang ∧ claim joined 47 = .joined 95) ∧ (claim joined 46 = .empty) ∧
    ((-8388608 : Int) ≤ -8388608 ∧ (-8388608 : Int) ≤ 8388607) ∧ (8388607 : Int) < 8388608 ∧ (-8388609 : Int) < -8388608 ∧
    (8388479 : Int) < 8388480 ∧ ((8388480 : Int) ≤ 8388480 ∧ (8388480 : Int) ≤ 8388607) := by decide +kernel

theorem test_witness_TheTrackerGatesSamplesAndEndsWindows :
    let s := ((busy.setItp { busy.itp with link := .sync, roles := tset busy.itp.roles 39 (.ambient 47) })).setAmt
      (tset busy.amt 2 { defaultAmbientZone with release := 1 })
    s.period.started = false ∧ claim s 3 = .joined 1 ∧ claim s 2 = .empty ∧ 0 < (tget s.amt 2).release ∧
    claim s 47 = .empty ∧ (tget s.amt 47).release = 0 ∧ ambientLane s 47 = some 39 ∧ syncPeriod s = true ∧
    (gateUpdate (claim s 47) (tget s.amt 47)).gate = .open ∧ ambientLane s 46 = none ∧
    (let a := { defaultAmbientZone with acc := 4800 * 8388608, count := 4800, slope := 65535, factorMax := 65535, step := 1 }
     let u := rest.setAmt (tset (tset (tset rest.amt 47 a) 0 { defaultAmbientZone with count := 4799 }) 1
       { defaultAmbientZone with gate := .release })
     u.period.started = true ∧ 4800 ≤ (tget u.amt 47).count ∧ a.factor + a.step < ambientTarget a 8388608 ∧
     (max 16384 16385 - min 16384 16385 ≤ a.step) ∧ 16384 + a.step < 65535 ∧ (tget u.amt 0).count < 4800 ∧
     (tget u.amt 1).gate = .release ∧ (tget u.amt 1).release = 0 ∧ claim u 1 = .empty ∧
     (tget u.amt 0).gate ≠ .release) := by decide +kernel

theorem test_witness_AnEnginePlaysItsList :
    let clip := setEngine 2 ⟨.playing, some 1, 0, some 0, 19, 0, 0, 0⟩ busy
    let stopping := setEngine 2 ⟨.stopping, some 1, 0, some 0, 18, 0, 1, 0⟩ busy
    busy.period.started = false ∧ (tget busy.engines 5).state = .idle ∧
    ((tget clip.engines 2).state = .playing ∧ (tget clip.engines 2).handle = some 1 ∧ (tget clip.engines 2).fragment = some 0 ∧
      (request clip 1).fragments[0]? = some (.clip 1048576 10) ∧ (tget clip.engines 2).position < 2 * 10) ∧
    ((tget busy.engines 2).state = .playing ∧ (tget busy.engines 2).handle = some 1 ∧ (tget busy.engines 2).fragment = some 1 ∧
      (request busy 1).fragments[1]? = some (.pause 3) ∧ (tget busy.engines 2).position < 3) ∧
    ((tget stopping.engines 2).state = .stopping ∧ (tget stopping.engines 2).handle = some 1 ∧
      (tget stopping.engines 2).fragment = some 0 ∧ 18 + 1 < fragmentFrames (.clip 1048576 10) ∧
      0 < (tget stopping.engines 2).fade) ∧
    (let ended := setEngine 2 ⟨.stopping, some 1, 0, some 0, 20, 0, 1, 0⟩ busy
     let past := setEngine 2 ⟨.stopping, some 1, 0, some 1, 3, 0, 1, 0⟩ busy
     ((request ended 1).fragments[0]? = some (.clip 1048576 10) ∧
       fragmentFrames (.clip 1048576 10) ≤ (tget ended.engines 2).position ∧
       (request ended 1).fragments[0 + 1]? = some (.pause 3) ∧ 1 < fragmentFrames (.pause 3)) ∧
     ((request past 1).fragments[1]? = some (.pause 3) ∧ (tget past.engines 2).position = fragmentFrames (.pause 3) ∧
       1 + 1 = (request past 1).fragments.length ∧ 0 < (tget past.engines 2).fade)) ∧
    (∃ x : Engine, x.state = .stopping ∧ x.fragment = none ∧ 0 < x.fade) :=
  ⟨rfl, by decide +kernel, by decide +kernel, by decide +kernel, by decide +kernel, by decide +kernel,
    ⟨.stopping, some 1, 0, none, 0, 0, 64, 0⟩, rfl, rfl, by decide⟩

theorem test_witness_LastGoodSamplesFollowGoodFrames :
    frameGood (goodIngress 0xC35A2880) = true ∧ frameGood badIngress = false :=
  ⟨goodIngress_good _ (by decide), badIngress_bad.2⟩

theorem test_witness_DamagedFramesAreCounted :
    (headerFound badIngress = true ∧ frameGood badIngress = false) ∧ State.reset.itp.link = .down ∧
    ((linked .sync 47 0 false [1]).itp.link = .sync ∧ (linked .sync 47 0 false [1]).ch.words ≠ []) ∧
    ((linked .lost 48 3 true [1]).itp.link = .lost ∧ (linked .lost 48 3 true [1]).itp.expecting = true) ∧
    (linked .sync 0 0 false []).ch.words = [] ∧
    ((linked .lost 48 0 false []).itp.link = .lost ∧ (linked .lost 48 0 false []).itp.expecting = false) :=
  ⟨badIngress_bad, by decide⟩

theorem test_witness_GoodFramesMakeSyncAndCells :
    let f := goodIngress 0xC35A2880
    let g := goodIngress 0xC35A2800
    frameGood f = true ∧ frameGood g = true ∧ cellStart f = true ∧ cellStart g = false ∧
    ((linked .sync 47 0 false []).itp.link = .sync ∧ (linked .sync 47 0 false []).ch.words = []) ∧
    (linked .sync 0 0 false (List.replicate 11 1)).ch.words.length = 11 ∧
    ((linked .sync 0 0 false [1]).ch.words ≠ [] ∧ (linked .sync 0 0 false [1]).ch.words.length ≠ 11) ∧
    (State.reset.itp.link = .down ∧ State.reset.ch.events.length < 32 ∧ State.reset.ch.words = []) ∧
    ((linked .lost 48 15 true []).itp.link = .lost ∧ (linked .lost 48 15 true []).ch.words = [] ∧
      (linked .lost 48 15 true []).itp.goodRun ≤ 15) :=
  ⟨goodIngress_good _ (by decide), goodIngress_good _ (by decide), by decide +kernel, by decide +kernel, by decide⟩

theorem test_witness_TheLinkIsLostAndRecovered :
    let s := fun l bad good => begun (linked l bad good true [])
    ((s .sync 48 0).period.started = true ∧ (s .sync 48 0).itp.link = .sync ∧ 48 ≤ (s .sync 48 0).itp.badRun ∧
      (s .sync 48 0).ch.events.length < 32) ∧
    (let live := fun c => { freeRequest with state := .active, live := true, current := c }
     let u := setRequest 95 (live .lane) (setRequest 0 (live .engine) (s .sync 48 0))
     (u.period.started = true ∧ u.itp.link = .sync ∧ 48 ≤ u.itp.badRun ∧ u.work.passesDue = 0 ∧ u.work.walksDue = 0) ∧
      (∀ k, k < 96 → (request u k).origin = .external 0) ∧ u.ch.events.length + 1 + 1 ≤ 32 ∧
      ((List.range 96).filter fun k => liveHolder (request u k) && (request u k).current == .lane).length = 1) ∧
    ((s .lost 48 16).itp.link = .lost ∧ 16 ≤ (s .lost 48 16).itp.goodRun) ∧
    (s .sync 47 0).itp.badRun < 48 ∧ (s .lost 48 15).itp.goodRun < 16 := by decide +kernel

theorem test_witness_LaneRouteAndMixSettingsAreWritten :
    let s := begun (setRequest 95 { freeRequest with state := .waiting, live := true, lane := 39 } State.reset)
    Addressed hd s ∧ AmbientLanesUnique rest ∧ ((40 : Byte).toNat > 39 ∧
    ((39 : Byte).toNat ≤ 39 ∧ (2 : Byte).toNat ≤ 2 ∧ ((2 : Byte).toNat = 2 → (47 : Byte).toNat ≤ 47)) ∧
    ((request s 95).state ≠ .free ∧ (request s 95).live = true ∧ (request s 95).lane = (39 : Byte).toNat) ∧
    (∀ k, k < 96 → (request s k).state ≠ .free → (request s k).live = true → (request s k).lane ≠ (0 : Byte).toNat) ∧
    ((48 : Byte).toNat > 47 ∧ (4 : Byte).toNat > 3 ∧ (254 : Byte).toNat > 39 ∧ (254 : Byte).toNat ≠ 255) ∧
    ((47 : Byte).toNat ≤ 47 ∧ (3 : Byte).toNat ≤ 3 ∧ (39 : Byte).toNat ≤ 39 ∧ (255 : Byte).toNat = 255) ∧
    ((16385 : Half).toNat > 16384 ∧ (16384 : Half).toNat ≤ 16384 ∧ 1 ≤ (1 : Half).toNat ∧ (1 : Half).toNat ≤ 16384)) := by
  refine ⟨addressed rfl rfl, fun i j z hi hj h => ?_, by decide +kernel⟩
  have : ∀ i, i < 40 → tget rest.itp.roles i = .unused := by decide +kernel
  rw [this i hi] at h
  cases h

theorem test_witness_AmbientSetWritesTheSettings :
    let s := rest.setAmt (tset rest.amt 47 { defaultAmbientZone with count := 4799 })
    Addressed hd s ∧ (16383 : Half).toNat < 16384 ∧ ((47 : Byte).toNat ≤ 47 ∧ (1 : Byte).toNat ≤ 1 ∧ (8388608 : Word).toNat ≤ 8388608 ∧
      16384 ≤ (16384 : Half).toNat ∧ (1 : Half).toNat ≠ 0) ∧ (tget s.amt (47 : Byte).toNat).count < 4800 :=
  ⟨addressed rfl rfl, by decide +kernel⟩

theorem settled {s : State} (h : s.work = State.reset.work) : Settled s := ⟨by rw [h]; rfl, by rw [h]; rfl⟩

theorem test_witness_WakeEndsAndHangEnds :
    let s := ticked (withClaim 0 (.pendingJoin 4) (withLine 0 (line .waking) (withLine 47 (line .hang)
      (setRequest 4 { freeRequest with state := .granted, current := .lane, live := true } State.reset))))
    Settled s ∧ (s.period.started = true ∧
    (lineOf s 0 = .waking ∧ (tget s.zlc 0).wakeCount ≤ 1 ∧ zmem s.period.tested 0 = false ∧ 0 ∉ s.period.heldWakes ∧
      claim s 0 = .pendingJoin 4 ∧ (request s 4).current = .lane ∧ (request s 4).state = .granted ∧
      (∀ e, e < 6 → zmem (tget s.engines e).waitSet 0 = false)) ∧
    (claim (withLine 1 (line .waking) s) 1 = .empty ∧ 2 ≤ { line .waking with wakeCount := 2 }.wakeCount) ∧
    (lineOf s 47 = .hang ∧ (tget s.zlc 47).hangCount = 0 ∧ s.period.tick = some 1 ∧ 47 ∉ s.period.heldHangs ∧
      claim s 47 = .empty ∧ (tget s.zlc 47).keepAwake = false ∧ zmem s.period.tested 47 = false ∧ s.ch.events.length < 32) ∧
    (lineOf rest 3 ≠ .waking ∧ lineOf rest 3 ≠ .hang ∧ rest.period.tick = none)) :=
  ⟨settled rfl, by decide +kernel⟩

theorem test_witness_TheFramePeriodMakesTheLineTests :
    let s := fun l => withLine 47 (line l) rest
    let z := fun l => withLine 47 { line l with preroll := 0, hang := 0, wakeCount := if l = .waking then 2 else 0, keepAwake := true } rest
    ((s .live).ch.complete = none ∧ (s .live).period.started = true ∧ zmem (s .live).period.tested 47 = false ∧
      (rest.setPeriod { rest.period with tested := zone1 47 }).period.tested = zone1 47) ∧
    (lineOf (s .standby) 47 = .standby ∧ 1 ≤ (tget (s .standby).zlc 47).preroll ∧ (tget (z .standby).zlc 47).preroll = 0 ∧
      (tget rest.amt 47).count < 4800 ∧ zmem rest.period.windowEnded 47 = false) ∧
    (2 ≤ (tget (z .waking).zlc 47).wakeCount ∧ (tget (s .waking).zlc 47).wakeCount ≤ 1) ∧
    (1 ≤ (tget (s .live).zlc 47).hang ∧ (tget (z .live).zlc 47).hang = 0 ∧ (tget (z .live).zlc 47).routeLive = false) ∧
    ((s .hang).stc.status = .unset ∧ claim (s .hang) 47 = .empty ∧
      (∀ h, h < 96 → zmem (request (s .hang) h).requested 47 = false) ∧ (tget (s .hang).zlc 47).hangCount = 0 ∧
      (ticked (s .hang)).period.tick = some 1) := by decide +kernel

theorem test_witness_ZoneSetWritesTheZone :
    let s := withClaim 47 (.joined 1) (withLine 47 (line .live) rest)
    Addressed hd s ∧ ((48 : Byte).toNat > 47 ∧ (8 : Byte).toNat > 7) ∧
    ((47 : Byte).toNat ≤ 47 ∧ (3 : Byte).toNat ≤ 7 ∧ (3 : Byte).getLsbD 1 ≠ (tget s.zlc 47).width16 ∧ claim s 47 ≠ .empty) ∧
    (1 : Byte).getLsbD 1 = (tget s.zlc 47).width16 ∧ claim rest 47 = .empty :=
  ⟨addressed rfl rfl, by decide +kernel⟩

theorem test_witness_ZoneFaultAndZoneClear :
    let s := withLine 47 (line .fault) (withLine 46 (line .standby) rest)
    Addressed hd s ∧ (48 : Byte).toNat > 47 ∧ lineOf s (0 : Byte).toNat = .off ∧ lineOf s (47 : Byte).toNat = .fault ∧
    ((46 : Byte).toNat ≤ 47 ∧ lineOf s 46 ≠ .off ∧ lineOf s 46 ≠ .fault) :=
  ⟨addressed rfl rfl, by decide +kernel⟩

theorem test_witness_TheClockAdvancesAndATickEndCounts :
    let s := begun (atTime 0 479 .unset State.reset)
    (State.reset.ch.complete = none ∧ State.reset.stc.phase + 1 < State.reset.stc.tickLength ∧
      busy.ch.complete = none ∧ busy.stc.tickLength ≤ busy.stc.phase + 1 ∧ busy.stc.slew < 0 ∧
      0 < (busy.setStc { busy.stc with slew := 1048575 }).stc.slew ∧ (busy.setStc { busy.stc with slew := 0 }).stc.slew = 0) ∧
    ((begun busy).period.started = true ∧ (begun busy).period.tickTaken = false ∧
      (begun busy).stc.tickLength ≤ (begun busy).stc.phase + 1) ∧
    (s.period.tickTaken = false ∧ s.stc.tickLength ≤ s.stc.phase + 1 ∧ s.stc.status = .unset ∧ s.zar.queue = []) ∧
    (ticked busy).period.tickTaken = true ∧ rest.stc.phase + 1 < rest.stc.tickLength := by decide

theorem test_witness_HoldoverEntryAndClockSet :
    let s := ticked (State.reset.setStc { State.reset.stc with status := .locked, holdoverCount := 60000 })
    Addressed hd s ∧ (s.period.started = true ∧ s.stc.status = .locked ∧
      100 * s.stc.holdoverLimit ≤ s.stc.holdoverCount ∧ s.period.tick = some 1 ∧ s.ch.events.length < 32) ∧
    rest.stc.status ≠ .locked ∧ (1048576 : Word).toNat > 1048575 ∧
    ((1048575 : Word).toNat ≤ 1048575 ∧ (601 : Half).toNat ≠ 0 ∧ s.stc.holdoverCount < 100 * (601 : Half).toNat) ∧
    ((600 : Half).toNat ≠ 0 ∧ 100 * (600 : Half).toNat ≤ s.stc.holdoverCount) :=
  ⟨addressed rfl rfl, by decide⟩

theorem test_witness_ATimeCellSlewsOrStepsTheClock :
    let s := begun ((atTime 1000000 311 .locked State.reset).setCh { State.reset.ch with capture := some (1000000, 300) })
    (Addressed hd s ∧ s.stc.status ≠ .unset ∧ s.ch.capture = some (1000000, 300) ∧ s.ch.events.length < 32) ∧
    (2 : Byte).toNat > 1 ∧ (((1000050 - 1000000 : Time)).toInt * 480 - 0).natAbs ≤ s.stc.slewWindow ∧
    s.stc.slewWindow < (((1000051 - 1000000 : Time)).toInt * 480 - 300).natAbs ∧ (1 : Byte).toNat ≤ 1 ∧
    s.ch.events.length + 2 ≤ 32 :=
  ⟨⟨⟨rfl, rfl, by decide, by decide⟩, by decide, rfl, by decide⟩, by decide, by decide, by decide, by decide, by decide⟩

/-- Template 3 pauses for 480 frames, and no zone is usable: zone 0 is in FAULT and every other zone OFF. -/
def faulted : State :=
  let pausing := tset rest.tex.templates 3 (some ⟨[⟨[.pause 480], 1⟩], false⟩)
  withLine 0 (line .fault) (rest.setTex { rest.tex with templates := tset pausing 63 (some ⟨[⟨[.via], 4⟩], true⟩) })

/-- `s` with every request record taken. -/
def crowded (s : State) : State :=
  s.setZar { s.zar with requests := Vector.replicate 96 { freeRequest with state := .granted } }

theorem test_witness_AnnounceAdmitsARequest :
    let a := announcing 3 15 2 [0] 48
    let live := { a with flags := 0, sourceKind := 1, lane := 39 }
    let past := { a with deadlinePresent := 1, deadline := 0xFFFFFFFF }
    Addressed hd faulted ∧ Settled faulted ∧ ((4 : Byte).toNat > 3 ∧
    (tget faulted.tex.templates 63).map (·.callField) = some true ∧
    (announceBad { a with template := 4 } faulted = false ∧ expand faulted 4 none none none = none) ∧
    (announceBad live faulted = false ∧ (announceRequest live 5 faulted).map (fun r => (r.live, r.lane)) = some (true, 39) ∧
      tget faulted.itp.roles 39 ≠ .source) ∧
    ((announceRequest past 5 faulted).map (fun r => r.latestStart.map (earlier · (now faulted).1)) = some (some true)) ∧
    (announceBad a (crowded faulted) = false ∧ (announceRequest a 5 (crowded faulted)).map (announceState · (crowded faulted)) = some false ∧
      ∀ k, k < 96 → (request (crowded faulted) k).state ≠ .free) ∧
    (announceBad a faulted = false ∧ (announceRequest a 5 faulted).map (announceState · faulted) = some false ∧
      (request faulted 0).state = .free ∧ faulted.zar.queue.length < 64 ∧
      (∀ z, z < 48 → lineOf faulted z = .off ∨ lineOf faulted z = .fault) ∧
      (∀ e, e < 6 → (tget faulted.engines e).state ≠ .preroll))) :=
  ⟨addressed rfl rfl, settled rfl, by decide +kernel⟩

theorem test_witness_TheWaitingWalkGrants :
    let r := { freeRequest with state := .waiting, cls := .timed, requested := zs [47], minCoverage := 1, fragments := [.pause 9] }
    let s := setRequest 95 r (withLine 47 (line .live) State.reset)
    let v := { freeRequest with state := .active, cls := .info, engine := some 5, requested := zs [1], fragments := [.pause 9] }
    let full := { (setRequest 0 v (setRequest 95 { r with cls := .evac } s)) with
      engines := tset (Vector.replicate 6 { idleEngine with state := .stopping }) 5 { idleEngine with state := .playing } }
    let rivals := { (setRequest 1 { v with order := 1, engine := some 0 } (setRequest 2 { v with cls := .timed, priority := 15, engine := some 1 } full)) with
      engines := tset (tset (tset full.engines 0 { idleEngine with state := .preroll }) 1 { idleEngine with state := .playing }) 5 { idleEngine with state := .playing } }
    ((request s 95).state = .waiting ∧ (request s 95).live = false ∧ (request s 95).current = .engine ∧
      (∀ z, z < 48 → zmem (request s 95).requested z = true → claim s z = .empty) ∧
      (∀ z, z < 48 → (zmem (zs [47]) z = true ↔ zmem (request s 95).requested z = true ∧ lineOf s z ≠ .off ∧ lineOf s z ≠ .fault)) ∧
      zs [47] ≠ 0 ∧ (request s 95).minCoverage ≤ zcard (zs [47]) ∧ (tget s.engines 0).state = .idle) ∧
    ((request (setRequest 95 r full) 95).live = false ∧ (request (setRequest 95 r full) 95).cls ≠ .evac ∧
      (∀ e, e < 6 → (tget (setRequest 95 r full).engines e).state ≠ .idle)) ∧
    ((request full 95).state = .waiting ∧ (request full 95).live = false ∧ (request full 95).cls = .evac ∧
      1 ≤ zcard (obtainable full (request full 95)) ∧ (∀ e, e < 6 → (tget full.engines e).state ≠ .idle) ∧
      full.zar.evacMark = none ∧ victim full = some (0, 5)) ∧
    (victim rivals = some (1, 0) ∧ (request rivals 0).engine = some 5 ∧ (request rivals 2).engine = some 1) ∧
    (victim s = none ∧ 1 ≤ zcard (obtainable (setRequest 95 { r with cls := .evac } s) { r with cls := .evac }) ∧
      ({ full with zar := { full.zar with evacMark := some 0 } } : State).zar.evacMark ≠ none) := by decide +kernel

theorem test_witness_ZonesArePreemptedAndLost :
    let v := { freeRequest with state := .active, cls := .info, requested := zs [46, 47], granted := zs [46, 47], engine := some 5,
                                flags := { freeRequest.flags with resume := true } }
    let r := { freeRequest with state := .waiting, cls := .timed, requested := zs [47], minCoverage := 1,
                                flags := { freeRequest.flags with preempt := true } }
    let s := withClaim 47 (.joined 95) (withClaim 46 (.joined 95) (withLine 47 (line .live) (withLine 46 (line .live)
      (setEngine 5 { idleEngine with state := .playing } (setRequest 0 r (setRequest 95 v rest))))))
    Addressed hd s ∧
    ((request s 0).state = .waiting ∧ (request s 0).current = .engine ∧ obtainable s (request s 0) = zs [47] ∧
      1 ≤ zcard (obtainable s (request s 0)) ∧ claimHandle (claim s 47) = some 95 ∧ zs [47] ≠ 0 ∧
      (∀ z, z < 48 → (zmem (zs [47]) z = true ↔ zmem (obtainable s (request s 0)) z = true ∧ claimHandle (claim s z) = some 95)) ∧
      zdiff v.granted (zs [47]) ≠ 0 ∧ (tget s.engines 0).state = .idle ∧ v.engine ≠ some 0 ∧ s.ch.events.length < 32 ∧
      (tget s.engines 5).state ≠ .preroll) ∧
    (let w := { v with state := .granted }
     let x := { idleEngine with state := .preroll, handle := some 95, waitSet := zs [46, 47] }
     let p := withClaim 47 (.pendingJoin 95) (withClaim 46 (.pendingJoin 95) (withLine 47 (line .waking) (setEngine 5 x (setRequest 95 w s))))
     zdiff w.granted (zs [47]) ≠ 0 ∧ (tget p.engines 5).handle = some 95 ∧ w.pendingEnd = none ∧
      { w with pendingEnd := some .released }.pendingEnd = some .released ∧
      (∀ z, z < 48 → zmem x.waitSet z = true → zmem (zs [47]) z = false → lineOf p z = .live) ∧
      (∀ z, z < 48 → (zmem (zs [46]) z = true ↔ claim p z = .pendingJoin 95 ∧ zmem (zs [47]) z = false ∧ lineOf p z = .live)) ∧
      (zmem x.waitSet 47 = true ∧ zmem (zs [46]) 47 = false ∧ lineOf p 47 ≠ .live)) ∧
    (zdiff (request s 95).granted (zs [46, 47]) = 0 ∧ (request s 95).state = .active ∧ (request s 95).flags.resume = true ∧
      (request s 95).restarts < 3 ∧ (request s 95).live = false) ∧
    (request (setRequest 95 { v with restarts := 3 } s) 95).restarts = 3 ∧
    ((47 : Byte).toNat ≤ 47 ∧ lineOf s 47 ≠ .off ∧ lineOf s 47 ≠ .fault) ∧
    ((0 : Byte).toNat ≤ 7 ∧ (0 : Byte).getLsbD 0 = false ∧ (0 : Byte).getLsbD 1 = (tget s.zlc 47).width16) :=
  ⟨addressed rfl rfl, by decide +kernel⟩

theorem test_witness_LateJoinsAndLiveGrants :
    let v := { freeRequest with state := .granted, cls := .info, requested := zs [46, 47], granted := zs [46] }
    let s := fun (r : Request) => withLine 47 (line .live) (withLine 45 (line .standby) (setRequest 95 r State.reset))
    let lane := { v with live := true, current := .lane }
    let chime := { lane with state := .waiting, granted := 0, current := .engine, minCoverage := 1, fragments := [.pause 9] }
    ((request (s v) 95).state = .granted ∧ (request (s v) 95).current = .engine ∧ zs [47] ≠ 0 ∧
      (∀ z, z < 48 → (zmem (zs [47]) z = true ↔ zmem (request (s v) 95).requested z = true ∧ lineOf (s v) z ≠ .off ∧
        lineOf (s v) z ≠ .fault ∧ claim (s v) z = .empty))) ∧
    ((request (s lane) 95).current = .lane ∧ (request (s lane) 95).live = true ∧ (request (s lane) 95).engine = none ∧
      (∀ z, z < 48 → claim (s lane) z ≠ .pendingJoin 95) ∧
      (∀ z, z < 48 → (zmem (zs [47]) z = true ↔ zmem (zs [47]) z = true ∧ lineOf (s lane) z = .live))) ∧
    (request State.reset 95).state ≠ .granted ∧ (request State.reset 95).state ≠ .active ∧
    ((request (s chime) 95).live = true ∧ (linked .lost 48 0 false []).itp.link = .lost) ∧
    ((request (s chime) 95).state = .waiting ∧ (request (s chime) 95).fragments ≠ [] ∧ (s chime).itp.link ≠ .lost ∧
      (∀ z, z < 48 → zmem (request (s chime) 95).requested z = true → claim (s chime) z = .empty) ∧
      (∀ z, z < 48 → claimHandle (claim (s chime) z) ≠ some 95) ∧
      (∀ z, z < 48 → (zmem (zs [47]) z = true ↔ zmem (request (s chime) 95).requested z = true ∧ lineOf (s chime) z ≠ .off ∧
        lineOf (s chime) z ≠ .fault)) ∧
      (request (s chime) 95).minCoverage ≤ zcard (zs [47]) ∧ (tget (s chime).engines 0).state = .idle) := by decide +kernel

/-- `s` with request 95 held by E5. -/
def held (r : Request) (x : Engine) : State := setEngine 5 x (setRequest 95 { r with engine := some 5 } State.reset)

theorem test_witness_EndsFollowTheirStepsAndReleaseMakesThem :
    let s := fun r => begun (setRequest 95 r State.reset)
    let playing := { freeRequest with state := .active, cls := .timed }
    Addressed hd rest ∧ Settled (begun (held playing idleEngine)) ∧
    ((1 < 96 ∧ (request busy 1).engine = some 2) ∧ busy.ch.events.length < 32 ∧
    ((96 : Byte).toNat > 95 ∧ (95 : Byte).toNat ≤ 95 ∧ (1 : Byte).toNat ≤ 1) ∧
    (request rest 95).state = .free ∧ (request (s { freeRequest with state := .ending }) 95).state = .ending ∧
    (request (s { freeRequest with state := .waiting }) 95).state = .waiting ∧
    (request (begun (held playing idleEngine)) 95).engine = some 5 ∧
    (request (s playing) 95).pendingEnd = none ∧
    (request (s { playing with pendingEnd := some .cancelled }) 95).pendingEnd = some .cancelled) :=
  ⟨restAddressed, settled rfl, by decide +kernel⟩

theorem test_witness_ATalkTimeoutEndsALiveRequest :
    let r := { freeRequest with state := .active, live := true, talkCount := some 0 }
    let s := ticked (held { r with current := .lane } idleEngine)
    let t := ticked (held r idleEngine)
    Settled t ∧ (s.period.started = true ∧ (request s 95).live = true ∧ (request s 95).state = .active ∧
      (request s 95).talkCount = some 0 ∧ s.period.tick = some 1 ∧ (request s 95).current = .lane ∧ s.ch.events.length < 32) ∧
    ((request t 95).current = .engine ∧ (request t 95).engine = some 5) ∧ (request t 0).live = false :=
  ⟨settled rfl, by decide +kernel⟩

theorem test_witness_PrerollExitsAndFragmentBoundaries :
    let x := { idleEngine with state := .preroll, handle := some 95, waitSet := zs [47] }
    let r := { freeRequest with state := .granted, granted := zs [47] }
    let s := begun (withClaim 47 (.pendingJoin 95) (withLine 47 (line .live) (held r x)))
    let t := begun (held { r with pendingEnd := some .released } { x with waitSet := 0 })
    let y : Engine := ⟨.playing, some 95, 0, some 0, 9, 65535, 0, 0⟩
    let q := { freeRequest with state := .active, fragments := [.pause 9, .clip 0 4] }
    let u := begun (held q y)
    let last := begun (held q { y with fragment := some 1, position := 8 })
    let late := withClaim 47 (.pendingJoin 95) (withLine 47 (line .live) u)
    (Settled s ∧ Settled u ∧ Settled late) ∧
    ((s.period.started = true ∧ (tget s.engines 5).state = .preroll ∧ (tget s.engines 5).handle = some 95 ∧
      (∀ z, z < 48 → zmem (tget s.engines 5).waitSet z = true → lineOf s z = .live) ∧ (request s 95).pendingEnd = none ∧
      (request s 95).state = .granted ∧
      (∀ z, z < 48 → (zmem (zs [47]) z = true ↔ claim s z = .pendingJoin 95 ∧ lineOf s z = .live)) ∧ zs [47] ≠ 0) ∧
    ((tget t.engines 5).state = .preroll ∧ (request t 95).pendingEnd = some .released ∧
      ∀ z, z < 48 → zmem (tget t.engines 5).waitSet z = true → lineOf t z = .live) ∧
    (zmem (tget (held r x).engines 5).waitSet 47 = true ∧ lineOf (held r x) 47 ≠ .live)) ∧
    (((tget u.engines 5).state = .playing ∧ (tget u.engines 5).handle = some 95 ∧ (tget u.engines 5).fragment = some 0 ∧
      (request u 95).fragments[0]? = some (.pause 9) ∧ (tget u.engines 5).position = fragmentFrames (.pause 9) ∧
      (request u 95).pendingEnd = none ∧ (request u 95).live = false ∧ (request u 95).state = .active ∧
      0 + 1 < (request u 95).fragments.length) ∧
    (∀ z, z < 48 → claim u z ≠ .pendingJoin 95) ∧
    (∀ z, z < 48 → (zmem (zs [47]) z = true ↔ claim late z = .pendingJoin 95 ∧ lineOf late z = .live)) ∧
    ((request last 95).fragments[1]? = some (.clip 0 4) ∧ (tget last.engines 5).position = fragmentFrames (.clip 0 4) ∧
      1 + 1 = (request last 95).fragments.length ∧ (request last 95).flags.repeats = false) ∧
    { q with flags := { q.flags with repeats := true } }.flags.repeats = true ∧ State.reset.ch.events.length < 32 ∧
    (request (held { q with pendingEnd := some .cancelled } y) 95).pendingEnd = some .cancelled ∧
    ((request (held { q with live := true } y) 95).live = true ∧ u.zar.queue = [] ∧ u.zar.evacMark ≠ some 5 ∧
      (∀ g, g < 6 → (tget u.engines g).state ≠ .preroll)) ∧
    (tget u.engines 0).state ≠ .playing) :=
  ⟨⟨settled rfl, settled rfl, settled rfl⟩, by decide +kernel, by decide +kernel⟩

theorem test_witness_AFadeEndTakesTheOutcome :
    let x := { idleEngine with state := .stopping, handle := some 95 }
    let r := { freeRequest with state := .ending, ending := .returns, flags := { freeRequest.flags with isPartial := true } }
    let s := begun (held r x)
    Settled s ∧ (∃ l, (request (held { r with latestStart := some 0xFFFFFFFF } x) 95).latestStart = some l ∧
      earlier l (now (held r x)).1 = true) ∧
    (s.period.started = true ∧ (tget s.engines 5).state = .stopping ∧ (tget s.engines 5).fade = 0 ∧
      (tget s.engines 5).handle = some 95 ∧ (request s 95).engine = some 5 ∧ (request s 95).ending = .returns ∧
      s.zar.queue.length < 64 ∧ (∀ z, z < 48 → lineOf s z = .off ∨ lineOf s z = .fault) ∧
      (∀ g, g < 6 → (tget s.engines g).state ≠ .preroll) ∧ s.ch.events.length < 32) ∧
    ((request s 95).latestStart = none ∧
    (request (held { r with ending := .ends .zoneLost } x) 95).ending = .ends .zoneLost ∧ 0 < { x with fade := 1 }.fade) :=
  ⟨settled rfl, ⟨0xFFFFFFFF, by decide +kernel⟩, by decide +kernel⟩

theorem test_witness_ClipMemoryAndPhrases :
    let b := begun busy
    let s := begun station
    Addressed hd b ∧ Addressed hd s ∧ ClipMemoryCanonical b ∧
    ((1 : Word).toNat % 20 ≠ 0 ∧ (67108880 : Word).toNat > 67108860) ∧
    ((1048560 : Word).toNat % 20 = 0 ∧ (1048560 : Word).toNat ≤ 67108860 ∧
      0 < tget b.cmc.useCounts ((1048560 + 20 - 1) / 1048576)) ∧
    ((List.replicate 20 (1 : ClipSample)).length = 20 ∧ (67108860 : Word).toNat % 20 = 0 ∧
      (67108860 : Word).toNat ≤ 67108860 ∧ tget b.cmc.useCounts (67108860 / 1048576) = 0) ∧ (1024 : Half).toNat > 1023 ∧
    ((1023 : Half).toNat ≤ 1023 ∧ 1 ≤ (1048576 : Word).toNat ∧
      (66060288 : Word).toNat / 1048576 = ((66060288 : Word).toNat + (1048576 : Word).toNat - 1) / 1048576 ∧
      (66060288 : Word).toNat + (1048576 : Word).toNat ≤ 67108864) ∧
    (310 : Half).toNat ≤ 1023 ∧ tget s.cmc.phrases 310 = some ⟨0, 120000⟩ ∧ tget s.cmc.phrases 1023 = none :=
  ⟨addressed rfl rfl, addressed rfl rfl, test_witness_EveryStepKeepsTheStoresAndTheClockBounded.2.2.1, by decide,
    by decide +kernel⟩

/-- A load of template 63 under way: four wordings of 24 items, wording 1 at first item 21. -/
def loading : State :=
  rest.setTex { rest.tex with load := some ⟨63, 4, [⟨1, [.via], 4⟩, ⟨24, List.replicate 21 (.pause 1), 21⟩], 1, 21⟩ }

theorem test_witness_TemplateSetLoadsATemplate :
    let items := List.replicate 7 (say 1023)
    (Addressed hd rest ∧ Addressed hd loading) ∧
    ((64 : Byte).toNat > 63 ∧ (5 : Byte).toNat > 4 ∧ (63 : Byte).toNat ≤ 63) ∧
    (1 ≤ (7 : Byte).toNat ∧ (7 : Byte).toNat ≤ 7 ∧ (items.take 7).any itemBad = false ∧
      (((items.take 7).map itemOf).map itemWorst).sum ≤ 32) ∧
    (1 ≤ (4 : Byte).toNat ∧ (4 : Byte).toNat ≤ 4 ∧ (24 : Byte).toNat ≤ 24 ∧ 7 < (24 : Byte).toNat) ∧
    (templateCellBad 4 1 24 21 items = false ∧ rest.tex.load = none ∧ ¬((1 : Byte).toNat = 0 ∧ (21 : Byte).toNat = 0)) ∧
    (loading.tex.load.map (fun l => (l.template, l.wordingCount, l.nextWording, l.nextFirst)) = some (63, 4, 1, 21) ∧
      loading.tex.load.map (·.wordings) = some ([⟨1, [.via], 4⟩] ++ [⟨24, List.replicate 21 (.pause 1), 21⟩]) ∧
      21 + (((items.take 3).map itemOf).map itemWorst).sum ≤ 32 ∧ (24 : Byte).toNat ≤ (21 : Byte).toNat + 7 ∧
      (1 : Byte).toNat + 1 < (4 : Byte).toNat) ∧
    ((loading.setTex { loading.tex with load := some ⟨63, 2, [⟨1, [.via], 4⟩], 1, 0⟩ }).tex.load.map
      (fun l => (l.nextWording + 1, l.nextFirst)) = some (2, 0) ∧ templateCellBad 2 1 1 0 items = false ∧
      templateCellBad 4 1 24 7 (List.replicate 7 ⟨6, 0⟩) = false ∧ 32 < 7 + ((List.replicate 7 Item.via).map itemWorst).sum) :=
  ⟨⟨restAddressed, addressed rfl rfl⟩, by decide +kernel⟩

theorem test_witness_ItemsExpandToFragments :
    let c : CallInfo := ⟨31200000, -1, 4, 310, [310, 310, 310, 1023]⟩
    (tget station.cmc.phrases 310 = some ⟨0, 120000⟩ ∧ tget station.cmc.phrases 4 = none ∧ c.platform ≠ 0 ∧ c.via.length ≤ 4) ∧
    { c with platform := 0 }.platform = 0 ∧ (31200000 : Time).toNat / 6000 % 1440 / 60 = 14 ∧
    (∀ i, i ∈ [Item.schedTime, .expectedTime, .platform, .destination, .via, .delayMinutes] → itemCallField i = true) ∧
    tget station.tex.templates 4 = none ∧ (tget station.tex.templates 3).isSome = true ∧
    (expand station 3 none none none).isSome = true := by decide +kernel

theorem test_witness_PlanSetLoadsAPlan :
    let s := begun (setCall 255 { freeCall with state := .open, plan := 31 } State.reset)
    let x := trig 1 0 63 2 2 15 3 65535 (some 8640000)
    let y := trig 0 8640000 63 2 3 15 3 65535 (some (-8640000))
    let l := rest.setCsc { rest.csc with load := some ⟨31, 4, 7, 9, [triggerOf x, triggerOf y], 2⟩ }
    (Addressed hd s ∧ Addressed hd l) ∧ ((32 : Byte).toNat > 31 ∧ (9 : Byte).toNat > 8) ∧
    ((31 : Byte).toNat ≤ 31 ∧ (tget s.csc.calls 255).state = .open ∧ (tget s.csc.calls 255).plan = (31 : Byte).toNat) ∧
    (∀ k, k < 256 → (tget l.csc.calls k).state = .free) ∧
    (planCellBad 4 0 [x, y] = false ∧ planCellBad 4 2 [y, y] = false ∧ planCellBad 4 2 [x, y] = false ∧
      planCellBad 1 0 [x, x] = false ∧ planCellBad 3 2 [y, x] = false) ∧
    (l.csc.load = some ⟨31, 4, 7, 9, [triggerOf x, triggerOf y], 2⟩ ∧ [triggerOf x, triggerOf y].length = 2) ∧
    1 < (([triggerOf x, triggerOf y] ++ [triggerOf x, triggerOf y]).filter fun t => t.role == .alteration).length ∧
    (∀ role, role ∈ [TriggerRole.alteration, .delayNotice, .cancellation] →
      (([triggerOf x, triggerOf y] ++ [triggerOf y, triggerOf y]).filter fun t => t.role == role).length ≤ 1) ∧
    ((0 : Byte).toNat + 2 < (4 : Byte).toNat ∧ (4 : Byte).toNat ≤ (2 : Byte).toNat + 2) :=
  ⟨⟨addressed rfl rfl, addressed rfl rfl⟩, by decide +kernel⟩

theorem test_witness_TheLongestWordingThatFitsIsChosen :
    let w := fun n => (⟨[.pause n], false⟩ : WordingExpansion)
    let s := atTime 1000 0 .locked (State.reset.setTex
      { State.reset.tex with templates := tset State.reset.tex.templates 63 (some ⟨[⟨[.pause 480], 1⟩], false⟩) })
    ((1001 - s.stc.time : Time).toInt * 480 - s.stc.phase = 480 ∧ [w 481, w 480][1]? = some (w 480) ∧ (w 480).fragments ≠ [] ∧
      (listDuration (w 480).fragments : Int) ≤ 480 ∧ 480 < listDuration (w 481).fragments) ∧
    (∀ v ∈ [w 482, w 481], v.fragments = [] ∨ (480 : Int) < (listDuration v.fragments : Int)) ∧
    (∀ v ∈ [(⟨[], true⟩ : WordingExpansion)], v.fragments = []) ∧
    (expand s 63 (some 1001) none none).map (fun x => (x.overrun, x.latestStart)) = some (false, some 1000) := by decide +kernel

theorem test_witness_PlatformSetWritesBothSets :
    Addressed hd rest ∧ ((0 : Byte).toNat = 0 ∧ (33 : Byte).toNat > 32) ∧ (1 ≤ (32 : Byte).toNat ∧ (32 : Byte).toNat ≤ 32) ∧
    (⟨15, 0⟩ : Header).addr = 15 ∧ { freeCall with platform := 32 }.platform = (32 : Byte).toNat :=
  ⟨restAddressed, by decide⟩

/-- The departure of Section 11.1 in a frame period that has begun, with the reply queue as after reset. -/
def loaded : State := begun (departure.setCh State.reset.ch)

theorem test_witness_CallLoadSchedulesACall :
    let c : CallFields := ⟨255, 1410, 1, 1023, 4, [0, 0, 0, 1023], 31200000, 0x7FFFFFFF, 32, 2⟩
    let s := setCall 254 { freeCall with state := .cancelled, triggers := [⟨.normal, 0, .fired, some 95⟩] } loaded
    Addressed hd s ∧ ((2 : Byte).toNat > 1 ∧ 1023 < (1024 : Half).toNat ∧ callFieldsBad c = false ∧ tget s.csc.plans 31 = none ∧
    callFieldsBad { c with plan := 31 } = false ∧ (tget s.csc.plans 2).isSome = true ∧
    (tget s.csc.calls 40).state = .scheduled ∧ (tget s.csc.calls 255).state = .free ∧
    ((tget s.csc.calls 254).state = .cancelled ∧ ∃ x ∈ (tget s.csc.calls 254).triggers, x.state = .fired)) :=
  ⟨addressed rfl rfl, by decide +kernel⟩

theorem test_witness_AWalkTakesADueTrigger :
    let late := atTime 31190001 0 .locked loaded
    let due := atTime 31190000 0 .locked (withLine 20 (line .fault) loaded)
    let empty := due.setTex State.reset.tex
    let c := tget due.csc.calls 40
    let held := setCall 40 { c with platform := 0 } (atTime 31197000 0 .locked loaded)
    ((planTrigger late c 0).map (fun tr => decide ((tr.lateLimit : Int) < timeDiff (now late).1 (callTrigger c 0).fire)) = some true ∧
      c.triggers[0]?.isSome = true ∧ late.ch.events.length < 32) ∧
    ((planTrigger empty c 0).map (fun tr => (tr.target, (tget empty.tex.templates tr.template).isNone)) = some (.concourse, true) ∧
      timeDiff (now empty).1 (callTrigger c 0).fire = 2000) ∧
    ((planTrigger held (tget held.csc.calls 40) 1).map (·.target) = some .platform ∧ (tget held.csc.calls 40).platform = 0 ∧
      timeDiff (now held).1 (callTrigger (tget held.csc.calls 40) 1).fire = 0) ∧
    ((planTrigger due c 0).map (fun tr => (tr.lateLimit, tr.deadline)) = some (2000, none) ∧ c.state = .scheduled ∧
      timeDiff (now due).1 (callTrigger c 0).fire ≤ 2000 ∧
      (expand due 3 none (some (callInfo c)) (some ((callTrigger c 0).fire, 2000))).map
        (fun y => y.latestStart.map (fun l => earlier l (now due).1)) = some (some false) ∧
      zdiff (targetZones due c .concourse) (offZones due) ≠ 0 ∧ due.zar.queue.length < 64 ∧ (request due 0).state = .free ∧
      (∀ z, z < 48 → lineOf due z = .off ∨ lineOf due z = .fault) ∧ (∀ e, e < 6 → (tget due.engines e).state ≠ .preroll) ∧
      lawTime due = (now due).1 ∧ 40 ∉ due.period.loaded) ∧
    (40 ∈ departure.period.loaded ∧ timeDiff (now (atTime 31188000 0 .locked departure)).1 31188000 ≤ 2000) := by decide +kernel

theorem test_witness_OutcomesAndClosesOfCalls :
    let c := { freeCall with state := .open, plan := 2, scheduled := 31200000, triggers := [⟨.normal, 31188000, .fired, some 95⟩] }
    let s := setRequest 94 { freeRequest with state := .active, origin := .periodic 15 }
      (setCall 255 c (setRequest 95 { freeRequest with state := .active, origin := .call 255 0 } loaded))
    let past := begun (atTime 31203000 0 .locked loaded)
    let ends := begun (atTime 31187998 479 .locked loaded)
    Settled ends ∧ ((request s 95).origin = .call 255 0 ∧ (tget s.csc.calls 255).triggers[0]? = some ⟨.normal, 31188000, .fired, some 95⟩ ∧
      (planTrigger s (tget s.csc.calls 255) 0).isSome = true ∧ s.ch.events.length + 2 ≤ 32 ∧
      (request s 94).origin = .periodic 15) ∧
    ((tget past.csc.calls 40).state = .scheduled ∧ (∀ x ∈ (tget past.csc.calls 40).triggers, x.state ≠ .fired) ∧
      (callPlan past (tget past.csc.calls 40)).map (fun p => timeDiff (now past).1
        (expectedTime (tget past.csc.calls 40) + BitVec.ofNat 32 p.closeMargin)) = some 0) ∧
    (∃ x ∈ (tget s.csc.calls 255).triggers, x.state = .fired) ∧
    (ends.period.started = true ∧ ends.period.tickTaken = false ∧ ends.stc.tickLength ≤ ends.stc.phase + 1 ∧
      ends.stc.status ≠ .unset ∧ ends.zar.queue = [] ∧ (∀ e ∈ ends.csc.due, 0 < timeDiff e.time (ends.stc.time + 1)) ∧
      (tget ends.csc.calls 40).state = .scheduled ∧ (callPlan ends (tget ends.csc.calls 40)).isSome = true) :=
  ⟨settled (by decide +kernel), by decide +kernel⟩

/-- A plan whose second trigger is an ALTERATION for the platform, and the call of slot 255 that follows it. -/
def special (state : TriggerState) (platform : Nat) : State :=
  setCall 255 { freeCall with
      state := .open
      plan := 31
      platform := platform
      triggers := [⟨.normal, 40, .pending, none⟩, ⟨.alteration, 0xFFFFFFFF, state, if state = .fired then some 95 else none⟩] }
    ((faulted.setStc { faulted.stc with status := .locked }).setCsc { faulted.csc with
      platforms := tset faulted.csc.platforms 3 ⟨zs [0], 0⟩
      plans := tset faulted.csc.plans 31 (some ⟨0, 6000, [⟨.normal, 7, 3, .platform, .info, 0, false, false, none, 9⟩,
        ⟨.alteration, 0, 3, .platform, .timed, 0, false, false, none, 9⟩]⟩) })

theorem test_witness_SpecialTriggersAndWithdrawals :
    let s := special .missed 4
    let c := tget s.csc.calls 255
    let fired := setRequest 95 { freeRequest with state := .waiting, origin := .call 255 0 }
      (setCall 255 { c with triggers := [⟨.normal, 40, .fired, some 95⟩, ⟨.alteration, 0xFFFFFFFF, .sounded, none⟩] }
        (s.setStc { s.stc with status := .unset }))
    (Settled s ∧ Settled fired) ∧ fired.stc.status = .unset ∧
    (s.stc.status ≠ .unset ∧ (planTrigger s c 1).map (·.target) = some .platform ∧ s.ch.events.length < 32) ∧
    ((tget (special .fired 4).csc.calls 255).triggers[1]?.map (·.state) = some .fired) ∧
    ((tget (special .missed 0).csc.calls 255).platform = 0 ∧ c.triggers[1]?.map (·.state) = some .missed) ∧
    (c.platform ≠ 0 ∧ (expand s 3 none (some (callInfo c)) (some ((now s).1, 9))).map
        (fun y => y.latestStart.map fun l => (earlier l (now s).1, earlier l (lawTime s))) = some (some (false, false)) ∧
      zdiff (targetZones s c .platform) (offZones s) ≠ 0 ∧ s.zar.queue.length < 64 ∧ (request s 0).state = .free ∧
      (∀ z, z < 48 → lineOf s z = .off ∨ lineOf s z = .fault) ∧ (∀ e, e < 6 → (tget s.engines e).state ≠ .preroll)) ∧
    (c.triggers[0]? = some ⟨.normal, 40, .pending, none⟩ ∧ (planTrigger s c 0).isSome = true) ∧
    ((request fired 95).state = .waiting ∧ (request fired 95).origin = .call 255 0 ∧ (request fired 95).engine = none ∧
      (tget fired.csc.calls 255).triggers[0]? = some ⟨.normal, 40, .fired, some 95⟩ ∧
      (∀ z, z < 48 → lineOf fired z = .off ∨ lineOf fired z = .fault)) :=
  ⟨⟨settled rfl, settled rfl⟩, by decide +kernel⟩

/-- A SCHEDULED call without triggers, and an empty due list. -/
def amendable : State :=
  (setCall 255 { freeCall with state := .scheduled, plan := 31 } rest).setCsc
    { (setCall 255 { freeCall with state := .scheduled, plan := 31 } rest).csc with
      plans := tset rest.csc.plans 31 (some ⟨0, 0, []⟩) }

theorem amendableDue : DueListLaw amendable := by
  have bare : ∀ k, k < 256 → (tget amendable.csc.calls k).triggers = [] := by decide +kernel
  refine ⟨fun e => ⟨(by cases ·), fun h => ?_⟩, by decide +kernel, fun slot hs hr => ?_⟩
  · obtain ⟨time, item⟩ := e
    cases item with
    | trigger slot i =>
      obtain ⟨hs, -, x, hx, -⟩ := h
      rw [triggerAt, bare slot hs] at hx
      cases hx
    | periodic i =>
      obtain ⟨hi, hp, -⟩ := h
      rw [show tget amendable.csc.periodics i = absentPeriodic by revert i; decide +kernel] at hp
      cases hp
  · refine ⟨⟨0, 0, []⟩, ?_, by rw [bare slot hs]; rfl⟩
    revert slot
    decide +kernel

theorem test_witness_CallAmendRewritesACall :
    let unset := loaded.setStc { loaded.stc with status := .unset }
    Addressed hd unset ∧ DueListLaw amendable ∧ (((4 : Byte).toNat > 3 ∧ (2 : Byte).getLsbD 1 = true ∧ (33 : Byte).toNat > 32) ∧
    (1 ≤ (3 : Byte).toNat ∧ (3 : Byte).toNat ≤ 3 ∧ (32 : Byte).toNat ≤ 32) ∧ (tget unset.csc.calls 0).state = .free ∧
    (tget unset.csc.calls 40).state = .scheduled ∧ unset.stc.status = .unset ∧
    (∀ i, i < 2 → ((tget unset.csc.calls 40).triggers[i]?).map (·.state) = some .pending) ∧
    (planTrigger unset (tget unset.csc.calls 40) 1).isSome = true ∧
    (tget amendable.csc.calls 255).state = .scheduled ∧
    (tget amendable.csc.calls 255).triggers = [] ∧
    { tget unset.csc.calls 40 with delay := max (-360000) (min 8640000 (0 : Word).toInt) } = tget unset.csc.calls 40) :=
  ⟨addressed rfl rfl, amendableDue, by decide +kernel⟩

theorem test_witness_CallCancelAndCallClear :
    let closed := setCall 40 { freeCall with state := .closed, triggers := [⟨.normal, 0, .sounded, none⟩] } rest
    let fired := setCall 40 { freeCall with state := .cancelled, triggers := [⟨.normal, 0, .fired, some 95⟩] } rest
    Addressed hd loaded ∧ ((tget loaded.csc.calls 255).state ≠ .scheduled ∧ (tget loaded.csc.calls 255).state ≠ .open) ∧
    (tget loaded.csc.calls 40).state = .scheduled ∧ (∀ x ∈ (tget loaded.csc.calls 40).triggers, x.state ≠ .fired) ∧
    (∃ x ∈ (tget fired.csc.calls 40).triggers, x.state = .fired) ∧
    ((tget closed.csc.calls 40).state = .closed ∧ ∀ x ∈ (tget closed.csc.calls 40).triggers, x.state ≠ .fired) :=
  ⟨addressed rfl rfl, by decide +kernel⟩

theorem test_witness_PeriodicEntriesAreSetAndFired :
    let p : PeriodicFields := ⟨15, 1, 3, 7, 15, zs [47], 65535, 31050000⟩
    let hourly : Periodic := { absentPeriodic with present := true, template := 3, zones := zs [0], interval := 65535 }
    let s := faulted.setCsc { faulted.csc with
      periodics := tset (tset faulted.csc.periodics 15 hourly) 14 { absentPeriodic with previous := some 95 } }
    (Addressed hd s ∧ (16 : Byte).toNat > 15 ∧ (0 : Half).toNat = 0) ∧
    (periodicBad { p with template := 4 } = false ∧ tget s.tex.templates 4 = none) ∧
    (periodicBad { p with template := 63 } = false ∧ (tget s.tex.templates 63).map (·.callField) = some true) ∧
    (p.index.toNat ≤ 15 ∧ p.present.toNat = 1 ∧ p.template.toNat ≤ 63 ∧ p.flags.toNat ≤ 7 ∧ p.priority.toNat ≤ 15 ∧
      p.interval.toNat ≠ 0 ∧ p.zones ≠ 0 ∧ (tget s.tex.templates p.template.toNat).map (·.callField) = some false) ∧
    { p with present := 0 }.present.toNat = 0 ∧
    (1 ≤ 6553500 ∧ 0 ≤ timeDiff 31290000 31050000 ∧ timeDiff 31290000 31050000 + 6553500 ≤ 2147483647) ∧
    (tget s.csc.periodics 14).previous ≠ none ∧
    ((tget s.csc.periodics 15).previous = none ∧ (expand s 3 none none (some ((now s).1, 6553500))).isSome = true ∧
      zdiff (tget s.csc.periodics 15).zones (offZones s) ≠ 0 ∧ earlier ((now s).1 + 6553500) (now s).1 = false ∧
      earlier ((now s).1 + 6553500) (lawTime s) = false ∧ s.zar.queue.length < 64 ∧ (request s 0).state = .free ∧
      (∀ z, z < 48 → lineOf s z = .off ∨ lineOf s z = .fault) ∧ (∀ e, e < 6 → (tget s.engines e).state ≠ .preroll)) :=
  ⟨⟨addressed rfl rfl, by decide, by decide⟩, by decide +kernel⟩

theorem test_witness_QueriesAndIdentifyReportTheState :
    let b := begun busy
    let s := setRequest 95 { freeRequest with state := .active, fragments := List.replicate 32 (.clip 9 9) }
      (setCall 255 { freeCall with state := .open, triggers := List.replicate 8 ⟨.normal, 0, .pending, none⟩ } b)
    (Addressed hd b ∧ Addressed hd s) ∧
    ((47 : Half).toNat ≤ 47 ∧ (5 : Half).toNat ≤ 5 ∧ (255 : Half).toNat ≤ 255 ∧ (3 : Byte).toNat ≤ 3) ∧
    (claim b 3 = .joined 1 ∧ claim b 4 = .pendingJoin 1 ∧ claim b 47 = .empty) ∧
    ((48 : Half).toNat > 47 ∧ (6 : Half).toNat > 5 ∧ (4 : Byte).toNat > 3 ∧ (96 : Half).toNat > 95 ∧ (256 : Half).toNat > 255) ∧
    ((1 : Half).toNat ≤ 95 ∧ (request b 1).state ≠ .free) ∧
    ((95 : Half).toNat ≤ 95 ∧ (9 : Byte).toNat ≤ 9 ∧ (request b 95).state = .free) ∧
    ((request b 1).fragments.length ≤ 4 * (2 : Byte).toNat - 6 ∧ 2 ≤ (2 : Byte).toNat) ∧
    ((request s 95).state ≠ .free ∧ 4 * (9 : Byte).toNat - 6 < (request s 95).fragments.length) ∧
    ((tget s.csc.calls 255).state ≠ .free ∧ 5 * (2 : Byte).toNat - 5 < (tget s.csc.calls 255).triggers.length ∧
      (tget s.csc.calls 255).triggers.length ≤ 8) ∧ (tget s.csc.calls 0).state = .free ∧
    ((3 : Byte).toNat, 38, 10) ∈ [(1, 0, 19), (2, 19, 19), (3, 38, 10)] :=
  ⟨⟨addressed rfl rfl, addressed rfl rfl⟩, by decide +kernel⟩

theorem test_witness_ThreeResetsGiveTheirStates :
    Addressed hd (begun busy) ∧ lineOf busy 3 = .live ∧ (request busy 1).state = .active := ⟨addressed rfl rfl, by decide +kernel⟩

end Sys2Proof.Tests
end

section
/-! The bounds of the cell queues, the counters, the clip memory and the Station Clock as one preorder on states: an operation that has it carries each of the four laws on, and operations in sequence have it when each has. -/

namespace Sys2Proof.Machine

/-- Each law of the stores and of the clock that holds of `s` holds of `t`. -/
structure KeepsBounds (s t : State) : Prop where
  queues : CellQueuesBounded s → CellQueuesBounded t
  counters : LinkCountersBounded s → LinkCountersBounded t
  memory : ClipMemoryCanonical s → ClipMemoryCanonical t
  clock : ClockInRange s.stc → ClockInRange t.stc

namespace KeepsBounds

theorem refl (s : State) : KeepsBounds s s := ⟨id, id, id, id⟩

theorem trans {s t u : State} (a : KeepsBounds s t) (b : KeepsBounds t u) : KeepsBounds s u :=
  ⟨b.queues ∘ a.queues, b.counters ∘ a.counters, b.memory ∘ a.memory, b.clock ∘ a.clock⟩

/-- What the four laws read of a state: two states that agree on it are under the same laws. -/
theorem of_same {s t : State} (hch : t.ch = s.ch) (hitp : t.itp = s.itp) (hmem : t.cmc.memory = s.cmc.memory)
    (hstc : t.stc = s.stc) : KeepsBounds s t where
  queues h := by simpa only [CellQueuesBounded, hch] using h
  counters h := ⟨hitp ▸ h.crc, hitp ▸ h.missing, hch ▸ h.discards, hitp ▸ h.badRun, hitp ▸ h.goodRun⟩
  memory h := by simpa only [ClipMemoryCanonical, hmem] using h
  clock h := hstc ▸ h

/-- An action of the arbiter or of the scheduler keeps the four laws. -/
theorem of_act {s t : State} (a : ActFrame s t) : KeepsBounds s t where
  queues h := ⟨by rw [a.replies]; exact h.1, a.eventsBound h.2⟩
  counters h := ⟨a.itp ▸ h.crc, a.itp ▸ h.missing, a.discards ▸ h.discards, a.itp ▸ h.badRun, a.itp ▸ h.goodRun⟩
  memory h := by simpa only [ClipMemoryCanonical, a.memory] using h
  clock h := a.stc ▸ h

/-- A change of the Ingress Trunk Port that keeps its counters in range. -/
theorem of_itp (s : State) {x : Itp} (hcrc : s.itp.crcErrors ≤ 65535 → x.crcErrors ≤ 65535)
    (hmiss : s.itp.missing ≤ 65535 → x.missing ≤ 65535) (hbad : s.itp.badRun ≤ 48 → x.badRun ≤ 48)
    (hgood : s.itp.goodRun ≤ 16 → x.goodRun ≤ 16) : KeepsBounds s (s.setItp x) :=
  ⟨id, fun h => ⟨hcrc h.crc, hmiss h.missing, h.discards, hbad h.badRun, hgood h.goodRun⟩, id, id⟩

/-- A change of the Cell Handler that lengthens neither queue and keeps the discard count in range. -/
theorem of_ch (s : State) {x : Ch} (hrep : x.replies.length ≤ s.ch.replies.length)
    (hev : x.events.length ≤ s.ch.events.length) (hdis : s.ch.discards ≤ 65535 → x.discards ≤ 65535) :
    KeepsBounds s (s.setCh x) :=
  ⟨fun h => ⟨hrep.trans h.1, hev.trans h.2⟩, fun h => ⟨h.crc, h.missing, hdis h.discards, h.badRun, h.goodRun⟩, id, id⟩

/-- A change of the Station Clock that keeps its ranges. -/
theorem of_stc (s : State) {x : Stc} (h : ClockInRange s.stc → ClockInRange x) : KeepsBounds s (s.setStc x) :=
  ⟨id, fun h => ⟨h.crc, h.missing, h.discards, h.badRun, h.goodRun⟩, id, h⟩

/-- A change of the Clip Memory Controller that keeps the canonical form. -/
theorem of_cmc (s : State) {x : Cmc} (h : memWf s.cmc.memory = true → memWf x.memory = true) :
    KeepsBounds s (s.setCmc x) :=
  ⟨id, fun h => ⟨h.crc, h.missing, h.discards, h.badRun, h.goodRun⟩, h, id⟩

/-- A change by which cells leave the queues, and nothing else that the laws read is touched. -/
theorem of_shorter {s t : State} (hrep : t.ch.replies.length ≤ s.ch.replies.length)
    (hev : t.ch.events.length ≤ s.ch.events.length) (hdis : t.ch.discards = s.ch.discards) (hitp : t.itp = s.itp)
    (hmem : t.cmc.memory = s.cmc.memory) (hstc : t.stc = s.stc) : KeepsBounds s t :=
  (of_ch s hrep hev fun h => hdis.trans_le h).trans (of_same (s := s.setCh t.ch) rfl hitp hmem hstc)

theorem pushReply (r : Reply) (s : State) : KeepsBounds s (Machine.pushReply r s) := by
  rw [pushReply_spec]
  split
  · next hroom =>
    exact ⟨fun h => ⟨by simp; omega, h.2⟩, fun h => ⟨h.crc, h.missing, h.discards, h.badRun, h.goodRun⟩, id, id⟩
  · exact refl s

theorem chooseCell (s : State) : KeepsBounds s (Machine.chooseCell s) := by
  unfold Machine.chooseCell
  split
  · split
    · next hr => exact of_shorter (by simp [hr]) (Nat.le_refl _) rfl rfl rfl rfl
    · next he => exact of_shorter (Nat.le_refl _) (by simp [he]) rfl rfl rfl rfl
    · exact of_same rfl rfl rfl rfl
  · exact refl s

theorem startPeriod (s : State) : KeepsBounds s (Machine.startPeriod s) := by
  unfold Machine.startPeriod
  split
  · exact refl s
  · exact (chooseCell s).trans (of_same rfl rfl rfl rfl)

/-- A command that is taken keeps the laws when what it carries out keeps them. -/
theorem takeCommand {run : State → Answer} (hrun : ∀ s, KeepsBounds s (run s).after) (h : Header) (code : Byte) (s : State) :
    KeepsBounds s (Machine.takeCommand h code run s) :=
  takeCommand_keeps (KeepsBounds s) (fun r _ k => k.trans (pushReply r _))
    (fun _ _ k => k.trans (of_same rfl rfl rfl rfl)) h code run s (refl s) ((startPeriod s).trans (hrun _))

end KeepsBounds

/-! ### Ingress frames (R3 to R9, R15, R16) -/

theorem countUp_le (c k : Nat) : countUp c k ≤ 65535 := Nat.min_le_left _ _

namespace KeepsBounds

theorem discardPartial (s : State) : KeepsBounds s (Machine.discardPartial s) := by
  unfold Machine.discardPartial
  split
  · exact refl s
  · exact of_ch s (Nat.le_refl _) (Nat.le_refl _) fun _ => countUp_le _ _

theorem takeServiceWord (start : Bool) (w : Word) (s : State) : KeepsBounds s (Machine.takeServiceWord start w s) := by
  unfold Machine.takeServiceWord
  split
  · exact (discardPartial s).trans (of_ch _ (Nat.le_refl _) (Nat.le_refl _) id)
  · split
    · exact refl s
    · split <;> exact of_ch s (Nat.le_refl _) (Nat.le_refl _) id

theorem raiseLinkState (old new : LinkState) (n : Nat) (s : State) : KeepsBounds s (Machine.raiseLinkState old new n s) :=
  of_act (ActFrame.pushEvent ..)

theorem goodFrame (f : Frame) (s : State) : KeepsBounds s (Machine.goodFrame f s) := by
  unfold Machine.goodFrame
  simp only
  split
  · refine trans (trans ?_ (raiseLinkState ..)) (takeServiceWord ..)
    exact of_itp s id id (fun _ => Nat.zero_le _) id
  · refine trans ?_ (takeServiceWord ..)
    exact of_itp s id id (fun _ => Nat.zero_le _) id
  · have counted : KeepsBounds s (s.setItp { s.itp with
        goodRun := min 16 (s.itp.goodRun + 1), expecting := true,
        lastGood := tmapIdx s.itp.lastGood fun i _ => goodSample f i }) :=
      of_itp s id id id fun _ => Nat.min_le_left _ _
    split
    · exact counted.trans (takeServiceWord ..)
    · exact counted.trans (discardPartial _)

theorem badFrame (s : State) : KeepsBounds s (Machine.badFrame s) := by
  unfold Machine.badFrame
  simp only
  split
  · exact of_itp s (fun _ => countUp_le _ _) id id id
  · refine trans ?_ (discardPartial _)
    exact of_itp s (fun _ => countUp_le _ _) id (fun _ => Nat.min_le_left _ _) id
  · refine trans ?_ (discardPartial _)
    exact of_itp s (fun _ => countUp_le _ _) id id fun _ => Nat.zero_le _

theorem missingFrame (s : State) : KeepsBounds s (Machine.missingFrame s) := by
  unfold Machine.missingFrame
  simp only
  split
  · exact refl s
  · refine trans ?_ (discardPartial _)
    exact of_itp s id (fun _ => countUp_le _ _) (fun _ => Nat.min_le_left _ _) id
  · split
    · refine trans ?_ (discardPartial _)
      exact of_itp s id (fun _ => countUp_le _ _) id fun _ => Nat.zero_le _
    · exact refl s

theorem ingressFrame (f : Frame) (s : State) : KeepsBounds s (Machine.ingressFrame f s) := by
  unfold Machine.ingressFrame
  split
  · exact goodFrame f s
  · split
    · exact badFrame s
    · exact missingFrame s

end KeepsBounds

/-! ### The events of a frame period -/

/-- What every event of a frame period keeps, from its start work to its end: the four laws, the egress port, and of the clock all but time status and holdover count (R14, R136). -/
structure PeriodFrame (s t : State) : Prop extends KeepsBounds s t where
  etp : t.etp = s.etp
  stc : t.stc = { s.stc with status := t.stc.status, holdoverCount := t.stc.holdoverCount }

namespace PeriodFrame

theorem refl (s : State) : PeriodFrame s s := ⟨.refl s, rfl, rfl⟩

theorem trans {s t u : State} (a : PeriodFrame s t) (b : PeriodFrame t u) : PeriodFrame s u where
  toKeepsBounds := a.toKeepsBounds.trans b.toKeepsBounds
  etp := b.etp.trans a.etp
  stc := by rw [b.stc, a.stc]

theorem of_act {s t : State} (a : ActFrame s t) : PeriodFrame s t := ⟨.of_act a, a.etp, by rw [a.stc]⟩

theorem foldl {α : Type} {f : State → α → State} (hf : ∀ s a, PeriodFrame s (f s a)) (l : List α) (s : State) :
    PeriodFrame s (l.foldl f s) :=
  foldl_keeps (PeriodFrame s) f (fun t a h => h.trans (hf t a)) l s (refl s)

theorem setAmt (s : State) (x : Vector AmbientZone 48) : PeriodFrame s (s.setAmt x) := ⟨.of_same rfl rfl rfl rfl, rfl, rfl⟩

theorem setZlc (s : State) (x : Vector ZoneLine 48) : PeriodFrame s (s.setZlc x) := ⟨.of_same rfl rfl rfl rfl, rfl, rfl⟩

theorem setPeriod (s : State) (x : Period) : PeriodFrame s (s.setPeriod x) := ⟨.of_same rfl rfl rfl rfl, rfl, rfl⟩

theorem setItp (s : State) {x : Itp} (h : KeepsBounds s (s.setItp x)) : PeriodFrame s (s.setItp x) := ⟨h, rfl, rfl⟩

theorem modLine (z : Nat) (f : ZoneLine → ZoneLine) (s : State) : PeriodFrame s (Machine.modLine z f s) := setZlc ..

theorem markTested (z : Nat) (s : State) : PeriodFrame s (Machine.markTested z s) := setPeriod ..

theorem clearPeak (z : Nat) (s : State) : PeriodFrame s (Machine.clearPeak z s) := setAmt ..

/-- An action on the tick-end notice reads phase 0, which lies in every tick, and leaves time and phase as they were (R138). -/
theorem onTick {f : State → State} (hf : ∀ s, PeriodFrame s (f s)) (s : State) : PeriodFrame s (Machine.onTick f s) := by
  have a := hf ((s.setStc { s.stc with time := s.period.tick.getD s.stc.time, phase := 0 }).setPeriod
    { s.period with read := none })
  have hstc := a.stc
  refine ⟨⟨a.queues, fun h => ?_, a.memory, fun h => ?_⟩, a.etp, ?_⟩
  · have b := a.counters ⟨h.crc, h.missing, h.discards, h.badRun, h.goodRun⟩
    exact ⟨b.crc, b.missing, b.discards, b.badRun, b.goodRun⟩
  · have htick := h.tick
    have b := a.clock ⟨h.tick, by simp; omega, h.slew, h.count, h.window, h.limit, h.unset⟩
    refine ⟨b.tick, ?_, b.slew, b.count, b.window, b.limit, b.unset⟩
    simp only [Machine.onTick, Machine.withTime, State.setPeriod_stc, State.setStc_stc]
    rw [hstc]
    exact h.phase
  · simp only [Machine.onTick, Machine.withTime, State.setPeriod_stc, State.setStc_stc]
    rw [hstc]
    rfl

theorem tickNotice {f : State → State} (hf : ∀ s, PeriodFrame s (f s)) (s : State) : PeriodFrame s (Machine.tickNotice f s) :=
  (onTick hf s).trans (setPeriod ..)

theorem lineTest {f : State → State} (hf : ∀ s, PeriodFrame s (f s)) (z : Nat) (s : State) :
    PeriodFrame s (Machine.lineTest z f s) := by
  unfold Machine.lineTest
  split
  · exact onTick hf s
  · exact hf s

/-! Link events and window ends (R4, R5, R40). -/

theorem linkLost (s : State) : PeriodFrame s (Machine.linkLost s) := by
  unfold Machine.linkLost
  split
  · refine trans ?_ (of_act (ActFrame.trans (ActFrame.pushEvent ..) (ActFrame.loseSources _)))
    exact setItp s (.of_itp s id id id fun _ => Nat.zero_le _)
  · exact refl s

theorem linkRecovered (s : State) : PeriodFrame s (Machine.linkRecovered s) := by
  unfold Machine.linkRecovered
  split
  · refine trans ?_ (of_act (ActFrame.trans (ActFrame.pushEvent ..) ((ActFrame.needPass _).trans (ActFrame.settle _))))
    exact setItp s (.of_itp s id id (fun _ => Nat.zero_le _) fun _ => Nat.zero_le _)
  · exact refl s

theorem linkEvents (s : State) : PeriodFrame s (Machine.linkEvents s) := (linkLost s).trans (linkRecovered _)

theorem windowEnd (z : Nat) (s : State) : PeriodFrame s (Machine.windowEnd z s) := by
  unfold Machine.windowEnd
  split
  · exact (setAmt ..).trans (setPeriod ..)
  · exact refl s

theorem windowEnds (s : State) : PeriodFrame s (Machine.windowEnds s) := foldl (fun s z => windowEnd z s) ..

/-! The timed tests of the zone lines (R53 to R58). -/

theorem enterLive (z : Nat) (s : State) : PeriodFrame s (Machine.enterLive z s) :=
  ((modLine ..).trans (markTested ..)).trans (of_act (ActFrame.reportLive ..))

theorem wakeZone (z : Nat) (s : State) : PeriodFrame s (Machine.wakeZone z s) := by
  unfold Machine.wakeZone
  simp only
  split
  · exact (clearPeak ..).trans (enterLive ..)
  · exact (clearPeak ..).trans ((modLine ..).trans (markTested ..))

theorem testToLive (s : State) (z : Nat) : PeriodFrame s (Machine.testToLive s z) := by
  unfold Machine.testToLive
  simp only
  split
  · split
    · exact lineTest (enterLive z) z s
    · split
      · exact lineTest (wakeZone z) z s
      · exact refl s
    all_goals exact refl s
  · exact refl s

theorem liveRounds (n : Nat) (s : State) : PeriodFrame s (Machine.liveRounds n s) := by
  induction n generalizing s with
  | zero => exact refl s
  | succ n ih =>
    unfold Machine.liveRounds
    simp only
    split
    · exact foldl testToLive _ s
    · exact (foldl testToLive _ s).trans (ih _)

theorem raiseZoneState (z : Nat) (old new : LineState) (reason : Nat) (fault : Byte) (s : State) :
    PeriodFrame s (Machine.raiseZoneState z old new reason fault s) := of_act (ActFrame.pushEvent ..)

theorem idleTest (z : Nat) (s : State) : PeriodFrame s (Machine.idleTest z s) := by
  unfold Machine.idleTest
  simp only
  split
  · exact refl s
  · split
    · exact ((modLine ..).trans (markTested ..)).trans (raiseZoneState ..)
    · exact (modLine ..).trans (markTested ..)

theorem hangEnd (z : Nat) (s : State) : PeriodFrame s (Machine.hangEnd z s) := by
  unfold Machine.hangEnd
  split
  · exact ((modLine ..).trans (markTested ..)).trans (onTick (raiseZoneState z .hang .standby 3 0) _)
  · exact refl s

theorem quietTest (s : State) (z : Nat) : PeriodFrame s (Machine.quietTest s z) := by
  unfold Machine.quietTest
  split
  · split
    · split
      · exact lineTest (wakeZone z) z s
      · exact refl s
    · exact lineTest (idleTest z) z s
    · exact hangEnd z s
    all_goals exact refl s
  · exact refl s

theorem wakeEnd (z : Nat) (s : State) : PeriodFrame s (Machine.wakeEnd z s) := by
  unfold Machine.wakeEnd
  split
  · exact enterLive z s
  · exact refl s

theorem wakeTest (s : State) (z : Nat) : PeriodFrame s (Machine.wakeTest s z) := by
  unfold Machine.wakeTest
  simp only
  split
  · split
    · exact wakeEnd z s
    · exact modLine ..
  · exact refl s

theorem heldWakes (s : State) : PeriodFrame s (Machine.heldWakes s) := foldl (fun s z => wakeEnd z s) ..

theorem lineTests (s : State) : PeriodFrame s (Machine.lineTests s) :=
  (((foldl wakeTest _ s).trans (liveRounds 48 _)).trans (foldl (fun s z => hangEnd z s) _ _)).trans (foldl quietTest _ _)

/-! Engine events, the tick end, talk timeouts and the entry to HOLDOVER (R88, R104, R108, R138, R144). -/

theorem engineEvents (s : State) : PeriodFrame s (Machine.engineEvents s) :=
  (foldl (fun _ e => of_act ((ActFrame.boundary e _).trans (ActFrame.settle _))) _ s).trans
    (foldl (fun _ e => of_act ((ActFrame.endFade e _).trans (ActFrame.settle _))) _ _)

theorem countHoldover (s : State) : PeriodFrame s (Machine.countHoldover s) := by
  unfold Machine.countHoldover
  split
  · next locked =>
    refine ⟨.of_stc s fun h => ⟨h.tick, h.phase, h.slew, ?_, h.window, h.limit, ?_⟩, rfl, rfl⟩
    · have := h.limit.2
      show min _ _ ≤ _
      omega
    · intro unset
      exact absurd (locked.symm.trans unset) (by decide)
  · exact refl s

theorem tickActions (s : State) : PeriodFrame s (Machine.tickActions s) :=
  ((((of_act (ActFrame.expireAll s)).trans (of_act (ActFrame.countTalk _))).trans (setZlc ..)).trans
    (of_act (ActFrame.schedulerNotice _))).trans (countHoldover _)

theorem tickEnd (s : State) : PeriodFrame s (Machine.tickEnd s) := by
  unfold Machine.tickEnd
  split
  · exact (setPeriod ..).trans (tickNotice tickActions _)
  · exact refl s

theorem talkTimeouts (hs : List Nat) (s : State) : PeriodFrame s (Machine.talkTimeouts hs s) := by
  unfold Machine.talkTimeouts
  split
  · exact refl s
  · exact tickNotice (fun s => of_act (ActFrame.endAll (fun _ _ => ActFrame.endLive ..) _ s)) s

theorem enterHoldover (s : State) : PeriodFrame s (Machine.enterHoldover s) := by
  have status : PeriodFrame s (s.setStc { s.stc with status := .holdover }) :=
    ⟨.of_stc s fun h => ⟨h.tick, h.phase, h.slew, h.count, h.window, h.limit, nofun⟩, rfl, rfl⟩
  exact status.trans (of_act (ActFrame.pushEvent ..))

theorem holdoverEntry (s : State) : PeriodFrame s (Machine.holdoverEntry s) := by
  unfold Machine.holdoverEntry
  split
  · exact onTick enterHoldover s
  · exact refl s

theorem clockEvents (s : State) : PeriodFrame s (Machine.clockEvents s) :=
  ((tickEnd s).trans (talkTimeouts _ _)).trans (holdoverEntry _)

/-- Everything between the taking of a cell and the advance of the clock (log 1). -/
theorem periodEvents (s : State) : PeriodFrame s (Machine.lineTests (Machine.clockEvents (Machine.engineEvents
    (Machine.heldWakes (Machine.windowEnds (Machine.linkEvents s)))))) :=
  (((((linkEvents s).trans (windowEnds _)).trans (heldWakes _)).trans (engineEvents _)).trans (clockEvents _)).trans
    (lineTests _)

end PeriodFrame

end Sys2Proof.Machine
end

section
/-! The commands, and every row, keep the bounds. -/

namespace Sys2Proof.Machine

namespace KeepsBounds

theorem foldl {α : Type} {f : State → α → State} (hf : ∀ s a, KeepsBounds s (f s a)) (l : List α) (s : State) :
    KeepsBounds s (l.foldl f s) :=
  foldl_keeps (KeepsBounds s) f (fun t a h => h.trans (hf t a)) l s (refl s)

/-- A refused command changes nothing. -/
theorem refuse (st : Status) (s : State) : KeepsBounds s (Machine.refuse st s).after := refl s

/-! Lanes, mixer and tracker (R10, R31, R34, R47). -/

theorem laneSet (lane role zone : Byte) (s : State) : KeepsBounds s (Machine.laneSet lane role zone s).after := by
  unfold Machine.laneSet
  simp only
  split
  · exact refl s
  · split
    · exact refl s
    · refine trans (t := s.setItp _) (of_itp s ?_ ?_ ?_ ?_) (of_same rfl rfl rfl rfl) <;> exact id

theorem routeSet (zone route lane : Byte) (coeff : Half) (s : State) :
    KeepsBounds s (Machine.routeSet zone route lane coeff s).after := by
  unfold Machine.routeSet
  simp only
  split <;> exact of_same rfl rfl rfl rfl

theorem zoneMixSet (zone : Byte) (trim duckLevel rampStep : Half) (s : State) :
    KeepsBounds s (Machine.zoneMixSet zone trim duckLevel rampStep s).after := by
  unfold Machine.zoneMixSet
  simp only
  split <;> exact of_same rfl rfl rfl rfl

theorem ambientSet (zone flags : Byte) (threshold : Word) (slope ambMax stepMax hold : Half) (s : State) :
    KeepsBounds s (Machine.ambientSet zone flags threshold slope ambMax stepMax hold s).after := by
  unfold Machine.ambientSet
  simp only
  split
  · exact refl s
  · exact (PeriodFrame.windowEnd _ s).toKeepsBounds.trans (of_same rfl rfl rfl rfl)

/-! Zone lines (R60 to R63). -/

theorem modLine (z : Nat) (f : ZoneLine → ZoneLine) (s : State) : KeepsBounds s (Machine.modLine z f s) :=
  of_same rfl rfl rfl rfl

theorem leaveStandby (z : Nat) (old : LineState) (s : State) : KeepsBounds s (Machine.leaveStandby z old s) := by
  unfold Machine.leaveStandby
  split <;> exact of_same rfl rfl rfl rfl

theorem raiseZoneState (z : Nat) (old new : LineState) (reason : Nat) (fault : Byte) (s : State) :
    KeepsBounds s (Machine.raiseZoneState z old new reason fault s) := of_act (ActFrame.pushEvent ..)

theorem applyEnable (z : Nat) (enable : Bool) (s : State) : KeepsBounds s (Machine.applyEnable z enable s) := by
  unfold Machine.applyEnable
  simp only
  split
  · refine trans (trans ?_ (of_act ((ActFrame.needPass _).trans (ActFrame.settle _)))) (raiseZoneState ..)
    exact of_same rfl rfl rfl rfl
  case h_2 | h_3 | h_4 | h_5 | h_6 =>
    exact (((modLine ..).trans (leaveStandby ..)).trans (of_act (ActFrame.zoneLost ..))).trans (raiseZoneState ..)
  all_goals exact refl s

theorem zoneSet (zone flags : Byte) (preroll hang : Half) (s : State) :
    KeepsBounds s (Machine.zoneSet zone flags preroll hang s).after := by
  unfold Machine.zoneSet
  simp only
  split
  · exact refl s
  · split
    · exact refl s
    · exact (modLine ..).trans (applyEnable ..)

theorem faultZone (z : Nat) (code : Byte) (s : State) : KeepsBounds s (Machine.faultZone z code s) :=
  (((modLine ..).trans (leaveStandby ..)).trans (of_act (ActFrame.zoneLost ..))).trans (raiseZoneState ..)

theorem zoneFault (zone faultCode : Byte) (s : State) : KeepsBounds s (Machine.zoneFault zone faultCode s).after := by
  unfold Machine.zoneFault
  simp only
  split
  · exact refl s
  · split
    · exact refl s
    · split
      · exact refl s
      · exact faultZone ..

theorem clearZone (z : Nat) (s : State) : KeepsBounds s (Machine.clearZone z s) := by
  refine trans (trans ?_ (of_act ((ActFrame.needPass _).trans (ActFrame.settle _)))) (raiseZoneState ..)
  exact of_same rfl rfl rfl rfl

theorem zoneClear (zone : Byte) (s : State) : KeepsBounds s (Machine.zoneClear zone s).after := by
  unfold Machine.zoneClear
  simp only
  split
  · exact refl s
  · split
    · exact refl s
    · exact clearZone ..

/-! Requests (R71, R91). -/

theorem announce (a : AnnounceFields) (tag : Byte) (s : State) : KeepsBounds s (Machine.announce a tag s).after := by
  unfold Machine.announce
  simp only
  split
  · exact refl s
  · split
    · exact refl s
    · next r _ =>
      split
      · exact refl s
      · split
        · exact refl s
        · next k _ =>
          split
          · exact refl s
          · next hq =>
            have admitted : ActFrame s (admitRecord k r s) := ActFrame.admitRecord (by omega)
            have tested := (admitted.trans (ActFrame.pass _)).trans (ActFrame.prerollTests _)
            dsimp only
            exact of_act (tested.trans (ActFrame.settle _))

theorem release (handle mode : Byte) (s : State) : KeepsBounds s (Machine.release handle mode s).after := by
  unfold Machine.release
  simp only
  split
  · exact refl s
  · split
    · exact refl s
    · split
      · exact refl s
      · exact of_act ((ActFrame.releaseRequest ..).trans (ActFrame.settle _))

/-! Clip memory, phrases and templates (R118 to R122, R125). -/

theorem clipWrite (addr : Word) (samples : List ClipSample) (s : State) :
    KeepsBounds s (Machine.clipWrite addr samples s).after := by
  unfold Machine.clipWrite
  simp only
  split
  · exact refl s
  · split
    · exact refl s
    · exact of_cmc s (writeClips_wf _ _ _)

theorem clipRead (addr : Word) (s : State) : KeepsBounds s (Machine.clipRead addr s).after := by
  unfold Machine.clipRead
  simp only
  split <;> exact refl s

theorem phraseSet (phrase : Half) (present : Byte) (start length : Word) (s : State) :
    KeepsBounds s (Machine.phraseSet phrase present start length s).after := by
  unfold Machine.phraseSet
  simp only
  split <;> exact of_same rfl rfl rfl rfl

theorem templateSet (template wordingCount wordingIndex itemCount firstItem : Byte) (items : List ItemCell) (s : State) :
    KeepsBounds s (Machine.templateSet template wordingCount wordingIndex itemCount firstItem items s).after := by
  unfold Machine.templateSet
  simp only
  repeat' split
  all_goals exact of_same rfl rfl rfl rfl

/-! The Station Clock (R141 to R146). -/

theorem raiseLocked (old : Stc) (s : State) : KeepsBounds s (Machine.raiseLocked old s) := by
  unfold Machine.raiseLocked
  split
  · exact refl s
  · exact of_act (ActFrame.pushEvent ..)

theorem stepNotice (s : State) : KeepsBounds s (Machine.stepNotice s) := by
  unfold Machine.stepNotice
  split
  · exact of_act ((ActFrame.schedulerNotice s).trans (ActFrame.expireAll _))
  · exact of_act ((ActFrame.expireAll s).trans (ActFrame.schedulerNotice _))

/-- A step puts the phase into a tick of 480 frame periods and leaves no slew (R142, R144). -/
theorem stepState (reference : Time) (s : State) : KeepsBounds s (Machine.stepState reference s) := by
  refine trans (t := s.setStc (lockClock (stepClock (timeOffset reference s) s.stc))) (of_stc s fun h => ?_)
    (of_same rfl rfl rfl rfl)
  refine ⟨.inr (.inl rfl), ?_, by simp [lockClock, stepClock], Nat.zero_le _, h.window, h.limit, nofun⟩
  simp only [lockClock, stepClock]
  omega

theorem applyStep (reference : Time) (reason : Nat) (s : State) : KeepsBounds s (Machine.applyStep reference reason s) :=
  ((((stepState reference s).trans (of_act (ActFrame.pushEvent ..))).trans (raiseLocked ..)).trans (stepNotice _)).trans
    (of_same rfl rfl rfl rfl)

/-- A slew takes up an offset that lies within the slew window (R141, R143). -/
theorem applySlew (reference : Time) (s : State) (h : (timeOffset reference s).natAbs ≤ s.stc.slewWindow) :
    KeepsBounds s (Machine.applySlew reference s) :=
  trans (t := s.setStc (lockClock { s.stc with slew := timeOffset reference s }))
    (of_stc s fun k => ⟨k.tick, k.phase, h.trans k.window, Nat.zero_le _, k.window, k.limit, nofun⟩) (raiseLocked ..)

/-- Without a reason to step, the offset lies within the slew window (R141). -/
theorem offset_le_of_no_stepReason {reference : Time} {force : Bool} {s : State}
    (h : stepReason reference force s = none) : (timeOffset reference s).natAbs ≤ s.stc.slewWindow := by
  unfold stepReason at h
  split at h
  · cases h
  · split at h
    · cases h
    · split at h
      · cases h
      · omega

theorem timeCommand (reference : Time) (flags : Byte) (s : State) :
    KeepsBounds s (Machine.timeCommand reference flags s).after := by
  unfold Machine.timeCommand
  simp only
  split
  · exact refl s
  · split
    · exact applyStep ..
    · next h => exact applySlew _ _ (offset_le_of_no_stepReason h)

theorem clockSet (window : Word) (limit : Half) (s : State) : KeepsBounds s (Machine.clockSet window limit s).after := by
  unfold Machine.clockSet
  simp only
  split
  · exact refl s
  · next hok =>
    have hlimit : 1 ≤ limit.toNat := by
      have : limit ≠ 0 := fun e => hok (.inr e)
      bv_omega
    have written : KeepsBounds s (s.setStc { s.stc with slewWindow := window.toNat, holdoverLimit := limit.toNat }) :=
      of_stc s fun h => ⟨h.tick, h.phase, h.slew, h.count, by show window.toNat ≤ _; omega,
        ⟨hlimit, by have := limit.isLt; show limit.toNat ≤ _; omega⟩, h.unset⟩
    split
    · exact written.trans (PeriodFrame.enterHoldover _).toKeepsBounds
    · exact written

/-! The tables of the scheduler, and calls (R149 to R169). -/

theorem platformSet (platform : Byte) (a b : ZoneSet) (s : State) :
    KeepsBounds s (Machine.platformSet platform a b s).after := by
  unfold Machine.platformSet
  simp only
  split <;> exact of_same rfl rfl rfl rfl

theorem planSet (plan triggerCount : Byte) (closeMargin threshold : Half) (firstTrigger : Byte)
    (triggers : List TriggerCell) (s : State) :
    KeepsBounds s (Machine.planSet plan triggerCount closeMargin threshold firstTrigger triggers s).after := by
  unfold Machine.planSet
  simp only
  repeat' split
  all_goals exact of_same rfl rfl rfl rfl

theorem periodicSet (p : PeriodicFields) (s : State) : KeepsBounds s (Machine.periodicSet p s).after := by
  unfold Machine.periodicSet
  simp only
  repeat' split
  all_goals exact of_same rfl rfl rfl rfl

theorem setCall (k : Nat) (c : Call) (s : State) : KeepsBounds s (Machine.setCall k c s) := of_same rfl rfl rfl rfl

theorem placeTriggers (slot : Nat) (ts : List CallTrigger) (s : State) :
    KeepsBounds s (Machine.placeTriggers slot ts s) := by
  refine foldl (fun s p => ?_) _ s
  split
  · exact of_act (ActFrame.duePlace ..)
  · exact refl s

theorem callLoad (f : CallFields) (s : State) : KeepsBounds s (Machine.callLoad f s).after := by
  unfold Machine.callLoad
  split
  · exact refl s
  · split
    · exact refl s
    · simp only
      split
      · exact refl s
      · exact ((setCall ..).trans (placeTriggers ..)).trans (of_same rfl rfl rfl rfl)

theorem amendTrigger (slot : Nat) (p : State × Withdrawn) (i : Nat) :
    KeepsBounds p.1 (Machine.amendTrigger slot p i).1 := by
  have replaced : KeepsBounds p.1 (Machine.replaceTrigger slot i p.1) := by
    unfold Machine.replaceTrigger
    simp only
    split <;> exact of_same rfl rfl rfl rfl
  unfold Machine.amendTrigger
  simp only
  split
  · split
    · exact replaced
    · exact refl _
  · split
    · exact of_act ((ActFrame.withdraw ..).trans (ActFrame.settle _))
    · exact refl _
  · exact refl _

/-- A fold over states with a tally keeps what each of its steps keeps. -/
theorem foldl_fst {α β : Type} {f : State × β → α → State × β} (hf : ∀ p a, KeepsBounds p.1 (f p a).1) (l : List α)
    (p : State × β) : KeepsBounds p.1 (l.foldl f p).1 :=
  foldl_keeps (fun q => KeepsBounds p.1 q.1) f (fun q a h => h.trans (hf q a)) l p (refl p.1)

theorem amendTriggers (slot : Nat) (s : State) : KeepsBounds s (Machine.amendTriggers slot s).1 := by
  have all := foldl_fst (amendTrigger slot) (List.range (tget s.csc.calls slot).triggers.length) (s, ⟨0, []⟩)
  unfold Machine.amendTriggers
  simp only
  split
  · exact all.trans (of_act ((ActFrame.walk _).trans (ActFrame.settle _)))
  · exact all

theorem amendSpecial (slot : Nat) (role : TriggerRole) (fires : Bool) (s : State) :
    KeepsBounds s (Machine.amendSpecial slot role fires s).1 := by
  unfold Machine.amendSpecial
  split
  · exact of_act (ActFrame.fireSpecial ..)
  · exact refl s

theorem noteDelay (slot : Nat) (q : Bool) (o : SpecialOutcome) (d : Int) (s : State) :
    KeepsBounds s (Machine.noteDelay slot q o d s) := by
  unfold Machine.noteDelay
  split
  · exact setCall ..
  · exact refl s

theorem callAmend (slot flags : Byte) (delay : Word) (platform : Byte) (s : State) :
    KeepsBounds s (Machine.callAmend slot flags delay platform s).after := by
  unfold Machine.callAmend
  simp only
  split
  · exact refl s
  · split
    · exact refl s
    · refine trans (trans (trans (trans ?_ (amendTriggers ..)) (amendSpecial ..)) (amendSpecial ..)) (noteDelay ..)
      exact of_same rfl rfl rfl rfl

theorem cancelTrigger (slot : Nat) (p : State × Nat) (i : Nat) : KeepsBounds p.1 (Machine.cancelTrigger slot p i).1 := by
  unfold Machine.cancelTrigger
  simp only
  split
  · split
    · exact of_act ((ActFrame.cancelRequest ..).trans (ActFrame.settle _))
    · exact refl _
  · exact refl _

theorem cancelSpecial (slot : Nat) (old : CallState) (s : State) : KeepsBounds s (Machine.cancelSpecial slot old s).1 := by
  unfold Machine.cancelSpecial
  split
  · exact of_act (ActFrame.fireSpecial ..)
  · exact of_act (ActFrame.supersede ..)
  · exact refl s

theorem callCancel (slot : Byte) (s : State) : KeepsBounds s (Machine.callCancel slot s).after := by
  unfold Machine.callCancel
  simp only
  split
  · exact refl s
  · exact trans (trans (trans (trans (of_act (ActFrame.supersede ..)) (foldl_fst (cancelTrigger slot.toNat) _ (_, 0)))
      (cancelSpecial ..)) (setCall ..)) (of_act (ActFrame.raiseCallState ..))

theorem callClear (slot : Byte) (s : State) : KeepsBounds s (Machine.callClear slot s).after := by
  unfold Machine.callClear
  simp only
  split <;> exact of_same rfl rfl rfl rfl

/-! Reporting (R179 to R184). -/

theorem queryAnswer {after s : State} (h : KeepsBounds s after) (kind : Nat) (q : QueryFields) (parts : Nat)
    (contents : List Field) : KeepsBounds s (Machine.queryAnswer kind q parts contents after s).after := by
  unfold Machine.queryAnswer
  split
  · exact refl s
  · exact h

theorem queryStatus (q : QueryFields) (s : State) : KeepsBounds s (Machine.queryStatus q s).after := by
  unfold Machine.queryStatus
  split
  · exact refl s
  · split
    · refine queryAnswer ?_ ..
      exact of_shorter (Nat.le_refl _) (Nat.le_refl _) rfl rfl rfl rfl
    · exact queryAnswer (refl s) ..

theorem queryZone (q : QueryFields) (s : State) : KeepsBounds s (Machine.queryZone q s).after := by
  unfold Machine.queryZone
  split
  · exact refl s
  · exact queryAnswer (refl s) ..

theorem queryRequest (q : QueryFields) (s : State) : KeepsBounds s (Machine.queryRequest q s).after := by
  unfold Machine.queryRequest
  simp only
  split
  · exact refl s
  · split
    · exact refl s
    · exact queryAnswer (refl s) ..

theorem queryEngine (q : QueryFields) (s : State) : KeepsBounds s (Machine.queryEngine q s).after := by
  unfold Machine.queryEngine
  split
  · exact refl s
  · exact queryAnswer (refl s) ..

theorem queryCall (q : QueryFields) (s : State) : KeepsBounds s (Machine.queryCall q s).after := by
  unfold Machine.queryCall
  simp only
  split
  · exact refl s
  · split
    · exact refl s
    · exact queryAnswer (refl s) ..

theorem clearCounters (s : State) : KeepsBounds s (Machine.clearCounters s) :=
  ⟨id, fun h => ⟨Nat.zero_le _, Nat.zero_le _, Nat.zero_le _, h.badRun, h.goodRun⟩, id, id⟩

theorem queryCounters (q : QueryFields) (s : State) : KeepsBounds s (Machine.queryCounters q s).after := by
  unfold Machine.queryCounters
  split
  · exact refl s
  · refine queryAnswer ?_ ..
    split
    · exact clearCounters s
    · exact refl s

theorem queryPhrase (q : QueryFields) (s : State) : KeepsBounds s (Machine.queryPhrase q s).after := by
  unfold Machine.queryPhrase
  split
  · exact refl s
  · split
    · exact refl s
    · exact queryAnswer (refl s) ..

theorem unitReset (s : State) : KeepsBounds s (Machine.unitReset s).after := by
  unfold Machine.unitReset
  simp only
  refine trans ?_ (of_act (ActFrame.pushEvent ..))
  exact of_shorter (Nat.zero_le _) (Nat.zero_le _) rfl rfl rfl rfl

theorem unknownCommand (h : Header) (code : Byte) (s : State) : KeepsBounds s (Machine.unknownCommand h code s) := by
  unfold Machine.unknownCommand
  split
  · exact refl s
  · exact takeCommand (refuse .noent) ..

/-! Cells and the frame period (R2, R15). -/

/-- The command of a cell keeps the laws. -/
theorem cellCommand {i : Instr} {s t : State} (h : Machine.cellCommand i s = .next t) : KeepsBounds s t := by
  cases i <;> cases h
  case laneSet => exact takeCommand (laneSet _ _ _) ..
  case routeSet => exact takeCommand (routeSet _ _ _ _) ..
  case zoneMixSet => exact takeCommand (zoneMixSet _ _ _ _) ..
  case ambientSet => exact takeCommand (ambientSet _ _ _ _ _ _ _) ..
  case zoneSet => exact takeCommand (zoneSet _ _ _ _) ..
  case zoneFault => exact takeCommand (zoneFault _ _) ..
  case zoneClear => exact takeCommand (zoneClear _) ..
  case announce => exact takeCommand (announce _ _) ..
  case release => exact takeCommand (release _ _) ..
  case clipWrite => exact takeCommand (clipWrite _ _) ..
  case clipRead => exact takeCommand (clipRead _) ..
  case phraseSet => exact takeCommand (phraseSet _ _ _ _) ..
  case templateSet => exact takeCommand (templateSet _ _ _ _ _ _) ..
  case time => exact takeCommand (timeCommand _ _) ..
  case clockSet => exact takeCommand (clockSet _ _) ..
  case platformSet => exact takeCommand (platformSet _ _ _) ..
  case planSet => exact takeCommand (planSet _ _ _ _ _ _) ..
  case callLoad => exact takeCommand (callLoad _) ..
  case callAmend => exact takeCommand (callAmend _ _ _ _) ..
  case callCancel => exact takeCommand (callCancel _) ..
  case callClear => exact takeCommand (callClear _) ..
  case periodicSet => exact takeCommand (periodicSet _) ..
  case queryStatus => exact takeCommand (queryStatus _) ..
  case queryZone => exact takeCommand (queryZone _) ..
  case queryRequest => exact takeCommand (queryRequest _) ..
  case queryEngine => exact takeCommand (queryEngine _) ..
  case queryCall => exact takeCommand (queryCall _) ..
  case queryCounters => exact takeCommand (queryCounters _) ..
  case queryPhrase => exact takeCommand (queryPhrase _) ..
  case identify => exact takeCommand (fun s => refl s) ..
  case unitReset => exact takeCommand unitReset ..
  case unknownCommand => exact unknownCommand ..
  all_goals exact refl s

theorem cellEffect (m : CellMeaning) (s : State) : KeepsBounds s (Machine.cellEffect m s) := by
  unfold Machine.cellEffect
  split
  · exact takeCommand (refuse .badarg) ..
  · split
    · next h => exact cellCommand h
    · exact refl s
    · exact refl s

theorem takeCell (s : State) : KeepsBounds s (Machine.takeCell s) := by
  unfold Machine.takeCell
  split
  · exact refl s
  · exact (cellEffect ..).trans (of_ch _ (Nat.le_refl _) (Nat.le_refl _) id)

/-- The clock's advance keeps its ranges: the tick that begins has one of the three lengths, and the slew remainder moves toward 0 (R136, R137). -/
theorem advanceClock_inRange {c : Stc} (h : ClockInRange c) : ClockInRange (advanceClock c) := by
  unfold advanceClock
  split
  · next hlt => exact ⟨h.tick, hlt, h.slew, h.count, h.window, h.limit, h.unset⟩
  · have hslew := h.slew
    unfold tickLengthFor
    dsimp only
    split
    · exact ⟨.inl rfl, by simp, by simp only; omega, h.count, h.window, h.limit, h.unset⟩
    · split
      · exact ⟨.inr (.inr rfl), by simp, by simp only; omega, h.count, h.window, h.limit, h.unset⟩
      · exact ⟨.inr (.inl rfl), by simp, by simp, h.count, h.window, h.limit, h.unset⟩

theorem advancePeriod (s : State) : KeepsBounds s (Machine.advancePeriod s) :=
  (of_stc s advanceClock_inRange).trans (of_same rfl rfl rfl rfl)

theorem framePeriod (part : PeriodPart) (s : State) : KeepsBounds s (Machine.framePeriod part s) := by
  cases part with
  | start => exact startPeriod s
  | whole =>
    exact (((startPeriod s).trans (takeCell _)).trans (PeriodFrame.periodEvents _).toKeepsBounds).trans (advancePeriod _)

/-! The rows that are no cells, and the resets (R185). -/

theorem releaseHoldEnd (z : Nat) (s : State) : KeepsBounds s (Machine.releaseHoldEnd z s) := by
  unfold Machine.releaseHoldEnd
  simp only
  split <;> exact of_same rfl rfl rfl rfl

theorem holdWake (z : Nat) (s : State) : KeepsBounds s (Machine.holdWake z s) := by
  unfold Machine.holdWake
  split <;> exact of_same rfl rfl rfl rfl

theorem holdHang (z : Nat) (s : State) : KeepsBounds s (Machine.holdHang z s) := by
  unfold Machine.holdHang
  split <;> exact of_same rfl rfl rfl rfl

theorem talkTimeout (h : Nat) (s : State) : KeepsBounds s (Machine.talkTimeout h s) := by
  unfold Machine.talkTimeout
  split
  · exact (PeriodFrame.talkTimeouts ..).toKeepsBounds
  · exact refl s

/-- A state as a reset leaves it meets the laws of the queues, the counters and the clock. -/
theorem of_reset {s t : State} {straps : BitVec 4} (hch : t.ch = { State.reset.ch with unitAddr := straps })
    (hitp : t.itp = State.reset.itp) (hstc : t.stc = State.reset.stc)
    (hmem : memWf s.cmc.memory = true → memWf t.cmc.memory = true) : KeepsBounds s t where
  queues _ := by rw [CellQueuesBounded, hch]; exact ⟨Nat.zero_le _, Nat.zero_le _⟩
  counters _ := by
    constructor <;> simp only [hitp, hch] <;> exact Nat.zero_le _
  memory := hmem
  clock _ := hstc ▸ ⟨.inr (.inl rfl), by decide, by decide, by decide, by decide, by decide, fun _ => rfl⟩

/-- Every row keeps the laws of the stores and of the clock. -/
theorem exec {c : Instr} {s t : State} (h : Machine.exec c s = .next t) : KeepsBounds s t := by
  have command : Machine.cellCommand c s = .next t → KeepsBounds s t := cellCommand
  cases c
  case powerOn => cases h; exact of_reset rfl rfl rfl fun _ => rfl
  case pinReset => cases h; exact of_reset rfl rfl rfl id
  case framePeriod => cases h; exact framePeriod ..
  case ingressGoodFrame => cases h; exact (chooseCell s).trans (ingressFrame ..)
  case ingressBadFrame => cases h; exact (chooseCell s).trans (ingressFrame ..)
  case ingressMissingFrame => cases h; exact (chooseCell s).trans (missingFrame _)
  case linkLost => cases h; exact (startPeriod s).trans (PeriodFrame.linkLost _).toKeepsBounds
  case linkRecovered => cases h; exact (startPeriod s).trans (PeriodFrame.linkRecovered _).toKeepsBounds
  case egressCellPeriod => cases h; exact chooseCell s
  case windowEnd => cases h; exact (startPeriod s).trans (PeriodFrame.windowEnd ..).toKeepsBounds
  case releaseHoldEnd => cases h; exact releaseHoldEnd ..
  case wakeEnd => cases h; exact (startPeriod s).trans (holdWake ..)
  case hangEnd => cases h; exact (startPeriod s).trans (holdHang ..)
  case tickEnd => cases h; exact (startPeriod s).trans (PeriodFrame.tickEnd _).toKeepsBounds
  case talkTimeout => cases h; exact (startPeriod s).trans (talkTimeout ..)
  case holdoverEntry => cases h; exact (startPeriod s).trans (PeriodFrame.holdoverEntry _).toKeepsBounds
  case prerollExit => cases h; exact (startPeriod s).trans (of_act ((ActFrame.leavePreroll ..).trans (ActFrame.settle _)))
  case fragmentBoundary => cases h; exact (startPeriod s).trans (of_act ((ActFrame.boundary ..).trans (ActFrame.settle _)))
  case fadeEnd => cases h; exact (startPeriod s).trans (of_act ((ActFrame.endFade ..).trans (ActFrame.settle _)))
  all_goals exact command h

/-- Every step keeps the laws of the stores and of the clock. -/
theorem step {s t : State} (h : Machine.step s = .next t) : KeepsBounds s t := by
  unfold Machine.step at h
  split at h
  · cases h
    exact refl s
  · next rest _ => exact (of_same (s := s) (t := s.setPending rest) rfl rfl rfl rfl).trans (exec h)

end KeepsBounds

/-- Settles O6: every row is a sequence of operations that each carry the four laws on. -/
theorem everyStepKeepsTheStoresAndTheClockBounded : Obligations.EveryStepKeepsTheStoresAndTheClockBounded :=
  ⟨fun _ _ hs h => (KeepsBounds.step h).queues hs, fun _ _ hs h => (KeepsBounds.step h).counters hs,
    fun _ _ hs h => (KeepsBounds.step h).memory hs, fun _ _ hs h => (KeepsBounds.step h).clock hs⟩

end Sys2Proof.Machine
end

section
/-! The trunk: the slot arbiter's choice, the cell assembly, the classes of ingress frames, and delivery (R1 to R9, R14 to R16). -/

namespace Sys2Proof.Machine

/-! ### The slot arbiter's choice (R14) -/

@[simp] theorem exec_egressCellPeriod (s : State) : exec .egressCellPeriod s = .next (chooseCell s) := rfl

theorem chooseCell_reply {s : State} {r : Reply} {rest : List Reply} (hslot : s.etp.slot = 0)
    (hsend : s.etp.sending = none) (hr : s.ch.replies = r :: rest) :
    chooseCell s =
      (s.setEtp { s.etp with sending := some (replyWords s.ch.unitAddr r) }).setCh { s.ch with replies := rest } := by
  simp [chooseCell, hslot, hsend, hr]

theorem chooseCell_event {s : State} {e : Event} {rest : List Event} (hslot : s.etp.slot = 0)
    (hsend : s.etp.sending = none) (hr : s.ch.replies = []) (he : s.ch.events = e :: rest) :
    chooseCell s =
      (s.setEtp { s.etp with sending := some (eventWords s.ch.unitAddr e) }).setCh { s.ch with events := rest } := by
  simp [chooseCell, hslot, hsend, hr, he]

/-- An idle cell is the unit address and an all-zero rest (log 27). -/
theorem idleWords_eq : ∀ addr : BitVec 4, idleWords addr = (addr ++ (0 : BitVec 28)) :: List.replicate 11 0 := by
  decide

theorem chooseCell_idle {s : State} (hslot : s.etp.slot = 0) (hsend : s.etp.sending = none) (hr : s.ch.replies = [])
    (he : s.ch.events = []) :
    chooseCell s = s.setEtp { s.etp with sending := some ((s.ch.unitAddr ++ (0 : BitVec 28)) :: List.replicate 11 0) } := by
  simp [chooseCell, hslot, hsend, hr, he, idleWords_eq]

theorem chooseCell_inside {s : State} (h : s.etp.slot ≠ 0 ∨ s.etp.sending ≠ none) : chooseCell s = s := by
  unfold chooseCell
  rw [if_neg]
  rintro ⟨hslot, hsend⟩
  exact h.elim (· hslot) (· hsend)

@[simp] theorem chooseCell_itp (s : State) : (chooseCell s).itp = s.itp := by rw [chooseCell_spec]; rfl

@[simp] theorem chooseCell_stc (s : State) : (chooseCell s).stc = s.stc := by rw [chooseCell_spec]; rfl

@[simp] theorem chooseCell_period (s : State) : (chooseCell s).period = s.period := by rw [chooseCell_spec]; rfl

@[simp] theorem chooseCell_zlc (s : State) : (chooseCell s).zlc = s.zlc := by rw [chooseCell_spec]; rfl

@[simp] theorem chooseCell_zar (s : State) : (chooseCell s).zar = s.zar := by rw [chooseCell_spec]; rfl

@[simp] theorem chooseCell_engines (s : State) : (chooseCell s).engines = s.engines := by rw [chooseCell_spec]; rfl

@[simp] theorem chooseCell_cmc (s : State) : (chooseCell s).cmc = s.cmc := by rw [chooseCell_spec]; rfl

@[simp] theorem chooseCell_tex (s : State) : (chooseCell s).tex = s.tex := by rw [chooseCell_spec]; rfl

@[simp] theorem chooseCell_csc (s : State) : (chooseCell s).csc = s.csc := by rw [chooseCell_spec]; rfl

@[simp] theorem chooseCell_work (s : State) : (chooseCell s).work = s.work := by rw [chooseCell_spec]; rfl

@[simp] theorem chooseCell_free (s : State) : (chooseCell s).free = s.free := by rw [chooseCell_spec]; rfl

@[simp] theorem chooseCell_pending (s : State) : (chooseCell s).pending = s.pending := by rw [chooseCell_spec]; rfl

@[simp] theorem chooseCell_words (s : State) : (chooseCell s).ch.words = s.ch.words := by rw [chooseCell_spec]; rfl

@[simp] theorem chooseCell_discards (s : State) : (chooseCell s).ch.discards = s.ch.discards := by
  rw [chooseCell_spec]; rfl

@[simp] theorem now_chooseCell (s : State) : now (chooseCell s) = now s := by simp [now]

/-- The choice takes an event out of the queue or leaves it. -/
theorem chooseCell_events_length_le (s : State) : (chooseCell s).ch.events.length ≤ s.ch.events.length := by
  unfold chooseCell
  split
  · split
    · exact Nat.le_refl _
    · next he => simp [he]
    · exact Nat.le_refl _
  · exact Nat.le_refl _

/-- Settles O18: the choice is exec of EGRESS_CELL_PERIOD, by its four cases. -/
theorem theSlotServesRepliesBeforeEvents : Obligations.TheSlotServesRepliesBeforeEvents := by
  refine ⟨fun s r rest h1 h2 h3 => ?_, fun s e rest h1 h2 h3 h4 => ?_, fun s h1 h2 h3 h4 => ?_, fun s h => ?_⟩ <;>
    rw [exec_egressCellPeriod]
  · rw [chooseCell_reply h1 h2 h3]
  · rw [chooseCell_event h1 h2 h3 h4]
  · rw [chooseCell_idle h1 h2 h3 h4]
  · rw [chooseCell_inside h]

/-! ### The cell assembly (R15, R16, R140) -/

/-- A partial cell is dropped and counted; without one the assembly stands (R16). -/
theorem discardPartial_spec (s : State) : discardPartial s = s.setCh (if s.ch.words = [] then s.ch
    else { s.ch with words := [], capture := none, discards := min 65535 (s.ch.discards + 1) }) := by
  unfold discardPartial
  split <;> rfl

@[simp] theorem discardPartial_itp (s : State) : (discardPartial s).itp = s.itp := by rw [discardPartial_spec]; rfl

/-- The word of a cell start begins a cell with the T and phase that blocks read; a partial cell is dropped (R15, R16, R140). -/
theorem takeServiceWord_start (w : Word) (s : State) : takeServiceWord true w s = s.setCh { s.ch with
    words := [w], capture := some (now s)
    discards := if s.ch.words = [] then s.ch.discards else min 65535 (s.ch.discards + 1) } := by
  have hnow : now (discardPartial s) = now s := by rw [discardPartial_spec]; rfl
  simp only [takeServiceWord, if_true, hnow]
  rw [discardPartial_spec]
  split <;> rfl

/-- Outside a cell a word without the cell-start flag is dropped (R15). -/
theorem takeServiceWord_outside {s : State} (h : s.ch.words = []) (w : Word) : takeServiceWord false w s = s := by
  simp [takeServiceWord, h]

/-- The twelfth word completes the cell (R15). -/
theorem takeServiceWord_last {s : State} (h : s.ch.words.length = 11) (w : Word) : takeServiceWord false w s =
    s.setCh { s.ch with words := [], complete := some (s.ch.words ++ [w]) } := by
  have hne : s.ch.words ≠ [] := fun e => by simp [e] at h
  simp [takeServiceWord, hne, h]

/-- Any other word is added to the cell (R15). -/
theorem takeServiceWord_more {s : State} (hne : s.ch.words ≠ []) (h : s.ch.words.length ≠ 11) (w : Word) :
    takeServiceWord false w s = s.setCh { s.ch with words := s.ch.words ++ [w] } := by
  simp [takeServiceWord, hne, h]

/-- A service word touches the Cell Handler alone. -/
theorem takeServiceWord_spec (b : Bool) (w : Word) (s : State) :
    takeServiceWord b w s = s.setCh (takeServiceWord b w s).ch := by
  cases b
  · by_cases hw : s.ch.words = []
    · rw [takeServiceWord_outside hw]; rfl
    · by_cases hn : s.ch.words.length = 11
      · rw [takeServiceWord_last hn]; rfl
      · rw [takeServiceWord_more hw hn]; rfl
  · rw [takeServiceWord_start]; rfl

@[simp] theorem takeServiceWord_itp (b : Bool) (w : Word) (s : State) : (takeServiceWord b w s).itp = s.itp := by
  rw [takeServiceWord_spec]; rfl

/-! ### Good frames (R3, R4, R5, R9) -/

/-- The last good samples that a good frame writes (R9). -/
def goodSamples (f : Frame) (s : State) : Vector Sample 40 := tmapIdx s.itp.lastGood fun i _ => goodSample f i

theorem tget_goodSamples (f : Frame) (s : State) (i : Nat) (h : i < 40) : tget (goodSamples f s) i =
    if (f.lanes.getD i 0).getLsbD 7 then 0 else (f.lanes.getD i 0).extractLsb' 8 24 := tget_tmapIdx _ _ i h

theorem goodFrame_sync {f : Frame} {s : State} (h : s.itp.link = .sync) : goodFrame f s =
    takeServiceWord (cellStart f) f.service (s.setItp { s.itp with badRun := 0, lastGood := goodSamples f s }) := by
  simp only [goodFrame, h]
  rfl

theorem goodFrame_down {f : Frame} {s : State} (h : s.itp.link = .down) : goodFrame f s =
    takeServiceWord (cellStart f) f.service (raiseLinkState .down .sync s.itp.badRun
      (s.setItp { s.itp with link := .sync, badRun := 0, lastGood := goodSamples f s })) := by
  simp only [goodFrame, h]
  rfl

theorem goodFrame_lost {f : Frame} {s : State} (h : s.itp.link = .lost) : goodFrame f s =
    if min 16 (s.itp.goodRun + 1) = 16 then takeServiceWord (cellStart f) f.service
      (s.setItp { s.itp with goodRun := 16, expecting := true, lastGood := goodSamples f s })
    else discardPartial
      (s.setItp { s.itp with goodRun := s.itp.goodRun + 1, expecting := true, lastGood := goodSamples f s }) := by
  simp only [goodFrame, h]
  split
  · next e => rw [e]; rfl
  · next e => rw [show min 16 (s.itp.goodRun + 1) = s.itp.goodRun + 1 by omega]; rfl

@[simp] theorem raiseLinkState_itp (old new : LinkState) (n : Nat) (s : State) :
    (raiseLinkState old new n s).itp = s.itp := by rw [raiseLinkState, pushEvent_spec]; rfl

/-- Every good frame writes the last good samples, in every link state (R9). -/
theorem goodFrame_lastGood (f : Frame) (s : State) : (goodFrame f s).itp.lastGood = goodSamples f s := by
  cases h : s.itp.link
  case down => rw [goodFrame_down h]; simp
  case sync => rw [goodFrame_sync h]; simp
  case lost => rw [goodFrame_lost h]; split <;> simp

/-- After a good frame that is taken as one of SYNC, lanes deliver what it wrote (R5, R8). -/
theorem delivered_goodFrame {f : Frame} {s : State} (h : s.itp.link ≠ .lost ∨ s.itp.goodRun = 15) (i : Nat) :
    delivered (goodFrame f s) i = (tget (goodSamples f s) i).toInt := by
  cases hl : s.itp.link
  case down => rw [goodFrame_down hl]; simp [delivered, syncPeriod]
  case sync => rw [goodFrame_sync hl]; simp [delivered, syncPeriod, hl]
  case lost =>
    have hrun : s.itp.goodRun = 15 := h.resolve_left fun ne => ne hl
    rw [goodFrame_lost hl, if_pos (by omega)]
    simp [delivered, syncPeriod, recovering, hl]

theorem exec_ingressGoodFrame {f : Frame} (h : frameGood f = true) (s : State) :
    exec (.ingressGoodFrame f) s = .next (goodFrame f (chooseCell s)) := by
  show Host.Outcome.next (ingressFrame f (chooseCell s)) = _
  simp [ingressFrame, h]

/-! ### Bad and missing frames (R1, R4, R5, R7, R16) -/

theorem exec_ingressBadFrame {f : Frame} (hh : headerFound f = true) (hg : frameGood f = false) (s : State) :
    exec (.ingressBadFrame f) s = .next (badFrame (chooseCell s)) := by
  show Host.Outcome.next (ingressFrame f (chooseCell s)) = _
  simp [ingressFrame, hh, hg]

@[simp] theorem exec_ingressMissingFrame (s : State) :
    exec .ingressMissingFrame s = .next (missingFrame (chooseCell s)) := rfl

theorem exec_ingressBadFrame_headerless {f : Frame} (hh : headerFound f = false) (hg : frameGood f = false) (s : State) :
    exec (.ingressBadFrame f) s = .next (missingFrame (chooseCell s)) := by
  show Host.Outcome.next (ingressFrame f (chooseCell s)) = _
  simp [ingressFrame, hh, hg]

theorem badFrame_down {s : State} (h : s.itp.link = .down) :
    badFrame s = s.setItp { s.itp with crcErrors := min 65535 (s.itp.crcErrors + 1) } := by
  simp only [badFrame, h]
  rfl

theorem badFrame_linked {s : State} (h : s.itp.link = .sync ∨ s.itp.link = .lost) :
    badFrame s = discardPartial (s.setItp { s.itp with
      crcErrors := min 65535 (s.itp.crcErrors + 1)
      badRun := if s.itp.link = .sync then min 48 (s.itp.badRun + 1) else s.itp.badRun
      goodRun := if s.itp.link = .lost then 0 else s.itp.goodRun }) := by
  rcases h with h | h <;> simp [badFrame, h, countUp]

theorem missingFrame_expected {s : State} (h : s.itp.link = .sync ∨ (s.itp.link = .lost ∧ s.itp.expecting = true)) :
    missingFrame s = discardPartial (s.setItp { s.itp with
      missing := min 65535 (s.itp.missing + 1)
      badRun := if s.itp.link = .sync then min 48 (s.itp.badRun + 1) else s.itp.badRun
      goodRun := if s.itp.link = .lost then 0 else s.itp.goodRun
      expecting := if s.itp.link = .lost then false else s.itp.expecting }) := by
  rcases h with h | ⟨h, he⟩
  · simp [missingFrame, h, countUp]
  · simp [missingFrame, h, he, countUp]

/-- Where no frame is expected there is no missing frame (R1). -/
theorem missingFrame_unexpected {s : State} (h : s.itp.link = .down ∨ (s.itp.link = .lost ∧ s.itp.expecting = false)) :
    missingFrame s = s := by
  rcases h with h | ⟨h, he⟩
  · simp [missingFrame, h]
  · simp [missingFrame, h, he]

@[simp] theorem badFrame_lastGood (s : State) : (badFrame s).itp.lastGood = s.itp.lastGood := by
  cases h : s.itp.link
  case down => rw [badFrame_down h]; rfl
  case sync => rw [badFrame_linked (.inl h)]; simp
  case lost => rw [badFrame_linked (.inr h)]; simp

@[simp] theorem missingFrame_lastGood (s : State) : (missingFrame s).itp.lastGood = s.itp.lastGood := by
  by_cases h : s.itp.link = .sync ∨ (s.itp.link = .lost ∧ s.itp.expecting = true)
  · rw [missingFrame_expected h]; simp
  · rw [missingFrame_unexpected]
    cases hl : s.itp.link <;> simp_all

/-- Settles O28: the counts, by link state, on the state after the slot arbiter's choice, which leaves what they read. -/
theorem damagedFramesAreCounted : Obligations.DamagedFramesAreCounted := by
  refine ⟨fun f s hh hg hl => ⟨_, rfl, ?_⟩, fun f s hh hg hl => ⟨_, rfl, ?_⟩, fun s hl => ⟨_, rfl, ?_⟩,
    fun s hl => ⟨_, rfl, ?_⟩⟩
  · rw [exec_ingressBadFrame hh hg, badFrame_down (by simpa using hl), chooseCell_itp]
  · rw [exec_ingressBadFrame hh hg, badFrame_linked (by simpa using hl), discardPartial_spec]
    simp
  · rw [exec_ingressMissingFrame, missingFrame_expected (by simpa using hl), discardPartial_spec]
    simp
  · rw [exec_ingressMissingFrame, missingFrame_unexpected (by simpa using hl)]

/-- Settles O27: good frames write the last good samples; damaged frames and UNIT_RESET leave them, and the resets fill the table with 0. -/
theorem lastGoodSamplesFollowGoodFrames : Obligations.LastGoodSamplesFollowGoodFrames := by
  refine ⟨fun f s hg => ⟨_, exec_ingressGoodFrame hg s, fun i hi => ?_⟩, fun f s hg => ?_,
    fun s => ⟨_, exec_ingressMissingFrame s, by simp⟩, fun straps s => ⟨_, _, rfl, rfl, fun i hi => ?_⟩,
    fun h s => ⟨_, rfl, ?_⟩⟩
  · rw [goodFrame_lastGood, tget_goodSamples f _ i hi]
  · cases hh : headerFound f
    · exact ⟨_, exec_ingressBadFrame_headerless hh hg s, by simp⟩
    · exact ⟨_, exec_ingressBadFrame hh hg s, by simp⟩
  · exact ⟨tget_replicate 0 i hi, tget_replicate 0 i hi⟩
  · refine takeCommand_keeps (fun t => t.itp.lastGood = s.itp.lastGood) (fun r t ht => ?_) (fun _ _ ht => ht) h _ _ s rfl ?_
    · rw [pushReply_spec]; exact ht
    · simp [unitReset, pushEvent_spec, resetBlocks]

/-- Settles O29: the frame's class and the link state decide, and the service word goes by the cases of the assembly. -/
theorem goodFramesMakeSyncAndCells : Obligations.GoodFramesMakeSyncAndCells := by
  refine ⟨fun f s hg hl => ⟨_, _, rfl, exec_ingressGoodFrame hg s, ?_⟩,
    fun f s hg hl hroom hw hc => ⟨_, _, rfl, exec_ingressGoodFrame hg s, ?_⟩,
    fun f s hg hl hw hc hrun => ⟨_, _, rfl, exec_ingressGoodFrame hg s, ?_⟩⟩
  · rw [goodFrame_sync (by simpa using hl)]
    refine ⟨by simp, fun hc hw => ?_, fun hc hw => ?_, fun hc hw => ?_, fun hc hw hn => ?_, fun hc hn => ?_, ?_⟩
    · simp [hc, takeServiceWord_start, hw, now]
    · simp [hc, takeServiceWord_start, hw, now]
    · rw [hc, takeServiceWord_outside (by simpa using hw)]; rfl
    · rw [hc, takeServiceWord_more (by simpa using hw) (by simpa using hn)]; simp
    · rw [hc, takeServiceWord_last (by simpa using hn)]; simp
    · rw [takeServiceWord_spec]; simp
  · have hfree : (chooseCell s).ch.events.length < 32 := (chooseCell_events_length_le s).trans_lt hroom
    rw [goodFrame_down (by simpa using hl), hc, takeServiceWord_outside (by simp [raiseLinkState, pushEvent_spec, hfree, hw])]
    simp [raiseLinkState, pushEvent_spec, hfree, linkCode, f1, f2]
  · rw [goodFrame_lost (by simpa using hl), hc, chooseCell_itp]
    split
    · have hrun15 : s.itp.goodRun = 15 := by omega
      simp [takeServiceWord_start, hrun15, hw, now]
    · have hrun15 : s.itp.goodRun ≠ 15 := by omega
      simp [discardPartial_spec, hrun15, hw]

/-- In SYNC a lane delivers its last good sample in a run of at most 3 bad or missing frames, and 0 after (R8, Table 1.2). -/
theorem delivered_sync {s : State} (h : s.itp.link = .sync) (i : Nat) :
    delivered s i = if s.itp.badRun ≤ 3 then (tget s.itp.lastGood i).toInt else 0 := by
  simp [delivered, syncPeriod, recovering, h]

/-- After one more bad or missing frame of SYNC the last good sample is held in a run of up to 3 (R4, R8). -/
theorem delivered_of_damaged {s t : State} (hl : t.itp.link = .sync) (hb : t.itp.badRun = min 48 (s.itp.badRun + 1))
    (hg : t.itp.lastGood = s.itp.lastGood) (i : Nat) :
    delivered t i = if s.itp.badRun ≤ 2 then (tget s.itp.lastGood i).toInt else 0 := by
  rw [delivered_sync hl, hb, hg]
  congr 1
  simp only [eq_iff_iff]
  omega

theorem delivered_badFrame {s : State} (h : s.itp.link = .sync) (i : Nat) :
    delivered (badFrame s) i = if s.itp.badRun ≤ 2 then (tget s.itp.lastGood i).toInt else 0 := by
  have e := badFrame_linked (.inl h)
  exact delivered_of_damaged (by simp [e, h]) (by simp [e, h]) (by simp) i

theorem delivered_missingFrame {s : State} (h : s.itp.link = .sync) (i : Nat) :
    delivered (missingFrame s) i = if s.itp.badRun ≤ 2 then (tget s.itp.lastGood i).toInt else 0 := by
  have e := missingFrame_expected (.inl h)
  exact delivered_of_damaged (by simp [e, h]) (by simp [e, h]) (by simp) i

/-- Settles O22: delivery by role and link state, and after each class of frame. -/
theorem lanesDeliverTheirSamples : Obligations.LanesDeliverTheirSamples := by
  refine ⟨fun s i h => by simp [sourceValue, h], fun s i h => by simp [sourceValue, h], fun s i h => ?_,
    fun s i h => delivered_sync h i, fun f s i hg hi h => ⟨_, exec_ingressGoodFrame hg s, ?_⟩,
    fun f s i hg hi h => ?_, fun s i hi h => ⟨_, exec_ingressMissingFrame s, ?_⟩⟩
  · rcases h with h | ⟨h, h'⟩
    · simp [delivered, syncPeriod, recovering, h]
    · simp [delivered, syncPeriod, recovering, h, h']
  · rw [delivered_goodFrame (by simpa using h), tget_goodSamples f _ i hi]
    split <;> rfl
  · cases hh : headerFound f
    · exact ⟨_, exec_ingressBadFrame_headerless hh hg s, by rw [delivered_missingFrame (by simpa using h)]; simp⟩
    · exact ⟨_, exec_ingressBadFrame hh hg s, by rw [delivered_badFrame (by simpa using h)]; simp⟩
  · rw [delivered_missingFrame (by simpa using h)]; simp

end Sys2Proof.Machine
end

section
/-! The start of a frame period: the rows that begin with it, the egress frame and its tags (R2, R12 to R14, R19). -/

namespace Sys2Proof.Machine

/-! ### Rows that begin with the start work (log 1) -/

/-- A command row is the taking of a cell with its header and code. -/
theorem exec_command {c : Instr} {h : Header} {code : Byte} (hc : c.command? = some (h, code)) :
    ∃ run, ∀ s, exec c s = .next (takeCommand h code run s) := by
  cases c <;> cases hc <;> exact ⟨_, fun _ => rfl⟩

/-- A row within the period acts on the state after the start work. -/
theorem exec_withinPeriod {c : Instr} (hc : c.withinPeriod = true) :
    ∃ f : State → State, ∀ s, exec c s = .next (f (startPeriod s)) := by
  cases c
  case framePeriod part =>
    cases part
    · exact ⟨id, fun _ => rfl⟩
    · exact ⟨closePeriod, fun _ => rfl⟩
  case linkLost => exact ⟨linkLost, fun _ => rfl⟩
  case linkRecovered => exact ⟨linkRecovered, fun _ => rfl⟩
  case windowEnd z => exact ⟨windowEnd z, fun _ => rfl⟩
  case wakeEnd z => exact ⟨holdWake z, fun _ => rfl⟩
  case hangEnd z => exact ⟨holdHang z, fun _ => rfl⟩
  case tickEnd => exact ⟨tickEnd, fun _ => rfl⟩
  case talkTimeout h => exact ⟨talkTimeout h, fun _ => rfl⟩
  case holdoverEntry => exact ⟨holdoverEntry, fun _ => rfl⟩
  case prerollExit e => exact ⟨fun s => settle (leavePreroll e s), fun _ => rfl⟩
  case fragmentBoundary e => exact ⟨fun s => settle (boundary e s), fun _ => rfl⟩
  case fadeEnd e => exact ⟨fun s => settle (endFade e s), fun _ => rfl⟩
  all_goals cases hc

@[simp] theorem exec_framePeriod_start (s : State) : exec (.framePeriod .start) s = .next (startPeriod s) := rfl

theorem addressed_of {h : Header} {s : State} (ha : h.addr = 15 ∨ h.addr = s.ch.unitAddr) : addressed h s = true := by
  rcases ha with ha | ha <;> simp [addressed, ha]

/-! ### The egress frame (R12, R14, R19) -/

@[simp] theorem chooseCell_slot (s : State) : (chooseCell s).etp.slot = s.etp.slot := by
  unfold chooseCell
  split
  · split <;> rfl
  · rfl

/-- The slot arbiter's choice is nothing that the mixer or an engine reads. -/
theorem engineStep_chooseCell (s : State) (x : Engine) : engineStep (chooseCell s) x = engineStep s x := by
  rw [chooseCell_spec]; rfl

theorem mixZone_chooseCell (s : State) (p : Nat → Int) (z : Nat) : mixZone (chooseCell s) p z = mixZone s p z := by
  rw [chooseCell_spec]; rfl

theorem laneWord_chooseCell (s : State) (x : Int) (z : Nat) : laneWord (chooseCell s) x z = laneWord s x z := by
  rw [chooseCell_spec]; rfl

/-- The playout lanes that the start work mixes are those of the engines' step; a lane past the last is silent (R96). -/
theorem playout_eq (s : State) :
    (fun e => (tget (s.engines.map (engineStep s)) e).output.toInt) = playoutSample s := by
  funext e
  by_cases he : e < 6
  · rw [tget_map _ _ _ he, playoutSample]
  · rw [tget_of_le _ _ (by omega), playoutSample, tget_of_le _ _ (by omega)]
    rfl

/-- The egress frame that the start work builds (R12). -/
theorem beginPeriod_frame (s : State) : (beginPeriod s).etp.frame =
    egressFrame s.etp.slot (chooseCell s).etp.sending (egressLanes s (playoutSample s)) := by
  have hlanes : egressLanes (chooseCell s) (playoutSample s) = egressLanes s (playoutSample s) := by
    simp only [egressLanes, mixZone_chooseCell, laneWord_chooseCell]
  have hengines : s.engines.map (engineStep (chooseCell s)) = s.engines.map (engineStep s) := by
    congr 1
    exact funext (engineStep_chooseCell s)
  simp only [beginPeriod, chooseCell_engines, chooseCell_slot, hengines, playout_eq, hlanes]

section Frame

variable (slot : Nat) (sending : Option (List Word)) {lanes : List Word} (hl : lanes.length = 48)
include hl

theorem egressFrame_length : (egressFrame slot sending lanes).length = 51 := by simp [egressFrame, hl]

theorem egressFrame_lane {z : Nat} (hz : z < 48) : (egressFrame slot sending lanes).getD (z + 1) 0 = lanes.getD z 0 := by
  simp [egressFrame, List.getElem?_append, hl, hz]

theorem egressFrame_service :
    (egressFrame slot sending lanes).getD 49 0 = (sending.getD []).getD slot 0 := by
  simp [egressFrame, hl]

theorem egressFrame_check : (egressFrame slot sending lanes).getD 50 0 =
    checkValue ((egressFrame slot sending lanes).take 50) := by
  have body : (egressFrame slot sending lanes).take 50 =
      (if slot = 0 then 0xC35A3080 else 0xC35A3000) :: lanes ++ [(sending.getD []).getD slot 0] :=
    List.take_left' (by simp [hl])
  rw [body]
  simp [egressFrame, hl]

end Frame

theorem egressFrame_head (slot : Nat) (sending : Option (List Word)) (lanes : List Word) :
    (egressFrame slot sending lanes).getD 0 0 = if slot = 0 then 0xC35A3080 else 0xC35A3000 := rfl

theorem egressLanes_length (s : State) (p : Nat → Int) : (egressLanes s p).length = 48 := by simp [egressLanes]

theorem egressLanes_getD (s : State) (p : Nat → Int) {z : Nat} (hz : z < 48) :
    (egressLanes s p).getD z 0 = laneWord s (mixZone s p z).1 z := by simp [egressLanes, hz]

theorem startPeriod_of_not_started {s : State} (h : s.period.started = false) : startPeriod s = beginPeriod s := by
  simp [startPeriod, h]

/-- The lane word of a zone in the frame that the start work builds. -/
theorem startPeriod_lane {s : State} (h : s.period.started = false) {z : Nat} (hz : z < 48) :
    (startPeriod s).etp.frame.getD (z + 1) 0 = laneWord s (mixZone s (playoutSample s) z).1 z := by
  rw [startPeriod_of_not_started h, beginPeriod_frame, egressFrame_lane _ _ (egressLanes_length ..) hz,
    egressLanes_getD _ _ hz]

/-- The upper 24 bits of a lane word are the sample (Table 1.5). -/
theorem laneWord_sample (s : State) (x : Int) (z : Nat) : (laneWord s x z).extractLsb' 8 24 = BitVec.ofInt 24 x :=
  BitVec.extractLsb'_append_eq_left

/-- Settles O19: a row that begins with the start work finds it done or does it, and the frame is read off `beginPeriod_frame`. -/
theorem theStartOfAFramePeriod : Obligations.TheStartOfAFramePeriod := by
  refine ⟨fun c s u hu hc => ?_, fun s h => by rw [exec_framePeriod_start, startPeriod_of_started h],
    fun s h => ⟨_, _, exec_framePeriod_start s, exec_egressCellPeriod s, ?_⟩⟩
  · cases hu
    show exec c s = exec c (startPeriod s)
    rcases hc with hc | ⟨h, code, hc, ha⟩ | ⟨h, code, rfl, hcode, ha⟩
    · obtain ⟨f, hf⟩ := exec_withinPeriod hc
      rw [hf, hf, startPeriod_startPeriod]
    · obtain ⟨run, hrun⟩ := exec_command hc
      rw [hrun, hrun, takeCommand_startPeriod (addressed_of ha)]
    · show Host.Outcome.next (unknownCommand h code s) = .next (unknownCommand h code (startPeriod s))
      rw [unknownCommand, unknownCommand, hcode, if_neg (by decide), if_neg (by decide),
        takeCommand_startPeriod (addressed_of ha)]
  · have hframe : (startPeriod s).etp.frame =
        egressFrame s.etp.slot (chooseCell s).etp.sending (egressLanes s (playoutSample s)) := by
      rw [startPeriod_of_not_started h, beginPeriod_frame]
    have hlen := egressLanes_length s (playoutSample s)
    refine ⟨by rw [hframe, egressFrame_length _ _ hlen], by rw [hframe, egressFrame_head], fun z hz => ?_,
      by rw [hframe, egressFrame_service _ _ hlen], by rw [hframe, egressFrame_check _ _ hlen], ?_⟩
    · rw [startPeriod_lane h hz, laneWord_sample]
    · simp [startPeriod_of_not_started h, beginPeriod]

/-! ### The tag of a lane word (R13, Table 1.7) -/

theorem wakeLine_iff (l : LineState) : wakeLine l = true ↔ l = .waking ∨ l = .live ∨ l = .hang := by
  cases l <;> decide

/-- The fields of the tag, from the most significant bit down. -/
theorem egressTag_eq (l : LineState) (held : Option AnnClass) (width16 : Bool) : egressTag l held width16 =
    BitVec.ofBool (wakeLine l) ++ BitVec.ofBool held.isSome ++ BitVec.ofNat 2 ((held.map classNum).getD 0) ++
      BitVec.ofBool width16 ++ (0 : BitVec 3) := by
  unfold egressTag
  generalize wakeLine l = wake
  rcases held with _ | _ | _ | _ | _ <;> revert wake width16 <;> decide

theorem egressTag_wake (l : LineState) (held : Option AnnClass) (width16 : Bool) :
    (egressTag l held width16).getLsbD 7 = wakeLine l := by
  rw [egressTag_eq]
  simp only [BitVec.getLsbD_append]
  simp

theorem egressTag_held (l : LineState) (held : Option AnnClass) (width16 : Bool) :
    (egressTag l held width16).getLsbD 6 = held.isSome := by
  rw [egressTag_eq]
  simp only [BitVec.getLsbD_append]
  simp

theorem egressTag_width16 (l : LineState) (held : Option AnnClass) (width16 : Bool) :
    (egressTag l held width16).getLsbD 3 = width16 := by
  rw [egressTag_eq]
  simp only [BitVec.getLsbD_append]
  simp

theorem egressTag_class (l : LineState) (held : Option AnnClass) (width16 : Bool) :
    (egressTag l held width16).extractLsb' 4 2 = BitVec.ofNat 2 ((held.map classNum).getD 0) := by
  rw [egressTag_eq, BitVec.extractLsb'_append_eq_of_le (by decide), BitVec.extractLsb'_append_eq_of_le (by decide)]
  exact BitVec.extractLsb'_append_eq_right

theorem egressTag_rest (l : LineState) (held : Option AnnClass) (width16 : Bool) :
    (egressTag l held width16).extractLsb' 0 3 = 0 := by
  rw [egressTag_eq]
  exact BitVec.extractLsb'_append_eq_right

/-- The low 8 bits of a lane word are the zone's tag (Table 1.5). -/
theorem laneWord_tagBit (s : State) (x : Int) (z : Nat) {i : Nat} (hi : i < 8) : (laneWord s x z).getLsbD i =
    (egressTag (lineOf s z) (heldClass s (claim s z)) (tget s.zlc z).width16).getLsbD i := by
  simp only [laneWord, BitVec.getLsbD_append, hi, if_true]
  rfl

theorem laneWord_tagBits (s : State) (x : Int) (z : Nat) {i n : Nat} (hi : i + n ≤ 8) :
    (laneWord s x z).extractLsb' i n =
      (egressTag (lineOf s z) (heldClass s (claim s z)) (tget s.zlc z).width16).extractLsb' i n :=
  BitVec.extractLsb'_append_eq_of_add_le hi

theorem heldClass_isSome_iff (s : State) (c : Claim) : (heldClass s c).isSome = true ↔ ∃ h, c = .joined h := by
  cases c <;> simp [heldClass]

theorem heldClass_of_not_joined {s : State} {c : Claim} (h : ∀ k, c ≠ .joined k) : heldClass s c = none := by
  cases c
  case joined k => exact absurd rfl (h k)
  all_goals rfl

/-- A zone in WAKING is not mixed (R19). -/
theorem mixZone_waking {s : State} {z : Nat} (h : lineOf s z = .waking) (p : Nat → Int) : mixZone s p z = (0, 0) := by
  have hline : (tget s.zlc z).line = .waking := h
  simp [mixZone, hline, mixedLine]

/-- Settles O20: the lane word that the start work builds ends in the zone's tag. -/
theorem theEgressTagReportsTheZone : Obligations.TheEgressTagReportsTheZone := by
  intro s z hstart hz
  refine ⟨_, exec_framePeriod_start s, ?_⟩
  rintro w rfl
  rw [startPeriod_lane hstart hz]
  simp only [laneWord_tagBit s _ z (show 7 < 8 by decide), laneWord_tagBit s _ z (show 6 < 8 by decide),
    laneWord_tagBit s _ z (show 3 < 8 by decide), laneWord_tagBits s _ z (show 4 + 2 ≤ 8 by decide),
    laneWord_tagBits s _ z (show 0 + 3 ≤ 8 by decide), laneWord_sample, egressTag_wake, egressTag_held, egressTag_width16,
    egressTag_class, egressTag_rest]
  refine ⟨wakeLine_iff _, heldClass_isSome_iff s _, fun h hc => ?_, fun hc => ?_, trivial, trivial, fun hw => ⟨?_, ?_⟩,
    fun h hc => ?_⟩
  · rw [hc]
    show (BitVec.ofNat 2 (classNum (request s h).cls)).toNat = _
    cases (request s h).cls <;> rfl
  · rw [heldClass_of_not_joined hc]; rfl
  · rw [hw]; rfl
  · rw [mixZone_waking hw]; rfl
  · rw [hc]; rfl

end Sys2Proof.Machine
end

section
/-! The three resets (R184, R185, Table 10.3), and the reply of an addressed command. -/

namespace Sys2Proof.Machine

/-! ### The reply of an addressed command (R177) -/

/-- An addressed command leaves what it carries out, and its reply. -/
theorem takeCommand_answered {h : Header} {code : Byte} {run : State → Answer} {s : State} (ha : Addressed h s)
    (hroom : (run s).after.ch.replies.length < 4) :
    takeCommand h code run s = answered h code (run s).status (run s).result s (run s).after := by
  rw [takeCommand_addressed ha.begun ha.single ha.own, pushReply_spec, State.setFree_ch, if_pos hroom]
  rfl

/-! ### Tables as lists -/

theorem toList_eq_map_tget {α : Type} {n : Nat} [Inhabited α] (v : Vector α n) : v.toList = (List.range n).map (tget v) := by
  apply List.ext_getElem
  · simp
  · intro i h _
    have hi : i < n := by simpa using h
    simp [tget, hi]

/-- The number of entries that pass a test, counted by their numbers. -/
theorem length_filter_toList {α : Type} {n : Nat} [Inhabited α] (v : Vector α n) (p : α → Bool) :
    (v.toList.filter p).length = ((List.range n).filter fun i => p (tget v i)).length := by
  rw [toList_eq_map_tget, List.filter_map, List.length_map]
  rfl

/-! ### Power-on and pin reset (R185) -/

/-- What the rules name of a state as a reset leaves it, whatever the clip memory holds. -/
structure ResetDefaults (straps : BitVec 4) (v : State) : Prop where
  ch : v.ch = ⟨straps, [], none, none, [], [], false, 0⟩
  itp : v.itp = State.reset.itp
  etp : v.etp = State.reset.etp
  zmx : v.zmx = State.reset.zmx
  amt : v.amt = State.reset.amt
  zlc : v.zlc = State.reset.zlc
  zar : v.zar = State.reset.zar
  engines : v.engines = State.reset.engines
  tex : v.tex = State.reset.tex
  stc : v.stc = State.reset.stc
  csc : v.csc = State.reset.csc
  phrases : v.cmc.phrases = State.reset.cmc.phrases
  useCounts : v.cmc.useCounts = State.reset.cmc.useCounts
  period : v.period = State.reset.period
  work : v.work = State.reset.work

theorem powerOn_defaults (straps : BitVec 4) (s : State) : ResetDefaults straps (powerOn straps s) := by
  constructor <;> rfl

theorem pinReset_defaults (straps : BitVec 4) (s : State) : ResetDefaults straps (pinReset straps s) := by
  constructor <;> rfl

/-- The default routes of a zone (R30). -/
theorem defaultMixZone_route {r : Nat} (hr : r < 4) : tget defaultMixZone.routes r = ⟨none, 0⟩ := tget_replicate _ r hr

/-! ### UNIT_RESET (R184) -/

/-- What UNIT_RESET reports, in the reply and in its event. -/
def resetItems (s : State) : List Field := [f2 (recordsInUse s), f2 (enginesBusy s), f1 (statusFlags s.ch)]

theorem resetItems_eq (s : State) : resetItems s =
    [f2 ((List.range 96).filter fun k => (request s k).state != .free).length,
      f2 ((List.range 6).filter fun e => (tget s.engines e).state != .idle).length, fBool s.ch.eventLost] := by
  rw [resetItems, recordsInUse, enginesBusy, length_filter_toList, length_filter_toList]
  rfl

/-- The state that UNIT_RESET leaves before its reply: the blocks with their reset effects, and its one event. -/
theorem unitReset_after (s : State) : (unitReset s).after = (resetBlocks s).setCh { s.ch with
    replies := [], eventLost := false, events := [⟨0x0D, 0, 0, s.stc.time, s.stc.phase, resetItems s⟩] } := by
  simp only [unitReset, pushEvent_spec]
  rfl

/-- A zone's line after UNIT_RESET (R67). -/
theorem resetLine_eq (l : ZoneLine) : resetLine l = { l with
    wakeCount := 0, hangCount := 0
    line := if l.line = .waking ∨ l.line = .live ∨ l.line = .hang then LineState.standby else l.line } := by
  cases h : l.line <;> simp [resetLine, h]

theorem exec_unitReset {h : Header} {s : State} (ha : Addressed h s) :
    exec (.unitReset h) s = .next (answered h 0xA3 .done (resetItems s) s (unitReset s).after) := by
  have hroom : (unitReset s).after.ch.replies.length < 4 := by rw [unitReset_after]; simp
  exact congrArg Host.Outcome.next (takeCommand_answered ha hroom)

/-- Settles O17: power-on and pin reset by their defaults, UNIT_RESET by `unitReset_after`, table by table. -/
theorem threeResetsGiveTheirStates : Obligations.ThreeResetsGiveTheirStates := by
  refine ⟨fun straps s => ⟨_, _, rfl, rfl, fun _ => rfl, rfl, rfl, rfl, fun v hv => ?_⟩, fun h s ha => ?_⟩
  · have d : ResetDefaults straps v := by
      rcases hv with rfl | rfl
      · exact powerOn_defaults straps s
      · exact pinReset_defaults straps s
    refine ⟨d.ch, d.itp, d.etp, d.zar, d.tex, d.stc, d.csc, d.phrases, d.useCounts, d.period, d.work, by rw [d.itp]; rfl,
      by rw [d.stc]; exact ⟨rfl, rfl, rfl, rfl⟩, fun i hi => ?_, fun z hz => ?_, fun e he => ?_⟩
    · rw [d.itp]
      exact ⟨tget_replicate _ i hi, tget_replicate _ i hi⟩
    · have hmix : tget v.zmx z = defaultMixZone := by rw [d.zmx]; exact tget_replicate _ z hz
      rw [hmix, d.amt, d.zlc]
      exact ⟨fun r hr => defaultMixZone_route hr, rfl, rfl, rfl, rfl, rfl, tget_replicate _ z hz, tget_replicate _ z hz⟩
    · rw [d.engines]
      exact tget_replicate _ e he
  · refine ⟨(unitReset s).after, resetItems s, exec_unitReset ha, resetItems_eq s, ?_⟩
    rw [unitReset_after]
    refine ⟨rfl, rfl, rfl, rfl, rfl, rfl, rfl, rfl, rfl, fun b hb => tget_replicate _ b hb, rfl,
      fun e he => tget_map _ _ e he, fun z hz => ⟨tget_map _ _ z hz, tget_map _ _ z hz, ?_⟩, rfl, rfl, rfl, rfl,
      fun k hk => tget_map _ _ k hk, fun i hi => tget_map _ _ i hi, rfl, rfl⟩
    exact (tget_map _ _ z hz).trans (resetLine_eq _)

end Sys2Proof.Machine
end

section
/-! LANE_SET, ROUTE_SET and ZONE_MIX_SET (R10, R11, R31, R32, R34). -/

namespace Sys2Proof.Machine

theorem exec_laneSet (h : Header) (lane role zone : Byte) (s : State) :
    exec (.laneSet h lane role zone) s = .next (takeCommand h 0x11 (laneSet lane role zone) s) := rfl

theorem exec_routeSet (h : Header) (zone route lane : Byte) (coeff : Half) (s : State) :
    exec (.routeSet h zone route lane coeff) s = .next (takeCommand h 0x21 (routeSet zone route lane coeff) s) := rfl

theorem exec_zoneMixSet (h : Header) (zone : Byte) (trim duckLevel rampStep : Half) (s : State) :
    exec (.zoneMixSet h zone trim duckLevel rampStep) s =
      .next (takeCommand h 0x22 (zoneMixSet zone trim duckLevel rampStep) s) := rfl

/-- A command that is refused leaves its reply alone (R176). -/
theorem takeCommand_refused {h : Header} {code : Byte} {run : State → Answer} {s : State} {st : Status}
    (ha : Addressed h s) (hr : run s = refuse st s) : takeCommand h code run s = refusedBy h code st s := by
  rw [takeCommand_answered ha (by rw [hr]; exact ha.room), hr]
  rfl

theorem f1_toNat (b : Byte) : f1 b.toNat = .b1 b := by simp [f1]

/-! ### Lane roles (R10, R11) -/

@[simp] theorem roleZone_eq_some_iff (r : LaneRole) (z : Nat) : roleZone r = some z ↔ r = .ambient z := by
  cases r <;> simp [roleZone]

/-- A search of a range for the only number that passes finds it. -/
theorem find?_range_eq_some_iff {n : Nat} {p : Nat → Bool}
    (unique : ∀ i j, i < n → j < n → p i = true → p j = true → i = j) (j : Nat) :
    (List.range n).find? p = some j ↔ j < n ∧ p j = true := by
  constructor
  · intro h
    exact ⟨by simpa using List.mem_of_find?_eq_some h, List.find?_some h⟩
  · rintro ⟨hj, hp⟩
    cases hf : (List.range n).find? p with
    | none => exact absurd hp (by simpa using List.find?_eq_none.mp hf j (by simpa using hj))
    | some i =>
      rw [unique i j (by simpa using List.mem_of_find?_eq_some hf) hj (List.find?_some hf) hp]

/-- The only ambient lane of a zone is its ambient lane. -/
theorem ambientLane_of_unique {s : State} {z i : Nat} (hi : i < 40) (hr : tget s.itp.roles i = .ambient z)
    (unique : ∀ j, j < 40 → tget s.itp.roles j = .ambient z → j = i) : ambientLane s z = some i := by
  refine (find?_range_eq_some_iff (fun a b ha hb pa pb => ?_) i).mpr ⟨hi, by simpa using hr⟩
  rw [unique a ha (by simpa using pa), unique b hb (by simpa using pb)]

theorem role_of_ambientLane {s : State} {z i : Nat} (h : ambientLane s z = some i) : tget s.itp.roles i = .ambient z := by
  simpa using List.find?_some h

/-- The ambient lane of a zone depends on nothing but which lanes name the zone. -/
theorem ambientLane_congr {s t : State} {z : Nat}
    (h : ∀ j, j < 40 → (tget t.itp.roles j = .ambient z ↔ tget s.itp.roles j = .ambient z)) :
    ambientLane t z = ambientLane s z := by
  refine List.find?_congr fun j hj => ?_
  rw [Bool.eq_iff_iff, beq_iff_eq, beq_iff_eq]
  exact h j (by simpa using hj)

theorem byte_eq_iff (b : Byte) (n : Nat) (hn : n < 256) : b = BitVec.ofNat 8 n ↔ b.toNat = n := by
  rw [← BitVec.toNat_inj, BitVec.toNat_ofNat, Nat.mod_eq_of_lt hn]

theorem laneInUse_iff (s : State) (i : Nat) : laneInUse s i = true ↔
    ∃ k, k < 96 ∧ (request s k).state ≠ .free ∧ (request s k).live = true ∧ (request s k).lane = i := by
  simp [laneInUse, toList_eq_map_tget, request, and_assoc]

/-- The role that LANE_SET writes (R10). -/
def writtenRole (role zone : Byte) : LaneRole :=
  if role.toNat = 2 then .ambient zone.toNat else if role.toNat = 1 then .source else .unused

/-- The lane that gives up its zone to the lane written (R11). -/
def displacedLane (s : State) (lane role zone : Byte) : Option Nat :=
  if role.toNat = 2 then
    (List.range 40).find? fun j => j != lane.toNat && tget s.itp.roles j == .ambient zone.toNat
  else none

/-- The zone that the lane written gives up (R11). -/
def releasedZone (s : State) (lane role zone : Byte) : Option Nat :=
  if roleZone (tget s.itp.roles lane.toNat) = roleZone (writtenRole role zone) then none
  else roleZone (tget s.itp.roles lane.toNat)

/-- The zone that the lane written gains (R11). -/
def gainedZone (s : State) (lane role zone : Byte) : Option Nat :=
  if roleZone (tget s.itp.roles lane.toNat) = roleZone (writtenRole role zone) then none
  else roleZone (writtenRole role zone)

/-- The lane role table after LANE_SET (R10, R11). -/
def rolesWritten (s : State) (lane role zone : Byte) : Vector LaneRole 40 :=
  tset ((displacedLane s lane role zone).toList.foldl (fun t j => tset t j LaneRole.unused) s.itp.roles) lane.toNat
    (writtenRole role zone)

/-- What an accepted LANE_SET leaves before its reply. -/
def laneSetAfter (s : State) (lane role zone : Byte) : State :=
  clearEstimators ((gainedZone s lane role zone).toList ++ (releasedZone s lane role zone).toList)
    (s.setItp { s.itp with roles := rolesWritten s lane role zone })

/-- LANE_SET by its checks: BADARG, then STATE, then the write (R10). -/
theorem laneSet_eq (lane role zone : Byte) (s : State) : laneSet lane role zone s =
    if lane.toNat > 39 ∨ role.toNat > 2 ∨ (role.toNat = 2 ∧ zone.toNat > 47) then refuse .badarg s
    else if laneInUse s lane.toNat then refuse .state s
    else ⟨.done, [.b1 lane, .b1 role, f1? (roleZone (writtenRole role zone)), f1? (displacedLane s lane role zone),
      f1? (releasedZone s lane role zone)], laneSetAfter s lane role zone⟩ := by
  have two : role = 2 ↔ role.toNat = 2 := byte_eq_iff role 2 (by decide)
  have one : role = 1 ↔ role.toNat = 1 := byte_eq_iff role 1 (by decide)
  simp only [laneSet, two, one]
  rfl

theorem writtenRole_of_le {role : Byte} (h : role.toNat ≤ 2) (zone : Byte) : writtenRole role zone =
    if role.toNat = 0 then .unused else if role.toNat = 1 then .source else .ambient zone.toNat := by
  have cases : role.toNat = 0 ∨ role.toNat = 1 ∨ role.toNat = 2 := by omega
  rcases cases with e | e | e <;> simp [writtenRole, e]

theorem writtenRole_eq_ambient_iff (role zone : Byte) (z : Nat) :
    writtenRole role zone = .ambient z ↔ role.toNat = 2 ∧ z = zone.toNat := by
  unfold writtenRole
  split
  · next h => simp [h, eq_comm]
  · next h => split <;> simp [h]

/-- The zone of the role written, as the reply carries it: FFh without one (R10). -/
theorem field_writtenRole (role zone : Byte) :
    f1? (roleZone (writtenRole role zone)) = .b1 (if role.toNat = 2 then zone else 0xFF) := by
  unfold writtenRole
  split
  · exact f1_toNat zone
  · split <;> rfl

theorem releasedZone_eq_some_iff (s : State) (lane role zone : Byte) (y : Nat) :
    releasedZone s lane role zone = some y ↔
      tget s.itp.roles lane.toNat = .ambient y ∧ ¬(role.toNat = 2 ∧ y = zone.toNat) := by
  rw [← writtenRole_eq_ambient_iff, ← roleZone_eq_some_iff, ← roleZone_eq_some_iff]
  unfold releasedZone
  split <;> grind

theorem gainedZone_eq_some_iff (s : State) (lane role zone : Byte) (y : Nat) :
    gainedZone s lane role zone = some y ↔
      tget s.itp.roles lane.toNat ≠ .ambient y ∧ role.toNat = 2 ∧ y = zone.toNat := by
  rw [← writtenRole_eq_ambient_iff, Ne, ← roleZone_eq_some_iff, ← roleZone_eq_some_iff]
  unfold gainedZone
  split <;> grind

theorem tget_clearEstimators (zs : List Nat) (t : State) {z : Nat} (hz : z < 48) : tget (clearEstimators zs t).amt z =
    if z ∈ zs then clearedEstimator (tget t.amt z) else tget t.amt z := by
  simp only [clearEstimators, State.setAmt_amt]
  induction zs generalizing t with
  | nil => rfl
  | cons y ys ih =>
    have step := ih (t.setAmt (tmod t.amt y clearedEstimator))
    simp only [State.setAmt_amt] at step
    rw [List.foldl_cons, step, tget_tmod]
    by_cases hy : y = z
    · subst hy
      simp [hz, clearedEstimator]
    · simp [hy, Ne.symm hy]

section Accepted

variable {s : State} {lane role zone : Byte} (unique : AmbientLanesUnique s) (hl : lane.toNat ≤ 39)

include unique in
theorem displacedLane_eq_some_iff (j : Nat) : displacedLane s lane role zone = some j ↔
    role.toNat = 2 ∧ j < 40 ∧ j ≠ lane.toNat ∧ tget s.itp.roles j = .ambient zone.toNat := by
  unfold displacedLane
  split
  · next h =>
    rw [find?_range_eq_some_iff]
    · simp [h]
    · intro a b ha hb pa pb
      simp only [Bool.and_eq_true, bne_iff_ne, beq_iff_eq] at pa pb
      exact unique a b _ ha hb pa.2 pb.2
  · next h => simp [h]

include hl in
theorem tget_rolesWritten_self : tget (rolesWritten s lane role zone) lane.toNat = writtenRole role zone :=
  tget_tset_self _ _ _ (by omega)

include unique in
theorem tget_rolesWritten_of_ne {j : Nat} (hj : j < 40) (hne : j ≠ lane.toNat) : tget (rolesWritten s lane role zone) j =
    if role.toNat = 2 ∧ tget s.itp.roles j = .ambient zone.toNat then .unused else tget s.itp.roles j := by
  have hd := displacedLane_eq_some_iff (lane := lane) (role := role) (zone := zone) unique
  rw [rolesWritten, tget_tset_of_ne _ _ (Ne.symm hne)]
  cases e : displacedLane s lane role zone with
  | none => grind
  | some d =>
    rw [Option.toList_some, List.foldl_cons, List.foldl_nil, tget_tset]
    grind

include unique in
/-- A lane other than the written one names a zone after the write where it named it before and has not been displaced. -/
theorem tget_rolesWritten_eq_ambient_iff {j : Nat} (hj : j < 40) (hne : j ≠ lane.toNat) (z : Nat) :
    tget (rolesWritten s lane role zone) j = .ambient z ↔
      tget s.itp.roles j = .ambient z ∧ ¬(role.toNat = 2 ∧ z = zone.toNat) := by
  rw [tget_rolesWritten_of_ne unique hj hne]
  split <;> grind

include unique hl in
/-- A zone's ambient lane is another after the write exactly where the lane written has gained or released the zone (R11). -/
theorem ambientLane_laneSetAfter_iff (z : Nat) :
    ambientLane (laneSetAfter s lane role zone) z = ambientLane s z ↔
      gainedZone s lane role zone ≠ some z ∧ releasedZone s lane role zone ≠ some z := by
  have written : tget (laneSetAfter s lane role zone).itp.roles lane.toNat = .ambient z ↔
      role.toNat = 2 ∧ z = zone.toNat := by
    rw [← writtenRole_eq_ambient_iff, ← tget_rolesWritten_self (s := s) hl]
    rfl
  have others : ∀ j, j < 40 → j ≠ lane.toNat → (tget (laneSetAfter s lane role zone).itp.roles j = .ambient z ↔
      tget s.itp.roles j = .ambient z ∧ ¬(role.toNat = 2 ∧ z = zone.toNat)) :=
    fun j hj hne => tget_rolesWritten_eq_ambient_iff unique hj hne z
  have before : tget s.itp.roles lane.toNat = .ambient z → ambientLane s z = some lane.toNat :=
    fun old => ambientLane_of_unique (by omega) old fun j hj e => unique j _ z hj (by omega) e old
  have after : role.toNat = 2 ∧ z = zone.toNat → ambientLane (laneSetAfter s lane role zone) z = some lane.toNat :=
    fun new => ambientLane_of_unique (by omega) (written.mpr new) fun j hj e =>
      by_contra fun hne => ((others j hj hne).mp e).2 new
  rw [Ne, Ne, gainedZone_eq_some_iff, releasedZone_eq_some_iff]
  by_cases old : tget s.itp.roles lane.toNat = .ambient z <;> by_cases new : role.toNat = 2 ∧ z = zone.toNat
  · exact iff_of_true ((after new).trans (before old).symm) ⟨fun h => h.1 old, fun h => h.2 new⟩
  · have lost : ambientLane (laneSetAfter s lane role zone) z ≠ some lane.toNat :=
      fun e => new (written.mp (role_of_ambientLane e))
    exact iff_of_false (fun e => lost (e.trans (before old))) fun h => h.2 ⟨old, new⟩
  · have lacked : ambientLane s z ≠ some lane.toNat := fun e => old (role_of_ambientLane e)
    exact iff_of_false (fun e => lacked (e.symm.trans (after new))) fun h => h.1 ⟨old, new⟩
  · have same : ambientLane (laneSetAfter s lane role zone) z = ambientLane s z := by
      refine ambientLane_congr fun j hj => ?_
      by_cases hne : j = lane.toNat
      · rw [hne, written]
        exact iff_of_false new old
      · rw [others j hj hne]
        exact and_iff_left new
    exact iff_of_true same ⟨fun h => new h.2, fun h => old h.1⟩

include unique hl in
theorem laneSetAfter_amt {z : Nat} (hz : z < 48) : tget (laneSetAfter s lane role zone).amt z =
    if ambientLane (laneSetAfter s lane role zone) z = ambientLane s z then tget s.amt z
    else clearedEstimator (tget s.amt z) := by
  rw [laneSetAfter, tget_clearEstimators _ _ hz, ← laneSetAfter]
  have change := ambientLane_laneSetAfter_iff (role := role) (zone := zone) unique hl z
  simp only [change, List.mem_append, Option.mem_toList, ite_not, ← not_or]
  rfl

end Accepted

/-! ### Routes and mix settings (R31, R32, R34) -/

theorem routesLive_eq (m : MixZone) : routesLive m =
    decide (∃ r : Fin 4, (tget m.routes r).lane ≠ none ∧ (tget m.routes r).coeff ≠ 0) := by
  rw [Bool.eq_iff_iff]
  simp only [routesLive, List.any_eq_true, List.mem_range, Bool.and_eq_true, bne_iff_ne, decide_eq_true_eq,
    Option.isSome_iff_ne_none]
  exact ⟨fun ⟨r, hr, h⟩ => ⟨⟨r, hr⟩, h⟩, fun ⟨r, h⟩ => ⟨r, r.isLt, h⟩⟩

/-- What ROUTE_SET writes into a zone's mixer state (R31). -/
def routeWritten (s : State) (zone route lane : Byte) (coeff : Half) : MixZone :=
  let entry : Route := ⟨if lane.toNat = 255 then none else some lane.toNat, coeff.toNat⟩
  { tget s.zmx zone.toNat with routes := tset (tget s.zmx zone.toNat).routes route.toNat entry }

/-- The route table after ROUTE_SET: one entry is written (R31). -/
theorem tget_routeWritten {s : State} {zone route lane : Byte} {coeff : Half} (hz : zone.toNat < 48)
    (hr : route.toNat < 4) (z r : Nat) :
    tget (tget (tset s.zmx zone.toNat (routeWritten s zone route lane coeff)) z).routes r =
      if z = zone.toNat ∧ r = route.toNat then ⟨if lane.toNat = 255 then none else some lane.toNat, coeff.toNat⟩
      else tget (tget s.zmx z).routes r := by
  by_cases e : z = zone.toNat
  · subst e
    rw [tget_tset_self _ _ _ hz, routeWritten, tget_tset]
    simp only [hr, and_true, true_and, eq_comm]
  · rw [tget_tset_of_ne _ _ (Ne.symm e), if_neg fun h => e h.1]

/-- ROUTE_SET by its check and its write (R31, R32). -/
theorem routeSet_eq (zone route lane : Byte) (coeff : Half) (s : State) : routeSet zone route lane coeff s =
    if zone.toNat > 47 ∨ route.toNat > 3 ∨ (lane.toNat > 39 ∧ lane.toNat ≠ 255) then refuse .badarg s
    else ⟨.done, [.b1 zone, .b1 route, .b1 lane, .b2 coeff, f1? (tget (tget s.zmx zone.toNat).routes route.toNat).lane,
        f2 (tget (tget s.zmx zone.toNat).routes route.toNat).coeff],
      (s.setZmx (tset s.zmx zone.toNat (routeWritten s zone route lane coeff))).setZlc
        (tmod s.zlc zone.toNat fun l => { l with routeLive := routesLive (routeWritten s zone route lane coeff) })⟩ := by
  have none : lane = 0xFF ↔ lane.toNat = 255 := byte_eq_iff lane 255 (by decide)
  simp only [routeSet, Ne, none]
  rfl

/-- ZONE_MIX_SET by its check and its write (R34). -/
theorem zoneMixSet_eq (zone : Byte) (trim duckLevel rampStep : Half) (s : State) :
    zoneMixSet zone trim duckLevel rampStep s =
    if zone.toNat > 47 ∨ duckLevel.toNat > 16384 ∨ rampStep.toNat = 0 ∨ rampStep.toNat > 16384 then refuse .badarg s
    else ⟨.done, [.b1 zone, .b2 trim, .b2 duckLevel, .b2 rampStep, f2 (tget s.zmx zone.toNat).trim,
        f2 (tget s.zmx zone.toNat).duckLevel, f2 (tget s.zmx zone.toNat).rampStep, f2 (tget s.zmx zone.toNat).duck],
      s.setZmx (tset s.zmx zone.toNat { tget s.zmx zone.toNat with
        trim := trim.toNat, duckLevel := duckLevel.toNat, rampStep := rampStep.toNat })⟩ := by
  have zero : rampStep = 0 ↔ rampStep.toNat = 0 := by bv_omega
  simp only [zoneMixSet, zero]

/-- Settles O31: each command by its equation, its refusals as `refusedBy` and its writes read back table by table. -/
theorem laneRouteAndMixSettingsAreWritten : Obligations.LaneRouteAndMixSettingsAreWritten := by
  refine ⟨fun h lane role zone s ha hbad => ?_, fun h lane role zone s k ha hl hr hz hk h1 h2 h3 => ?_,
    fun h lane role zone s new ha unique hl hr hz hfree hnew => ?_, fun h zone route lane coeff s ha hbad => ?_,
    fun h zone route lane coeff s old ha hz hr hl hold => ?_, fun h zone trim duckLevel rampStep s ha hbad => ?_,
    fun h zone trim duckLevel rampStep s m ha hz hd h1 h2 hm => ?_⟩
  · rw [exec_laneSet, takeCommand_refused (st := .badarg) ha]
    rw [laneSet_eq, if_pos hbad]
  · rw [exec_laneSet, takeCommand_refused (st := .state) ha]
    rw [laneSet_eq, if_neg (by omega), if_pos ((laneInUse_iff ..).mpr ⟨k, hk, h1, h2, h3⟩)]
  · have hok : ¬(lane.toNat > 39 ∨ role.toNat > 2 ∨ (role.toNat = 2 ∧ zone.toNat > 47)) := by omega
    have hidle : ¬laneInUse s lane.toNat = true := by
      rw [laneInUse_iff]
      rintro ⟨k, hk, h1, h2, h3⟩
      exact hfree k hk h1 h2 h3
    have heq := laneSet_eq lane role zone s
    rw [if_neg hok, if_neg hidle] at heq
    refine ⟨laneSetAfter s lane role zone, displacedLane s lane role zone, releasedZone s lane role zone, ?_, rfl, ?_,
      fun j hj hne => tget_rolesWritten_of_ne unique hj hne, fun z hz => laneSetAfter_amt unique hl hz,
      displacedLane_eq_some_iff unique, releasedZone_eq_some_iff s lane role zone⟩
    · rw [exec_laneSet, takeCommand_answered ha (by rw [heq]; exact ha.room), heq, field_writtenRole]
    · rw [hnew]
      exact (tget_rolesWritten_self hl).trans (writtenRole_of_le hr zone)
  · rw [exec_routeSet, takeCommand_refused (st := .badarg) ha]
    rw [routeSet_eq, if_pos hbad]
  · subst hold
    have heq := routeSet_eq zone route lane coeff s
    rw [if_neg (by omega)] at heq
    refine ⟨(routeSet zone route lane coeff s).after, ?_, ?_⟩
    · rw [exec_routeSet, takeCommand_answered ha (by rw [heq]; exact ha.room), heq]
    · rw [heq]
      dsimp only
      refine ⟨rfl, fun z r hz' hr' => ?_, fun z hz' => ?_, fun z hz' hne => tget_tset_of_ne _ _ (Ne.symm hne), ?_⟩
      · rw [State.setZlc_zmx, State.setZmx_zmx, tget_routeWritten (by omega) (by omega)]
      · rw [State.setZlc_zmx, State.setZmx_zmx, tget_tset]
        split
        · next e => rw [← e.1]; rfl
        · rfl
      · have self : tget (tset s.zmx zone.toNat (routeWritten s zone route lane coeff)) zone.toNat = _ :=
          tget_tset_self _ _ _ (by omega)
        rw [State.setZlc_zmx, State.setZmx_zmx, self, ← routesLive_eq]
        exact tget_tset_self _ _ _ (by omega)
  · rw [exec_zoneMixSet, takeCommand_refused (st := .badarg) ha]
    rw [zoneMixSet_eq, if_pos hbad]
  · subst hm
    have heq := zoneMixSet_eq zone trim duckLevel rampStep s
    rw [if_neg (by omega)] at heq
    rw [exec_zoneMixSet, takeCommand_answered ha (by rw [heq]; exact ha.room), heq]

end Sys2Proof.Machine
end

section
/-! The clock's advance at the end of a frame period, and tick ends (R14, R58, R88, R136 to R138, R144). -/

namespace Sys2Proof.Machine

/-! ### The end of a frame period -/

@[simp] theorem exec_framePeriod_whole (s : State) :
    exec (.framePeriod .whole) s = .next (closePeriod (startPeriod s)) := rfl

@[simp] theorem startPeriod_slot (s : State) : (startPeriod s).etp.slot = s.etp.slot := by
  unfold startPeriod
  split
  · rfl
  · exact chooseCell_slot s

@[simp] theorem startPeriod_complete (s : State) : (startPeriod s).ch.complete = s.ch.complete := by rw [startPeriod_spec]

theorem takeCell_of_none {s : State} (h : s.ch.complete = none) : takeCell s = s := by simp [takeCell, h]

/-- Without a complete cell, FRAME_PERIOD advances the clock as it stood, but for time status and holdover count, which the events of the period may move. -/
theorem closePeriod_spec {s : State} (h : s.ch.complete = none) : ∃ status count,
    (closePeriod s).stc = advanceClock { s.stc with status := status, holdoverCount := count } ∧
    (closePeriod s).etp.slot = (s.etp.slot + 1) % 12 ∧ (closePeriod s).period = newPeriod := by
  have events := PeriodFrame.periodEvents s
  rw [closePeriod, takeCell_of_none h]
  exact ⟨_, _, congrArg advanceClock events.stc, congrArg (fun e : Etp => (e.slot + 1) % 12) events.etp, rfl⟩

theorem advanceClock_within {c : Stc} (h : c.phase + 1 < c.tickLength) : advanceClock c = { c with phase := c.phase + 1 } := by
  simp [advanceClock, h]

theorem advanceClock_over {c : Stc} (h : c.tickLength ≤ c.phase + 1) : advanceClock c = { c with
    time := c.time + 1, phase := 0, tickLength := (tickLengthFor c.slew).1, slew := (tickLengthFor c.slew).2 } := by
  simp [advanceClock, Nat.not_lt.mpr h]

theorem advanceClock_window (c : Stc) : (advanceClock c).slewWindow = c.slewWindow := by
  unfold advanceClock
  split <;> rfl

theorem advanceClock_limit (c : Stc) : (advanceClock c).holdoverLimit = c.holdoverLimit := by
  unfold advanceClock
  split <;> rfl

/-! ### What a tick end does -/

namespace ActFrame

/-- An action stays one under a change of the zone table that stands before and after it. -/
theorem setZlc {s t : State} (a : ActFrame s t) (x : Vector ZoneLine 48) : ActFrame (s.setZlc x) (t.setZlc x) :=
  { a with zlc := rfl }

/-- An action stays one under a change of the clock that stands before and after it. -/
theorem setStc {s t : State} (a : ActFrame s t) (x : Stc) : ActFrame (s.setStc x) (t.setStc x) := { a with stc := rfl }

/-- An action stays one under a change of the period's notes that stands before and after it. -/
theorem setPeriod {s t : State} (a : ActFrame s t) (x : Period) : ActFrame (s.setPeriod x) (t.setPeriod x) :=
  { a with period := rfl }

end ActFrame

/-- The clock with the holdover count of a tick end (R144). -/
def heldOver (c : Stc) : Stc := { c with
  holdoverCount := if c.status = .locked then min (100 * c.holdoverLimit) (c.holdoverCount + 1) else c.holdoverCount }

theorem countHoldover_eq (s : State) : countHoldover s = s.setStc (heldOver s.stc) := by
  unfold countHoldover heldOver
  split <;> rfl

/-- But for the hang counts and the holdover count, a tick end is an action of the arbiter and the scheduler (R138). -/
theorem tickActions_frame (s : State) :
    ActFrame ((s.setZlc (s.zlc.map countHangOf)).setStc (heldOver s.stc)) (tickActions s) := by
  have arbiter := (ActFrame.expireAll s).trans (ActFrame.countTalk _)
  have hangs : ActFrame (s.setZlc (s.zlc.map countHangOf)) (countHang (countTalk (expireAll s))) := by
    rw [countHang, arbiter.zlc]
    exact arbiter.setZlc _
  have scheduler := hangs.trans (ActFrame.schedulerNotice _)
  rw [tickActions, countHoldover_eq, scheduler.stc]
  exact scheduler.setStc _

/-- The period's notes after a tick end, but for the zones whose holder it has changed. -/
def tickedPeriod (s : State) (zones : ZoneSet) : Period := { s.period with
  tickTaken := true, tick := some (s.stc.time + 1), handed := some (s.stc.time + 1), tickZones := zones }

theorem tickEnd_due {s : State} (ht : s.period.tickTaken = false) (hd : s.stc.tickLength ≤ s.stc.phase + 1) :
    tickEnd s = tickNotice tickActions (s.setPeriod (tickedPeriod s s.period.tickZones)) := by
  have due : tickDue s = true := by simp [tickDue, ht, hd]
  rw [tickEnd, if_pos due]
  rfl

theorem tickEnd_not_due {s : State} (h : s.period.tickTaken = true ∨ s.stc.phase + 1 < s.stc.tickLength) :
    tickEnd s = s := by
  have due : ¬tickDue s = true := by
    rcases h with h | h <;> simp [tickDue, h]
  rw [tickEnd, if_neg due]

theorem exec_tickEnd {s : State} (h : s.period.started = true) : exec .tickEnd s = .next (tickEnd s) := by
  show Host.Outcome.next (tickEnd (startPeriod s)) = _
  rw [startPeriod_of_started h]

theorem tget_countHang (s : State) {z : Nat} (hz : z < 48) : tget (s.zlc.map countHangOf) z = { tget s.zlc z with
    hangCount := if lineOf s z = .hang then (tget s.zlc z).hangCount - 1 else (tget s.zlc z).hangCount } := by
  rw [tget_map _ _ z hz]
  unfold countHangOf lineOf
  split <;> rfl

/-- The state that the actions of a tick end find: the new T with phase 0 (R138). -/
def tickShown (s : State) : State :=
  (s.setStc { s.stc with time := s.stc.time + 1, phase := 0 }).setPeriod
    { tickedPeriod s s.period.tickZones with read := none }

/-- Beside clock and notes of the period, what the actions find is the state. -/
theorem tickShown_rebase (s : State) (x : Vector ZoneLine 48) (c d : Stc) (p : Period) :
    ((((tickShown s).setZlc x).setStc c).setStc d).setPeriod p = ((s.setZlc x).setStc d).setPeriod p := by
  simp only [tickShown, State.setPeriod, State.setStc, State.setZlc]

/-- An action on the notice of a tick end finds `tickShown`; afterwards clock and reading are put right, and the zones whose holder it has changed are noted (R136, R138). -/
theorem tickNotice_eq (f : State → State) (s : State) :
    tickNotice f (s.setPeriod (tickedPeriod s s.period.tickZones)) =
      ((f (tickShown s)).setStc { (f (tickShown s)).stc with time := s.stc.time, phase := s.stc.phase }).setPeriod
        { (f (tickShown s)).period with
          read := s.period.read
          tickZones := (f (tickShown s)).period.tickZones ||| changedHolders s (f (tickShown s)) } := rfl

/-- What a tick end that is due leaves: the state `u` of its actions, with clock, reading and notes of the period put right. -/
theorem tickEnd_spec {s : State} (ht : s.period.tickTaken = false) (hd : s.stc.tickLength ≤ s.stc.phase + 1) :
    ∃ u zones, u = tickActions (tickShown s) ∧
      tickEnd s = (u.setStc (heldOver s.stc)).setPeriod (tickedPeriod s zones) ∧
      ∀ z, z < 48 → (zmem zones z = true ↔
        zmem s.period.tickZones z = true ∨ claimHandle (claim s z) ≠ claimHandle (claim u z)) := by
  have a := tickActions_frame (tickShown s)
  have noted := tickNotice_eq tickActions s
  rw [← tickEnd_due ht hd] at noted
  generalize hu : tickActions (tickShown s) = u at a noted
  refine ⟨u, s.period.tickZones ||| changedHolders s u, rfl, ?_, fun z hz => ?_⟩
  · rw [noted, a.stc, a.period]
    rfl
  · simp only [zmem_or, changedHolders, zmem_zwhere, hz, decide_true, Bool.true_and, Bool.or_eq_true, bne_iff_ne]

/-- In UNSET with an empty waiting queue a tick end counts talk and hang, and nothing else (R88, R138, R171). -/
theorem tickActions_unset {s : State} (hu : s.stc.status = .unset) (hq : s.zar.queue = []) :
    tickActions s = countHang (countTalk s) := by
  have expired : expireAll s = s := by simp [expireAll, expiring, endAll, hq]
  have idle : schedulerNotice (countHang (countTalk s)) = countHang (countTalk s) :=
    if_neg (by simp [schedulerRuns, countHang, countTalk, hu])
  have kept : countHoldover (countHang (countTalk s)) = countHang (countTalk s) :=
    if_neg (by simp [countHang, countTalk, hu])
  rw [tickActions, expired, idle, kept]

theorem tget_countTalk (s : State) {h : Nat} (hh : h < 96) : tget (s.zar.requests.map countTalkOf) h =
    { request s h with talkCount :=
        (if (request s h).live = true ∧ ((request s h).state = .granted ∨ (request s h).state = .active)
        then (request s h).talkCount.map (· - 1) else (request s h).talkCount) } := by
  rw [tget_map _ _ h hh]
  have holder : liveHolder (request s h) = true ↔
      (request s h).live = true ∧ ((request s h).state = .granted ∨ (request s h).state = .active) := by simp [liveHolder]
  show countTalkOf (request s h) = _
  by_cases hl : liveHolder (request s h) = true
  · rw [countTalkOf, if_pos hl, if_pos (holder.mp hl)]
  · rw [countTalkOf, if_neg hl, if_neg (hl ∘ holder.mpr)]

/-- Settles O26: the frame period by its events' frame and the clock's advance, the tick end by its actions' frame. -/
theorem theClockAdvancesAndATickEndCounts : Obligations.TheClockAdvancesAndATickEndCounts := by
  refine ⟨fun s hc => ⟨_, exec_framePeriod_whole s, ?_⟩, fun s hs ht hd => ⟨_, exec_tickEnd hs, ?_⟩,
    fun s hs ht hd hu' hq => ⟨_, exec_tickEnd hs, ?_⟩, fun s hs h => by rw [exec_tickEnd hs, tickEnd_not_due h]⟩
  · obtain ⟨status, count, hstc, hslot, hperiod⟩ := closePeriod_spec (s := startPeriod s) (by simpa using hc)
    rw [startPeriod_stc] at hstc
    refine ⟨fun hlt => ?_, fun hle => ?_, by rw [hstc, advanceClock_window], by rw [hstc, advanceClock_limit],
      by rw [hslot, startPeriod_slot], hperiod⟩
    · rw [hstc, advanceClock_within (c := { s.stc with status := status, holdoverCount := count }) hlt]
      exact ⟨rfl, rfl, rfl, rfl⟩
    · rw [hstc, advanceClock_over (c := { s.stc with status := status, holdoverCount := count }) hle]
      refine ⟨rfl, rfl, fun h => ?_, fun h => ?_, fun h => ?_⟩
      · simp [tickLengthFor, h]
      · simp [tickLengthFor, h, not_lt.mpr h.le]
      · simp [tickLengthFor, h]
  · obtain ⟨u, zones, hu, hspec, hzones⟩ := tickEnd_spec ht hd
    have a := tickActions_frame (tickShown s)
    rw [← hu] at a
    have hzlc : u.zlc = s.zlc.map countHangOf := a.zlc
    have b := (a.setStc (heldOver s.stc)).setPeriod (tickedPeriod s zones)
    rw [tickShown_rebase] at b
    rw [hspec]
    refine ⟨fun z hz => ?_, rfl, hzones, ?_⟩
    · rw [State.setPeriod_zlc, State.setStc_zlc, hzlc]
      exact tget_countHang s hz
    · rw [State.setPeriod_zlc, State.setStc_zlc, hzlc]
      exact b
  · obtain ⟨u, zones, hu, hspec, hzones⟩ := tickEnd_spec ht hd
    rw [tickActions_unset (s := tickShown s) hu' hq] at hu
    subst hu
    have same : zones = s.period.tickZones := zset_ext fun z hz => by
      rw [Bool.eq_iff_iff, hzones z hz]
      exact or_iff_left fun ne => ne rfl
    have held : heldOver s.stc = s.stc := by
      rw [heldOver, if_neg (by rw [hu']; decide)]
    rw [hspec, same, held]
    refine ⟨?_, fun h hh => tget_countTalk s hh⟩
    simp only [countHang, countTalk, tickShown, tickedPeriod, State.setPeriod, State.setStc, State.setZlc, State.setZar]

end Sys2Proof.Machine
end

section
/-! A link loss after which a freed record is in use again (R89, R156, R160): the ends of R89 bring about a pass, the pass pre-empts a request of the scheduler, its end brings about a walk, and the walk admits a due firing into the lowest FREE record, which is one that the link loss has freed. -/

namespace Sys2Proof.Machine

/-! ### The state before the loss -/

/-- Handle 0: a LIVE source on lane 0, JOINED in zone 0. -/
def speakingRequest : Request :=
  { freeRequest with
    state := .active, cls := .live, live := true, current := .lane, requested := zone1 0, granted := zone1 0
    minCoverage := 1, level := 16384, talkLimit := 600, talkCount := some 60000 }

/-- Handle 1: a pre-empting TIMED request that waits for both zones and so for the end of handle 0. -/
def waitingRequest : Request :=
  { freeRequest with
    state := .waiting, cls := .timed, origin := .external 1, fragments := [.pause 10], requested := zone1 0 ||| zone1 1
    minCoverage := 2, level := 16384, order := 2, flags := { freeRequest.flags with preempt := true } }

/-- Handle 2: an INFO request of periodic entry 0, JOINED in zone 1. -/
def playingRequest : Request :=
  { freeRequest with
    state := .active, cls := .info, origin := .periodic 0, fragments := [.pause 10], requested := zone1 1
    granted := zone1 1, minCoverage := 1, level := 16384, engine := some 0, order := 1 }

/-- A periodic entry for zone 1 that is due at T 0. -/
def dueEntry : Periodic := { absentPeriodic with present := true, zones := zone1 1, interval := 10 }

/-- A frame period of a LOCKED clock at T 0 with 48 bad frames behind it and nothing left to do. Periodic entry 1 has its first due at T, as PERIODIC_SET leaves it until the next walk (R169). -/
def beforeLoss : State :=
  let r := State.reset
  let line : ZoneLine := { defaultZoneLine with enable := true, line := .live }
  { r with
    itp := { r.itp with link := .sync, badRun := 48, roles := tset r.itp.roles 0 .source }
    zlc := tset (tset r.zlc 0 line) 1 line
    zar := { r.zar with
      requests := tset (tset (tset r.zar.requests 0 speakingRequest) 1 waitingRequest) 2 playingRequest
      queue := [1]
      claims := tset (tset r.zar.claims 0 (.joined 0)) 1 (.joined 2)
      nextOrder := 3 }
    engines := tset r.engines 0 { idleEngine with state := .playing, handle := some 2, fragment := some 0 }
    tex := { r.tex with templates := tset r.tex.templates 0 (some ⟨[⟨[.pause 10], 1⟩], false⟩) }
    stc := { r.stc with status := .locked }
    csc := { r.csc with
      periodics := tset (tset r.csc.periodics 0 { dueEntry with nextDue := 1000, previous := some 2 }) 1 dueEntry
      due := [⟨0, .periodic 1⟩, ⟨1000, .periodic 0⟩] }
    period := { r.period with started := true } }

theorem exec_linkLost {s : State} (h : s.period.started = true) : exec .linkLost s = .next (linkLost s) := by
  show Host.Outcome.next (linkLost (startPeriod s)) = _
  rw [startPeriod_of_started h]

theorem beforeLoss_live : ∀ k, k < 96 → (request beforeLoss k).live = true → k = 0 := by decide +kernel

theorem beforeLoss_speaking : request beforeLoss 0 = speakingRequest := by decide +kernel

/-- Handle 0 is WAITING after the loss: periodic entry 1 has been fired into it. -/
theorem linkLost_beforeLoss : (request (linkLost beforeLoss) 0).state = .waiting := by decide +kernel

/-- Refutes O30: its second clause says that the record of a LIVE source on its lane is FREE after the step. In `beforeLoss` the loss frees handle 0; the pass that follows grants both zones to handle 1 and pre-empts handle 2; the end of handle 2 brings about a walk, which admits periodic entry 1 with handle 0. -/
theorem not_theLinkIsLostAndRecovered : ¬ Obligations.TheLinkIsLostAndRecovered := by
  rintro ⟨-, sources, -⟩
  have external : ∀ k, k < 96 → (request beforeLoss k).live = true → ∃ tag, (request beforeLoss k).origin = .external tag := by
    intro k hk hlive
    rw [beforeLoss_live k hk hlive, beforeLoss_speaking]
    exact ⟨0, rfl⟩
  obtain ⟨t, ht, ended⟩ := sources beforeLoss _ rfl rfl (by decide) ⟨rfl, rfl⟩ external rfl
  rw [exec_linkLost rfl, Host.Outcome.next.injEq] at ht
  have freed := (ended 0 speakingRequest (by decide) beforeLoss_speaking.symm rfl (.inr rfl)).2 rfl
  have waiting := linkLost_beforeLoss
  rw [ht, freed.1] at waiting
  exact absurd waiting (by decide)

end Sys2Proof.Machine
end

section
/-! The mixer in a frame period: the duck's ramp step, the mix of a zone stage by stage, and the bounds of Table 2.3 (R18 to R29). -/

namespace Sys2Proof.Machine

/-! ### The duck coefficient (R21, R22, R28) -/

theorem rampToward_of_near {d t k : Nat} (h : max d t - min d t ≤ k) : rampToward d t k = t := by
  unfold rampToward
  split <;> rw [if_pos (by omega)]

theorem rampToward_of_below {d t k : Nat} (h : d + k < t) : rampToward d t k = d + k := by
  rw [rampToward, if_pos (by omega), if_neg (by omega)]

theorem rampToward_of_above {d t k : Nat} (h : t + k < d) : rampToward d t k = d - k := by
  rw [rampToward, if_neg (by omega), if_neg (by omega)]

/-- A ramp step ends between where it starts and its target. -/
theorem rampToward_le_max (d t k : Nat) : rampToward d t k ≤ max d t := by
  rcases lt_or_ge (d + k) t with h | hup
  · rw [rampToward_of_below h]; omega
  rcases lt_or_ge (t + k) d with h | hdown
  · rw [rampToward_of_above h]; omega
  · rw [rampToward_of_near (by omega)]; omega

theorem duckTarget_of_empty {s : State} {c : Claim} (h : claimHandle c = none) (level : Nat) :
    duckTarget s c level = 16384 := by
  simp [duckTarget, claimClass, h]

/-- EVAC takes the programme away, every other class lowers it to the duck level (R21). -/
theorem duckTarget_of_handle {s : State} {c : Claim} {h : Nat} (hc : claimHandle c = some h) (level : Nat) :
    duckTarget s c level = if (request s h).cls = .evac then 0 else level := by
  have cls : claimClass s c = some (request s h).cls := by rw [claimClass, hc]; rfl
  rw [duckTarget, cls]
  cases (request s h).cls <;> rfl

/-- The mixer after the start work: every zone's step and count on the state at the start of the period (R22, R28). -/
theorem startPeriod_zmx {s : State} (h : s.period.started = false) :
    (startPeriod s).zmx = mixState s (playoutSample s) := by
  have hengines : s.engines.map (engineStep (chooseCell s)) = s.engines.map (engineStep s) := by
    congr 1
    exact funext (engineStep_chooseCell s)
  have hmix : mixState (chooseCell s) (playoutSample s) = mixState s (playoutSample s) := by
    rw [chooseCell_spec]; rfl
  simp only [startPeriod_of_not_started h, beginPeriod, chooseCell_engines, hengines, playout_eq, hmix]

theorem tget_mixState (s : State) (p : Nat → Int) {z : Nat} (hz : z < 48) : tget (mixState s p) z = { tget s.zmx z with
    duck := duckAfter s z
    saturation := countUp (tget s.zmx z).saturation (mixZone s p z).2 } := tget_tmapIdx _ _ z hz

/-- Settles O21: the zone's entry after the start work is that of `mixState`, whose duck is one `rampToward`. -/
theorem theDuckTakesOneRampStep : Obligations.TheDuckTakesOneRampStep := by
  intro s z hstart hz
  refine ⟨_, exec_framePeriod_start s, ?_⟩
  rintro m target rfl htarget d rfl
  have follows : target = duckTarget s (claim s z) (tget s.zmx z).duckLevel := by
    rw [htarget]
    cases claim s z with
    | empty => exact (duckTarget_of_empty rfl _).symm
    | pendingJoin h => exact (duckTarget_of_handle rfl _).symm
    | joined h => exact (duckTarget_of_handle rfl _).symm
  have ramp : duckAfter s z = rampToward (tget s.zmx z).duck target (tget s.zmx z).rampStep := by rw [follows]; rfl
  rw [startPeriod_zmx hstart, tget_mixState s _ hz, ramp]
  exact ⟨rampToward_of_near, rampToward_of_below, rampToward_of_above,
    fun hd ht => (rampToward_le_max ..).trans (max_le hd ht), rfl, rfl, rfl, rfl, rfl⟩

/-! ### The stages of the mix (R19, R20, R24 to R26) -/

theorem mixedLine_iff (l : LineState) : mixedLine l = true ↔ l = .live ∨ l = .hang := by
  cases l <;> decide

/-- A zone that is not mixed sends silence and counts nothing (R19). -/
theorem mixZone_of_not_mixed {s : State} {z : Nat} (h : mixedLine (lineOf s z) ≠ true) (p : Nat → Int) :
    mixZone s p z = (0, 0) := if_neg h

theorem mixZone_of_mixed {s : State} {z : Nat} (h : mixedLine (lineOf s z) = true) (p : Nat → Int) :
    mixZone s p z = finishSample (tget s.zlc z).width16
      (mixOutput (programmeSum s (tget s.zmx z)) (duckAfter s z) (holderTerm s p (claim s z))
        (zoneGain (tget s.zmx z).trim (tget s.amt z).factor)) := if_pos h

/-- The holder's source times its level, rounded (R24). -/
theorem holderTerm_joined (s : State) (p : Nat → Int) (h : Nat) :
    holderTerm s p (.joined h) = round14 (holderSample s p (request s h) * (request s h).level) := rfl

theorem holderTerm_of_not_joined {s : State} {p : Nat → Int} {c : Claim} (h : ∀ k, c ≠ .joined k) :
    holderTerm s p c = 0 := by
  cases c with
  | joined k => exact absurd rfl (h k)
  | empty => rfl
  | pendingJoin k => rfl

/-! ### The bounds of Table 2.3 -/

/-- Rounding keeps a bound that is a whole number of units. -/
theorem natAbs_round14_le {x : Int} {n : Nat} (h : x.natAbs ≤ n * 16384) : (round14 x).natAbs ≤ n := by
  unfold round14; omega

/-- The rounded product of a value within `n` and a coefficient within `k`. -/
theorem natAbs_round14_mul_le {x c : Int} {n k b : Nat} (hx : x.natAbs ≤ n) (hc : c.natAbs ≤ k)
    (hb : n * k ≤ b * 16384) : (round14 (x * c)).natAbs ≤ b := by
  refine natAbs_round14_le ?_
  rw [Int.natAbs_mul]
  exact (Nat.mul_le_mul hx hc).trans hb

/-- A lane delivers a value of 24 bits. -/
theorem natAbs_sourceValue_le (s : State) (i : Nat) : (sourceValue s i).natAbs ≤ 8388608 := by
  have sample (x : Sample) : x.toInt.natAbs ≤ 8388608 := by
    have := x.le_two_mul_toInt
    have := x.two_mul_toInt_lt
    omega
  unfold sourceValue delivered
  split
  · split
    · exact sample _
    · exact Nat.zero_le _
  · exact Nat.zero_le _

theorem natAbs_routeTerm_le (s : State) {r : Route} (h : r.coeff ≤ 65535) : (routeTerm s r).natAbs ≤ 33553920 := by
  unfold routeTerm
  split
  · exact Nat.zero_le _
  · exact natAbs_round14_mul_le (natAbs_sourceValue_le s _) (k := 65535) (by omega) (by decide)

theorem natAbs_programmeSum_le (s : State) {m : MixZone} (h : ∀ r, r < 4 → (tget m.routes r).coeff ≤ 65535) :
    (programmeSum s m).natAbs ≤ 134215680 := by
  have term (r : Nat) (hr : r < 4) := natAbs_routeTerm_le s (h r hr)
  have sum : programmeSum s m = routeTerm s (tget m.routes 0) + (routeTerm s (tget m.routes 1) +
      (routeTerm s (tget m.routes 2) + (routeTerm s (tget m.routes 3) + 0))) := rfl
  have := term 0 (by decide)
  have := term 1 (by decide)
  have := term 2 (by decide)
  have := term 3 (by decide)
  omega

theorem natAbs_holderSample_le (s : State) {p : Nat → Int} (hp : ∀ e, (p e).natAbs ≤ 8388608) (r : Request) :
    (holderSample s p r).natAbs ≤ 8388608 := by
  unfold holderSample
  split
  · exact natAbs_sourceValue_le s _
  · split
    · exact hp _
    · exact Nat.zero_le _

theorem natAbs_holderTerm_le {s : State} {p : Nat → Int} (hp : ∀ e, (p e).natAbs ≤ 8388608)
    (hl : ∀ h, (request s h).level ≤ 65535) (c : Claim) : (holderTerm s p c).natAbs ≤ 33553920 := by
  cases c with
  | empty => exact Nat.zero_le _
  | pendingJoin h => exact Nat.zero_le _
  | joined h =>
    have level := hl h
    rw [holderTerm_joined]
    exact natAbs_round14_mul_le (natAbs_holderSample_le s hp _) (k := 65535) (by omega) (by decide)

theorem zoneGain_nonneg (trim factor : Nat) : 0 ≤ zoneGain trim factor := by
  have product : (0 : Int) ≤ (trim : Int) * factor := by positivity
  unfold zoneGain round14
  omega

theorem zoneGain_le (trim factor : Nat) : zoneGain trim factor ≤ 65535 := min_le_left _ _

/-- At a factor of unity the gain is the trim (R25). -/
theorem zoneGain_unity {trim : Nat} (h : trim ≤ 65535) : zoneGain trim 16384 = trim := by
  unfold zoneGain round14
  omega

/-- A duck of at most unity makes no programme sum larger. -/
theorem natAbs_ducked_le {p : Int} {duck : Nat} (hd : duck ≤ 16384) : (round14 (p * duck)).natAbs ≤ p.natAbs :=
  natAbs_round14_mul_le (k := 16384) le_rfl (by omega) le_rfl

theorem natAbs_mixSum_le {p a : Int} {duck : Nat} (hp : p.natAbs ≤ 134215680) (ha : a.natAbs ≤ 33553920)
    (hd : duck ≤ 16384) : (round14 (p * duck) + a).natAbs ≤ 167769600 := by
  have := natAbs_ducked_le (p := p) hd
  omega

theorem natAbs_mixOutput_le {p a g : Int} {duck : Nat} (hp : p.natAbs ≤ 134215680) (ha : a.natAbs ≤ 33553920)
    (hd : duck ≤ 16384) (hg0 : 0 ≤ g) (hg : g ≤ 65535) : (mixOutput p duck a g).natAbs ≤ 671078400 :=
  natAbs_round14_mul_le (natAbs_mixSum_le hp ha hd) (k := 65535) (by omega) (by decide)

/-! ### Clamp and narrowing (R26 to R28) -/

theorem clampSample_of_mem {y : Int} (hlo : -8388608 ≤ y) (hhi : y ≤ 8388607) : clampSample y = y := by
  unfold clampSample clampInt; omega

theorem clampSample_of_above {y : Int} (h : 8388607 < y) : clampSample y = 8388607 := by
  unfold clampSample clampInt; omega

theorem clampSample_of_below {y : Int} (h : y < -8388608) : clampSample y = -8388608 := by
  unfold clampSample clampInt; omega

/-- Below 8388480 the narrowing needs no clamp of its own. -/
theorem narrow16_of_lt {y : Int} (hlo : -8388608 ≤ y) (hhi : y < 8388480) :
    narrow16 y = ((y + 128) / 256, (y + 128) / 256) := by
  refine Prod.ext rfl ?_
  show max (-32768) (min 32767 ((y + 128) / 256)) = (y + 128) / 256
  omega

/-- The samples that round up to 32768 are clamped once more. -/
theorem narrow16_of_top {y : Int} (hlo : 8388480 ≤ y) (hhi : y ≤ 8388607) : narrow16 y = (32768, 32767) := by
  have rounded : (y + 128) / 256 = 32768 := by omega
  unfold narrow16
  rw [rounded]
  rfl

theorem finishSample_false {y c : Int} (hc : clampSample y = c) :
    finishSample false y = (c, (decide (c ≠ y)).toNat) := by rw [← hc]; rfl

theorem finishSample_true {y c n k : Int} (hc : clampSample y = c) (hn : narrow16 c = (n, k)) :
    finishSample true y = (k * 256, (decide (c ≠ y)).toNat + (decide (n ≠ k)).toNat) := by
  simp only [finishSample, hc, hn, if_true]

/-- The samples of a 16-bit zone by the range of the output, with the clamps counted. -/
theorem finishSample_true_of_lt {y : Int} (hlo : -8388608 ≤ y) (hhi : y < 8388480) :
    finishSample true y = ((y + 128) / 256 * 256, 0) := by
  rw [finishSample_true (clampSample_of_mem hlo (by omega)) (narrow16_of_lt hlo hhi)]
  simp

theorem finishSample_true_of_top {y : Int} (hlo : 8388480 ≤ y) (hhi : y ≤ 8388607) :
    finishSample true y = (8388352, 1) := by
  rw [finishSample_true (clampSample_of_mem (by omega) hhi) (narrow16_of_top hlo hhi)]
  simp

theorem finishSample_true_of_above {y : Int} (h : 8388607 < y) : finishSample true y = (8388352, 2) := by
  rw [finishSample_true (clampSample_of_above h) (narrow16_of_top (by decide) (by decide))]
  simp [h.ne]

theorem finishSample_true_of_below {y : Int} (h : y < -8388608) : finishSample true y = (-8388608, 1) := by
  rw [finishSample_true (clampSample_of_below h) (narrow16_of_lt (by decide) (by decide))]
  simp [h.ne']

/-- Settles O23: the mix is `mixOutput` of its four parts, each within Table 2.3, and the output's range decides the clamps. -/
theorem theMixStaysInItsBounds : Obligations.TheMixStaysInItsBounds := by
  refine ⟨fun s playout z hlive hhang => ?_, ?_, fun s m => natAbs_programmeSum_le s,
    fun s playout c hp hl => natAbs_holderTerm_le hp hl c, fun p a duck trim factor hp ha hd => ?_,
    fun trim => zoneGain_unity, fun y hlo hhi => ?_, fun y h => ?_, fun y h => ?_,
    fun y => finishSample_true_of_lt, fun y => finishSample_true_of_top, fun y => finishSample_true_of_above,
    fun y => finishSample_true_of_below⟩
  · exact mixZone_of_not_mixed (fun h => ((mixedLine_iff _).mp h).elim hlive hhang) _
  · rintro s playout z m p a g hline rfl rfl hjoined hfree rfl
    have holder : a = holderTerm s playout (claim s z) := by
      by_cases hc : ∃ h, claim s z = .joined h
      · obtain ⟨h, hc⟩ := hc
        rw [hjoined h hc, hc, holderTerm_joined, holderSample]
        cases (request s h).current <;> rfl
      · rw [not_exists] at hc
        rw [hfree hc, holderTerm_of_not_joined hc]
    rw [mixZone_of_mixed ((mixedLine_iff _).mpr hline), holder]
    rfl
  · have hg0 := zoneGain_nonneg trim factor
    have hg := zoneGain_le trim factor
    exact ⟨hg0, hg, natAbs_ducked_le hd, natAbs_mixSum_le hp ha hd, natAbs_mixOutput_le hp ha hd hg0 hg⟩
  · rw [finishSample_false (clampSample_of_mem hlo hhi)]; simp
  · rw [finishSample_false (clampSample_of_above h)]; simp [h.ne]
  · rw [finishSample_false (clampSample_of_below h)]; simp [h.ne']

end Sys2Proof.Machine
end

section
/-! The Ambient Tracker: gates and samples of a frame period, window ends, release holds, and AMBIENT_SET (R39 to R48). -/

namespace Sys2Proof.Machine

/-! ### Gates and samples (R39, R42, R44) -/

/-- The estimator of a zone after the start work: the gate follows the claim entry, then the sample is taken. -/
theorem tget_startPeriod_amt {s : State} (h : s.period.started = false) {z : Nat} (hz : z < 48) :
    tget (startPeriod s).amt z = ambientSample s z (gateUpdate (claim s z) (tget s.amt z)) := by
  have same : trackerPeriod (chooseCell s) = trackerPeriod s := by rw [chooseCell_spec]; rfl
  rw [startPeriod_of_not_started h, beginPeriod]
  simp only
  rw [same]
  exact tget_tmapIdx _ _ z hz

theorem gateUpdate_joined (h : Nat) (a : AmbientZone) :
    gateUpdate (.joined h) a = { a with gate := .holder, release := a.hold } := rfl

theorem gateUpdate_of_not_joined {c : Claim} (hc : ∀ h, c ≠ .joined h) (a : AmbientZone) : gateUpdate c a =
    if 0 < a.release then { a with gate := .release, release := a.release - 1 } else { a with gate := .open } := by
  cases c with
  | joined h => exact absurd rfl (hc h)
  | empty => rfl
  | pendingJoin h => rfl

/-- The gate's update touches gate and release count alone (R42). -/
theorem gateUpdate_eq (c : Claim) (a : AmbientZone) :
    gateUpdate c a = { a with gate := (gateUpdate c a).gate, release := (gateUpdate c a).release } := by
  by_cases joined : ∃ h, c = .joined h
  · obtain ⟨h, rfl⟩ := joined
    rfl
  · rw [gateUpdate_of_not_joined (not_exists.mp joined)]
    split <;> rfl

theorem ambientSample_taken {s : State} {z i : Nat} {a : AmbientZone} (hl : ambientLane s z = some i) (hg : a.gate = .open)
    (hs : syncPeriod s = true) :
    ambientSample s z a = { a with acc := a.acc + (delivered s i).natAbs, count := a.count + 1 } := by
  rw [ambientSample, hl]
  exact if_pos ⟨hg, hs⟩

theorem ambientSample_held {s : State} {z : Nat} {a : AmbientZone}
    (h : ambientLane s z = none ∨ a.gate ≠ .open ∨ syncPeriod s = false) : ambientSample s z a = a := by
  unfold ambientSample
  split
  · rfl
  · next i hl =>
    refine if_neg fun taken => ?_
    rcases h with h | h | h
    · rw [h] at hl; exact absurd hl (by simp)
    · exact h taken.1
    · rw [h] at taken; exact absurd taken.2 (by simp)

/-- A sample touches accumulator and window count alone (R39). -/
theorem ambientSample_eq (s : State) (z : Nat) (a : AmbientZone) :
    ambientSample s z a = { a with acc := (ambientSample s z a).acc, count := (ambientSample s z a).count } := by
  unfold ambientSample
  split
  · rfl
  · split <;> rfl

/-! ### Window ends and release holds (R40 to R42) -/

theorem exec_windowEnd {s : State} (h : s.period.started = true) (z : Nat) :
    exec (.windowEnd z) s = .next (windowEnd z s) := by
  show Host.Outcome.next (windowEnd z (startPeriod s)) = _
  rw [startPeriod_of_started h]

theorem windowEnd_due {s : State} {z : Nat} (hz : z < 48) (h : 4800 ≤ (tget s.amt z).count) :
    windowEnd z s = (s.setAmt (tset s.amt z (endWindow (tget s.amt z)))).setPeriod
      { s.period with windowEnded := s.period.windowEnded ||| zone1 z } :=
  if_pos ⟨hz, by simpa [windowDue] using h⟩

theorem windowEnd_not_due {s : State} {z : Nat} (h : (tget s.amt z).count < 4800) : windowEnd z s = s :=
  if_neg fun due => by simp [windowDue] at due; omega

theorem exec_releaseHoldEnd (z : Nat) (s : State) : exec (.releaseHoldEnd z) s = .next (releaseHoldEnd z s) := rfl

/-- Settles O24: the start work by `gateUpdate` and `ambientSample`, the ends by their due conditions. -/
theorem theTrackerGatesSamplesAndEndsWindows : Obligations.TheTrackerGatesSamplesAndEndsWindows := by
  refine ⟨fun s z hs hz => ⟨_, exec_framePeriod_start s, ?_⟩, ?_,
    fun s z hs _ hc => by rw [exec_windowEnd hs, windowEnd_not_due hc], fun s z _ hs hg hr hc => ?_, fun s z _ h => ?_⟩
  · rintro a b rfl rfl
    rw [tget_startPeriod_amt hs hz]
    generalize hg : gateUpdate (claim s z) (tget s.amt z) = g
    have gate := gateUpdate_eq (claim s z) (tget s.amt z)
    rw [hg] at gate
    have sample := ambientSample_eq s z g
    generalize hb : ambientSample s z g = b at sample ⊢
    have bgate : b.gate = g.gate := by rw [sample]
    have brelease : b.release = g.release := by rw [sample]
    have gacc : g.acc = (tget s.amt z).acc := by rw [gate]
    have gcount : g.count = (tget s.amt z).count := by rw [gate]
    refine ⟨fun h hc => ?_, fun hc hr => ?_, fun hc hr => ?_, fun i hl ho hsync => ?_, fun held => ?_, ?_⟩
    · rw [bgate, brelease, ← hg, hc, gateUpdate_joined]; exact ⟨rfl, rfl⟩
    · rw [bgate, brelease, ← hg, gateUpdate_of_not_joined hc, if_pos hr]; exact ⟨rfl, rfl⟩
    · rw [bgate, brelease, ← hg, gateUpdate_of_not_joined hc, if_neg (by omega)]; exact ⟨rfl, hr⟩
    · rw [← hb, ambientSample_taken hl (bgate ▸ ho) hsync, gacc, gcount]; exact ⟨rfl, rfl⟩
    · rw [← hb, ambientSample_held (bgate ▸ held), gacc, gcount]; exact ⟨rfl, rfl⟩
    · rw [sample, gate]; exact ⟨rfl, rfl, rfl, rfl, rfl, rfl, rfl, rfl⟩
  · rintro s z a target hs hz rfl hc htarget
    have ramp : (endWindow (tget s.amt z)).factor = rampToward (tget s.amt z).factor target (tget s.amt z).step := by
      rw [htarget]; rfl
    refine ⟨(endWindow (tget s.amt z)).factor, ?_, ?_⟩
    · rw [exec_windowEnd hs, windowEnd_due hz hc]; rfl
    · rw [ramp]
      exact ⟨rampToward_of_near, rampToward_of_below, rampToward_of_above⟩
  · rw [exec_releaseHoldEnd, releaseHoldEnd]
    exact congrArg _ (if_pos ⟨hs, hg, hr, by rw [show tget s.zar.claims z = claim s z from rfl, heldClass_of_not_joined hc]; rfl⟩)
  · rw [exec_releaseHoldEnd, releaseHoldEnd]
    refine congrArg _ (if_neg ?_)
    rintro ⟨-, hg, hr, -⟩
    rcases h with h | h
    · exact h hg
    · omega

/-! ### AMBIENT_SET (R46 to R48) -/

theorem exec_ambientSet (h : Header) (zone flags : Byte) (threshold : Word) (slope ambMax stepMax hold : Half) (s : State) :
    exec (.ambientSet h zone flags threshold slope ambMax stepMax hold) s =
      .next (takeCommand h 0x31 (ambientSet zone flags threshold slope ambMax stepMax hold) s) := rfl

section Ambient

variable (zone flags : Byte) (threshold : Word) (slope ambMax stepMax hold : Half) (s : State)

/-- The estimator and the settings that an accepted AMBIENT_SET writes (R46, R47). -/
def ambientWritten : AmbientZone :=
  let a := { tget s.amt zone.toNat with threshold := threshold.toNat, slope := slope.toNat, factorMax := ambMax.toNat,
                                        step := stepMax.toNat, hold := hold.toNat }
  if flags = 1 then { a with factor := min a.factor ambMax.toNat } else clearedEstimator a

/-- KEEP is the one flag of AMBIENT_SET. -/
theorem flagBit_zero_of_le_one {flags : Byte} (h : flags.toNat ≤ 1) : flagBit flags 0 = decide (flags = 1) := by
  have values : flags = 0 ∨ flags = 1 := by
    rcases Nat.le_one_iff_eq_zero_or_eq_one.mp h with h | h
    · exact .inl (BitVec.eq_of_toNat_eq h)
    · exact .inr (BitVec.eq_of_toNat_eq h)
  rcases values with rfl | rfl <;> decide

theorem ambientSet_refused (h : zone.toNat > 47 ∨ flags.toNat > 1 ∨ threshold.toNat > 8388608 ∨ ambMax.toNat < 16384 ∨
    stepMax = 0) : ambientSet zone flags threshold slope ambMax stepMax hold s = refuse .badarg s := if_pos h

/-- Without a window end that is due, AMBIENT_SET writes `ambientWritten`. -/
theorem ambientSet_accepted (hbad : ¬(zone.toNat > 47 ∨ flags.toNat > 1 ∨ threshold.toNat > 8388608 ∨
      ambMax.toNat < 16384 ∨ stepMax = 0)) (hc : (tget s.amt zone.toNat).count < 4800) :
    ambientSet zone flags threshold slope ambMax stepMax hold s =
      let b := ambientWritten zone flags threshold slope ambMax stepMax hold s
      ⟨.done, [.b1 zone, f1? (ambientLane s zone.toNat), .b4 threshold, .b2 slope, .b2 ambMax, .b2 stepMax, .b2 hold,
        .b1 flags, f2 b.factor, f4 b.level, f4 b.peak], s.setAmt (tset s.amt zone.toNat b)⟩ := by
  have keep : flagBit flags 0 = decide (flags = 1) := flagBit_zero_of_le_one (by omega)
  simp only [ambientSet, if_neg hbad, windowEnd_not_due hc, keep, decide_eq_true_eq]
  rfl

end Ambient

/-- Settles O32: the bounds of R47, then what `ambientWritten` holds with and without KEEP. -/
theorem ambientSetWritesTheSettings : Obligations.AmbientSetWritesTheSettings := by
  refine ⟨fun h zone flags threshold slope ambMax stepMax hold s ha hbad => ?_, ?_⟩
  · have bad : zone.toNat > 47 ∨ flags.toNat > 1 ∨ threshold.toNat > 8388608 ∨ ambMax.toNat < 16384 ∨ stepMax = 0 := by
      rwa [show stepMax.toNat = 0 ↔ stepMax = 0 from BitVec.toNat_inj (y := 0)] at hbad
    rw [exec_ambientSet, takeCommand_refused ha (ambientSet_refused _ _ _ _ _ _ _ _ bad)]
  · rintro h zone flags threshold slope ambMax stepMax hold s a b ha hzone hflags hthreshold hmax hstep rfl hcount rfl
    have good : ¬(zone.toNat > 47 ∨ flags.toNat > 1 ∨ threshold.toNat > 8388608 ∨ ambMax.toNat < 16384 ∨ stepMax = 0) := by
      have : stepMax ≠ 0 := fun e => hstep (by rw [e]; rfl)
      simp only [this, or_false]
      omega
    have run := ambientSet_accepted zone flags threshold slope ambMax stepMax hold s good hcount
    rw [exec_ambientSet, takeCommand_answered ha (by rw [run]; exact ha.room), run]
    by_cases keep : flags = 1
    · simp only [ambientWritten, keep, if_true]
    · simp only [ambientWritten, keep, if_false, clearedEstimator]

end Sys2Proof.Machine
end

section
/-! Zones that the arbiter gives to nobody: a zone without a holder whose line cannot be granted (R52), or that no record asks for while the scheduler admits none (R157), stays without a holder through ends, joins, passes and walks (R75, R76, R78). -/

namespace Sys2Proof.Machine

@[simp] theorem pushEvent_zar (kind cause : Byte) (n : Nat) (d : List Field) (s : State) :
    (pushEvent kind cause n d s).zar = s.zar := by rw [pushEvent_spec]; rfl

theorem claim_writeClaims (zs : ZoneSet) (c : Claim) (s : State) (z : Nat) :
    claim (writeClaims zs c s) z = if zmem zs z = true then c else claim s z := by
  by_cases hz : z < 48
  · exact tget_tmapIdx _ _ z hz
  · rw [if_neg fun h => hz (zmem_lt h)]
    exact (tget_of_le _ _ (by omega)).trans (tget_of_le _ _ (by omega)).symm

theorem request_setRequest (h : Nat) (r : Request) (s : State) (k : Nat) :
    request (setRequest h r s) k = if h = k ∧ h < 96 then r else request s k := tget_tset ..

/-- Why no pass gives a zone to a request. -/
inductive Bar where
  /-- Its line state lets no request be granted it (R52). -/
  | line
  /-- No record asks for it, and the scheduler admits none (R76, R78, R157). -/
  | request

/-- A zone without a holder that no pass gives to a request. -/
structure Barred (why : Bar) (z : Nat) (s : State) : Prop where
  empty : claim s z = .empty
  line : why = .line → usableLine (lineOf s z) = false
  idle : why = .request → schedulerRuns s = false
  unasked : why = .request → ∀ h, zmem (request s h).requested z = false

namespace Barred

variable {why : Bar} {z : Nat} {s t : State}

/-- What leaves the clock and the zone table, fills no empty entry of the zone and adds it to no requested set, keeps the zone barred. -/
theorem mono (b : Barred why z s) (hc : claim s z = .empty → claim t z = .empty)
    (hq : ∀ h, zmem (request s h).requested z = false → zmem (request t h).requested z = false) (hl : t.zlc = s.zlc)
    (hs : t.stc = s.stc) : Barred why z t where
  empty := hc b.empty
  line w := by rw [lineOf, hl]; exact b.line w
  idle w := by rw [schedulerRuns, hs]; exact b.idle w
  unasked w h := hq h (b.unasked w h)

/-- An action that leaves claim table and records keeps the zone barred. -/
theorem of_act (b : Barred why z s) (a : ActFrame s t) (hc : t.zar.claims = s.zar.claims)
    (hq : t.zar.requests = s.zar.requests) : Barred why z t :=
  b.mono (fun h => by rwa [claim, hc]) (fun k h => by rwa [request, hq]) a.zlc a.stc

theorem of_zar (b : Barred why z s) (a : ActFrame s t) (hz : t.zar = s.zar) : Barred why z t :=
  b.of_act a (by rw [hz]) (by rw [hz])

/-- Without a record that asks and without a scheduler that admits, the line does not matter. -/
theorem of_request (b : Barred .request z s) (hz : t.zar = s.zar) (hs : t.stc.status = s.stc.status) :
    Barred .request z t where
  empty := by rw [claim, hz]; exact b.empty
  line w := nomatch w
  idle w := by rw [schedulerRuns, hs]; exact b.idle w
  unasked w h := by rw [request, hz]; exact b.unasked w h

theorem foldl {α : Type} {f : State → α → State} (hf : ∀ s a, Barred why z s → Barred why z (f s a)) (l : List α)
    (b : Barred why z s) : Barred why z (l.foldl f s) := foldl_keeps _ f hf l s b

/-- No pass finds the zone obtainable for a record (R76). -/
theorem not_obtainable (b : Barred why z s) (h : Nat) : zmem (obtainable s (request s h)) z = false := by
  rw [obtainable, zmem_zwhere]
  cases why with
  | line => simp [b.line rfl]
  | request => simp [b.unasked rfl h]

/-- No late-join walk finds the zone for a record (R78). -/
theorem not_lateZones (b : Barred why z s) (h : Nat) : zmem (lateZones s (request s h)) z = false := by
  rw [lateZones, zmem_zwhere]
  cases why with
  | line => simp [b.line rfl]
  | request => simp [b.unasked rfl h]

/-! ### Updates of the arbiter -/

theorem writeClaims (b : Barred why z s) {zs : ZoneSet} {c : Claim} (h : c = .empty ∨ zmem zs z = false) :
    Barred why z (Machine.writeClaims zs c s) := by
  refine b.mono (fun e => ?_) (fun _ h => h) rfl rfl
  rw [claim_writeClaims]
  rcases h with h | h <;> simp [h, e]

theorem setRequest_of (b : Barred why z s) {h : Nat} {r : Request}
    (hr : zmem (request s h).requested z = false → zmem r.requested z = false) : Barred why z (Machine.setRequest h r s) := by
  refine b.mono (fun e => e) (fun k hk => ?_) rfl rfl
  rw [request_setRequest]
  split
  · next e => exact hr (e.1 ▸ hk)
  · exact hk

/-- A record that keeps its requested set keeps the zone barred. -/
theorem setRequest (b : Barred why z s) (h : Nat) {r : Request}
    (hr : r.requested = (request s h).requested := by rfl) : Barred why z (Machine.setRequest h r s) :=
  b.setRequest_of fun e => hr ▸ e

/-- Where the line bars the zone, the records do not matter. -/
theorem setRequest_line (b : Barred .line z s) (h : Nat) (r : Request) : Barred .line z (Machine.setRequest h r s) :=
  ⟨b.empty, b.line, nofun, nofun⟩

theorem pushEvent (b : Barred why z s) (kind cause : Byte) (n : Nat) (d : List Field) :
    Barred why z (Machine.pushEvent kind cause n d s) := b.of_zar (.pushEvent ..) (pushEvent_zar ..)

theorem setEngine (b : Barred why z s) (e : Nat) (x : Engine) : Barred why z (Machine.setEngine e x s) :=
  b.of_zar (.setEngine ..) rfl

theorem bindEngine (b : Barred why z s) (e h : Nat) (zs : ZoneSet) : Barred why z (Machine.bindEngine e h zs s) :=
  b.setEngine ..

theorem setWork (b : Barred why z s) (w : Work) : Barred why z (s.setWork w) := b.of_zar (.setWork ..) rfl

theorem needPass (b : Barred why z s) : Barred why z (Machine.needPass s) := b.setWork _

theorem dequeue (b : Barred why z s) (h : Nat) : Barred why z (Machine.dequeue h s) := b.of_act (.dequeue ..) rfl rfl

theorem enqueue (b : Barred why z s) (h : Nat) : Barred why z (Machine.enqueue h s) := b.mono id (fun _ => id) rfl rfl

theorem releaseEngine (b : Barred why z s) (e : Nat) : Barred why z (Machine.releaseEngine e s) := by
  refine b.of_act (.releaseEngine ..) ?_ ?_ <;> simp only [Machine.releaseEngine] <;> split <;> rfl

theorem releaseEngine? (b : Barred why z s) (e : Option Nat) : Barred why z (Machine.releaseEngine? e s) := by
  cases e
  · exact b
  · exact b.releaseEngine _

/-! ### Ends, joins and losses of zones (R79 to R84) -/

theorem recordCallEnd_zar (k i h : Nat) (c : EndCause) (s : State) : (recordCallEnd k i h c s).zar = s.zar := by
  have missed : (raiseMissed k i 6 (some c) (some h)
      (modTrigger k i (fun t => { t with state := .missed, handle := none }) s)).zar = s.zar := pushEvent_zar ..
  cases c with
  | withdrawn =>
    simp only [recordCallEnd, rearmTrigger]
    split <;> rfl
  | complete => rfl
  | cancelled => rfl
  | released => exact missed
  | preempted => exact missed
  | zoneLost => exact missed
  | expired => exact missed
  | talkTimeout => exact missed
  | sourceLost => exact missed

theorem tellScheduler_zar (o : Origin) (h : Nat) (c : EndCause) (s : State) : (tellScheduler o h c s).zar = s.zar := by
  cases o with
  | external tag => rfl
  | call k i => exact recordCallEnd_zar ..
  | periodic i => rfl

theorem endRequest (b : Barred why z s) (h : Nat) (c : EndCause) : Barred why z (Machine.endRequest h c s) := by
  have ended := (((b.writeClaims (zs := claimedZones s h) (.inl rfl)).releaseEngine? (request s h).engine).dequeue h).pushEvent
    0x04 (BitVec.ofNat 8 (causeCode c)) h [f1 (originKind (request s h).origin), f1 (originId (request s h).origin),
      f1 (originTrigger (request s h).origin), f1 (requestCode (request s h).state), fZones (request s h).granted,
      f1 (requestFlags (request s h).flags), f2 (request s h).restarts, f2 (handedOn s (request s h)).1,
      f1? (handedOn s (request s h)).2]
  have told := (ended.of_zar (.unuseBanks (request s h).fragments _) rfl).of_zar
    (.tellScheduler (request s h).origin h c _) (tellScheduler_zar ..)
  exact (told.setRequest_of fun _ => zmem_zero z).needPass

theorem enterEnding (b : Barred why z s) (h : Nat) (o : EndingOutcome) : Barred why z (Machine.enterEnding h o s) := by
  unfold Machine.enterEnding
  simp only
  split
  · exact (b.setRequest h).setEngine ..
  · exact b.setRequest h

theorem endLive (b : Barred why z s) (h : Nat) (c : EndCause) : Barred why z (Machine.endLive h c s) := by
  unfold Machine.endLive
  split
  · exact b.endRequest ..
  · exact b.enterEnding ..

theorem joinLive (b : Barred why z s) (h : Nat) : Barred why z (Machine.joinLive h s) := by
  have none : zmem (pendingLive s h) z = false := by
    rw [pendingLive, zmem_zwhere, b.empty]
    simp
  have joined := b.writeClaims (c := .joined h) (.inr none)
  unfold Machine.joinLive
  simp only
  split
  · exact b
  · split
    · exact (joined.setRequest h).pushEvent ..
    · exact joined

theorem joinLane (b : Barred why z s) (h : Nat) : Barred why z (Machine.joinLane h s) := by
  unfold Machine.joinLane
  simp only
  split
  · exact b.joinLive h
  · exact b

theorem leavePreroll (b : Barred why z s) (e : Nat) : Barred why z (Machine.leavePreroll e s) := by
  unfold Machine.leavePreroll
  simp only
  repeat' split
  · exact b
  · exact b.endRequest ..
  · exact (b.setEngine ..).joinLive _
  · exact b

theorem testEngine (b : Barred why z s) (e : Option Nat) : Barred why z (Machine.testEngine e s) := by
  cases e
  · exact b
  · exact b.leavePreroll _

theorem displace (b : Barred why z s) (h : Nat) (c : RemovalCause) : Barred why z (Machine.displace h c s) := by
  unfold Machine.displace
  simp only
  split
  · exact b.enterEnding ..
  · exact b.endRequest ..

theorem unwait (b : Barred why z s) (e : Option Nat) (zs : ZoneSet) : Barred why z (Machine.unwait e zs s) := by
  unfold Machine.unwait
  split
  · simp only
    split
    · exact b.setEngine ..
    · exact b
  · exact b

/-- A loss keeps a zone barred, and bars one that it takes, where nothing but the claim entry stood against it. -/
theorem loseZones (h : Nat) (zs : ZoneSet) (c : RemovalCause) (k : Option Nat)
    (b : Barred why z (Machine.writeClaims zs .empty s)) : Barred why z (Machine.loseZones h zs c k s) := by
  have lost := ((b.setRequest h (r := withPartial { request s h with granted := zdiff (request s h).granted zs })).unwait
    (request s h).engine zs).pushEvent 0x05 (BitVec.ofNat 8 (removalCode c)) h
      [f1? k, fZones zs, fZones (zdiff (request s h).granted zs)]
  unfold Machine.loseZones
  simp only
  split
  · exact lost.displace ..
  · exact lost.testEngine _

/-! ### The arbitration pass (R75 to R78) -/

theorem grant (b : Barred why z s) (h : Nat) {zs : ZoneSet} (hz : zmem zs z = false) (bind : Bool) :
    Barred why z (Machine.grant h zs bind s) := by
  have held : ∀ r : Request, r.requested = (request s h).requested → ∀ ks : List (Nat × ZoneSet),
      Barred why z (ks.foldl (fun s k => Machine.loseZones k.1 k.2 .preemption (some h) s)
        (Machine.setRequest h r (Machine.dequeue h s))) := fun r hr ks =>
    foldl (fun s k b => loseZones k.1 k.2 .preemption (some h) (b.writeClaims (.inl rfl))) ks ((b.dequeue h).setRequest h hr)
  unfold Machine.grant
  simp only
  split
  · exact ((((held _ (by rfl) _).writeClaims (.inr hz)).setRequest h).bindEngine ..).joinLane h
  · exact ((held _ (by rfl) _).writeClaims (.inr hz)).joinLane h

theorem stopVictim (b : Barred why z s) : Barred why z (Machine.stopVictim s) := by
  unfold Machine.stopVictim
  split
  · exact b
  · split
    · exact b
    · exact (b.enterEnding ..).of_act (.setZar fun h => h) rfl rfl

theorem walkRequest {p : State × Bool} (b : Barred why z p.1) (h : Nat) : Barred why z (Machine.walkRequest p h).1 := by
  unfold Machine.walkRequest
  simp only
  repeat' split
  all_goals first | exact b | exact b.grant h (b.not_obtainable h) _ | exact b.stopVictim

theorem waitingWalk (b : Barred why z s) : Barred why z (Machine.waitingWalk s) :=
  foldl_keeps (fun p : State × Bool => Barred why z p.1) Machine.walkRequest (fun _ h b => b.walkRequest h) _ (s, false) b

theorem addWait (b : Barred why z s) (e : Option Nat) (zs : ZoneSet) : Barred why z (Machine.addWait e zs s) := by
  unfold Machine.addWait
  split
  · simp only
    split
    · exact b.setEngine ..
    · exact b
  · exact b

theorem lateJoin (s : State) (h : Nat) (b : Barred why z s) : Barred why z (Machine.lateJoin s h) := by
  unfold Machine.lateJoin
  simp only
  split
  · exact b
  · split
    · exact b
    · exact (((b.writeClaims (.inr (b.not_lateZones h))).setRequest h).addWait ..).joinLane h

theorem lateJoinWalk (b : Barred why z s) : Barred why z (Machine.lateJoinWalk s) := foldl lateJoin _ b

theorem pass (b : Barred why z s) : Barred why z (Machine.pass s) :=
  (b.setWork _).waitingWalk.lateJoinWalk.setWork _

theorem prerollTests (b : Barred why z s) : Barred why z (Machine.prerollTests s) := foldl (fun _ e b => b.leavePreroll e) _ b

theorem passWithTests (b : Barred why z s) : Barred why z (Machine.passWithTests s) := b.pass.prerollTests

theorem passes (n : Nat) (b : Barred why z s) : Barred why z (Machine.passes n s) := by
  induction n generalizing s with
  | zero => exact b
  | succ n ih =>
    unfold Machine.passes
    split
    · exact ih b.passWithTests
    · exact b

/-! ### The scheduler's walk (R157, R170): it admits records, so the line alone bars the zone -/

theorem admitRecord (b : Barred .line z s) (h : Nat) (r : Request) : Barred .line z (Machine.admitRecord h r s) :=
  ((((b.setRequest_line h { r with state := .waiting, order := s.zar.nextOrder }).of_act (.setNextOrder _ (s.zar.nextOrder + 1))
    rfl rfl).of_zar (.useBanks r.fragments _) rfl).enqueue h).needPass

theorem schedulerAdmit (b : Barred .line z s) (r : Request) {record : Nat → State → State}
    (hr : ∀ h s, Barred .line z s → Barred .line z (record h s)) :
    Barred .line z (Machine.schedulerAdmit r record s).1 := by
  unfold Machine.schedulerAdmit
  simp only
  repeat' split
  · exact b
  · exact b
  · exact b
  · exact b
  · exact (passes passBound (hr _ _ ((b.setWork _).admitRecord ..))).setWork _

theorem missTrigger (b : Barred why z s) (k i r : Nat) : Barred why z (Machine.missTrigger k i r s) :=
  b.of_zar (.missTrigger ..) (pushEvent_zar ..)

theorem recordFired (b : Barred why z s) (k i h : Nat) : Barred why z (Machine.recordFired k i h s) :=
  b.of_zar (.recordFired ..) rfl

theorem openCall (b : Barred why z s) (k : Nat) : Barred why z (Machine.openCall k s) := by
  refine b.of_zar (.openCall ..) ?_
  simp only [Machine.openCall]
  split
  · exact pushEvent_zar ..
  · rfl

theorem fireTrigger (b : Barred .line z s) (k i : Nat) (t : Trigger) (f : Time) :
    Barred .line z (Machine.fireTrigger k i t f s).1 := by
  unfold Machine.fireTrigger
  simp only
  split
  · exact b.missTrigger ..
  · next x _ =>
    have admitted := b.schedulerAdmit (triggerRequest s k i t x) (record := Machine.recordFired k i)
      fun h _ b => b.recordFired k i h
    split <;> next e =>
      rw [e] at admitted
      first
        | exact admitted.openCall k
        | exact admitted.missTrigger ..
        | (split
           · exact admitted
           · exact admitted.missTrigger ..)

theorem takeTrigger (b : Barred .line z s) (k i : Nat) : Barred .line z (Machine.takeTrigger k i s) := by
  unfold Machine.takeTrigger
  simp only
  split
  · exact b
  · next t _ =>
    have fired := b.fireTrigger k i t (callTrigger (tget s.csc.calls k) i).fire
    repeat' split
    · exact b.missTrigger ..
    · exact b
    · next e => rw [e] at fired; exact fired.setWork _
    · next e => rw [e] at fired; exact fired
    · next e => rw [e] at fired; exact fired

theorem firePeriodic (b : Barred .line z s) (i : Nat) : Barred .line z (Machine.firePeriodic i s) := by
  have skips : ∀ {u}, Barred .line z u → Barred .line z (skipPeriodic i u) := fun c => c.of_zar (.skipPeriodic ..) rfl
  unfold Machine.firePeriodic
  simp only
  split
  · exact skips b
  · split
    · exact skips b
    · next x _ =>
      have admitted := b.schedulerAdmit (periodicRequest (tget s.csc.periodics i) x i) (record := recordPeriodic i)
        fun h _ c => c.of_zar (.recordPeriodic i h _) rfl
      split <;> next e =>
        rw [e] at admitted
        first | exact admitted | exact skips admitted

theorem takeEntry (s : State) (e : DueEntry) (b : Barred .line z s) : Barred .line z (Machine.takeEntry s e) := by
  unfold Machine.takeEntry
  split
  · exact b.takeTrigger ..
  · exact (b.firePeriodic _).of_zar (.rebasePeriodic ..) rfl

theorem walk (b : Barred why z s) (hr : schedulerRuns s = true) : Barred why z (Machine.walk s) := by
  cases why with
  | line => exact foldl takeEntry _ b
  | request => rw [b.idle rfl] at hr; exact absurd hr (by decide)

/-- What an action brings about keeps the zone barred. -/
theorem settleFor (n : Nat) (b : Barred why z s) : Barred why z (Machine.settleFor n s) := by
  induction n generalizing s with
  | zero => exact b
  | succ n ih =>
    unfold Machine.settleFor
    split
    · simp only
      split
      · next hr => exact ih ((b.setWork _).walk hr)
      · exact ih (b.setWork _)
    · split
      · exact ih b.passWithTests
      · exact b

theorem settle (b : Barred why z s) : Barred why z (Machine.settle s) := b.settleFor _

/-- A zone that leaves service is without a holder when everything that its loss brings about is done (R64, R82). -/
theorem zoneLost (hz : z < 48) (hl : usableLine (lineOf s z) = false) (c : RemovalCause) :
    Barred .line z (Machine.zoneLost z c s) := by
  unfold Machine.zoneLost
  refine (Barred.needPass ?_).settle
  split
  · next e =>
    refine ⟨?_, fun _ => hl, nofun, nofun⟩
    cases hc : claim s z <;> simp [hc, claimHandle] at e ⊢
  · refine loseZones _ _ c none ⟨?_, fun _ => hl, nofun, nofun⟩
    rw [claim_writeClaims, zmem_zone1 z z hz]
    simp

end Barred

end Sys2Proof.Machine
end

section
/-! ZONE_SET, ZONE_FAULT and ZONE_CLEAR: how a zone leaves and enters service (R45, R60 to R65). -/

namespace Sys2Proof.Machine

/-! ### One zone's entry and estimator -/

theorem tset_tset {α : Type} {n : Nat} (t : Vector α n) (i : Nat) (x y : α) : tset (tset t i x) i y = tset t i y := by
  simp [tset]

theorem modLine_eq (z : Nat) (f : ZoneLine → ZoneLine) (s : State) :
    modLine z f s = s.setZlc (tset s.zlc z (f (tget s.zlc z))) := rfl

theorem tget_modLine_self {z : Nat} (hz : z < 48) (f : ZoneLine → ZoneLine) (s : State) :
    tget (modLine z f s).zlc z = f (tget s.zlc z) := tget_tset_self _ _ _ hz

/-- Two changes of one entry are one. -/
theorem modLine_modLine {z : Nat} (hz : z < 48) (f g : ZoneLine → ZoneLine) (s : State) :
    modLine z f (modLine z g s) = s.setZlc (tset s.zlc z (f (g (tget s.zlc z)))) := by
  rw [modLine_eq z f, tget_modLine_self hz, modLine_eq]
  exact congrArg s.setZlc (tset_tset ..)

/-- The estimators when a zone leaves the given line state (R45). -/
def peakLeft (z : Nat) (old : LineState) (s : State) : Vector AmbientZone 48 :=
  if old = .standby then tset s.amt z { tget s.amt z with
    peak := if zmem s.period.windowEnded z = true then (tget s.amt z).level else 0 } else s.amt

theorem leaveStandby_eq (z : Nat) (old : LineState) (s : State) : leaveStandby z old s = s.setAmt (peakLeft z old s) := by
  unfold leaveStandby peakLeft
  split <;> rfl

theorem claimHandle_isSome_iff (c : Claim) : (claimHandle c).isSome = true ↔ c ≠ .empty := by
  cases c <;> simp [claimHandle]

/-! ### ZONE_STATE (R65) and the loss of a zone that leaves service (R64, R82) -/

/-- The ZONE_STATE event of a zone. -/
def zoneStateEvent (z : Nat) (old new : LineState) (reason : Nat) (fault : Byte) (time : Time) (phase : Nat) : Event :=
  ⟨0x02, BitVec.ofNat 8 (lineCode new), BitVec.ofNat 16 z, time, phase, [f1 (lineCode old), f1 reason, .b1 fault]⟩

/-- ZONE_STATE stands at the tail of the event queue, or is lost (R178). -/
theorem raiseZoneState_tail (z : Nat) (old new : LineState) (reason : Nat) (fault : Byte) (s : State) :
    (raiseZoneState z old new reason fault s).ch.eventLost = true ∨
      (raiseZoneState z old new reason fault s).ch.events.getLast? =
        some (zoneStateEvent z old new reason fault s.stc.time s.stc.phase) := by
  rw [raiseZoneState, pushEvent_spec, State.setCh_ch]
  split
  · exact .inr List.getLast?_concat
  · exact .inl rfl

/-- A zone that leaves service loses its holder, and ZONE_STATE stands behind what that brings about. -/
theorem zoneLost_report {z : Nat} {s : State} (hz : z < 48) (hl : usableLine (lineOf s z) = false) (cause : RemovalCause)
    (old new : LineState) (reason : Nat) (fault : Byte) {t : State}
    (ht : t = raiseZoneState z old new reason fault (zoneLost z cause s)) :
    ActFrame s t ∧ claim t z = .empty ∧ (t.ch.eventLost = true ∨
      t.ch.events.getLast? = some (zoneStateEvent z old new reason fault s.stc.time s.stc.phase)) := by
  have lost := ActFrame.zoneLost z cause s
  have tail := raiseZoneState_tail z old new reason fault (zoneLost z cause s)
  rw [lost.stc, ← ht] at tail
  have barred := (Barred.zoneLost hz hl cause).pushEvent 0x02 (BitVec.ofNat 8 (lineCode new)) z
    [f1 (lineCode old), f1 reason, .b1 fault]
  subst ht
  exact ⟨lost.trans (.pushEvent ..), barred.empty, tail⟩

/-- A zone that enters service makes a pass due, and ZONE_STATE stands behind what that brings about (R61, R63, R64). -/
theorem served_report (s : State) (z : Nat) (old new : LineState) (reason : Nat) (fault : Byte) {t : State}
    (ht : t = raiseZoneState z old new reason fault (settle (needPass s))) :
    ActFrame s t ∧ (t.ch.eventLost = true ∨
      t.ch.events.getLast? = some (zoneStateEvent z old new reason fault s.stc.time s.stc.phase)) := by
  have served := (ActFrame.needPass s).trans (.settle _)
  have tail := raiseZoneState_tail z old new reason fault (settle (needPass s))
  rw [served.stc, ← ht] at tail
  subst ht
  exact ⟨served.trans (.pushEvent ..), tail⟩

/-! ### ZONE_SET (R60, R61) -/

theorem exec_zoneSet (h : Header) (zone flags : Byte) (preroll hang : Half) (s : State) :
    exec (.zoneSet h zone flags preroll hang) s = .next (takeCommand h 0x41 (zoneSet zone flags preroll hang) s) := rfl

/-- The entry of a zone that ZONE_SET takes out of service (R61). -/
def disabled (l : ZoneLine) : ZoneLine :=
  { l with enable := false, line := .off, wakeCount := 0, hangCount := 0, faultCode := 0 }

/-- The entry of a zone that ZONE_SET puts into service (R61). -/
def enabled (l : ZoneLine) : ZoneLine := { l with enable := true, line := .standby }

/-- R61: a clear flag takes any zone but an OFF one to OFF. -/
theorem applyEnable_off {z : Nat} {s : State} (h : (tget s.zlc z).line ≠ .off) :
    applyEnable z false s = raiseZoneState z (tget s.zlc z).line .off 0
      (if (tget s.zlc z).line = .fault then (tget s.zlc z).faultCode else 0)
      (zoneLost z .off (leaveStandby z (tget s.zlc z).line (modLine z disabled s))) := by
  unfold applyEnable
  simp only
  split
  case h_2 | h_3 | h_4 | h_5 | h_6 => rfl
  case h_12 e => exact absurd e h
  all_goals contradiction

/-- R61: a set flag takes an OFF zone to STANDBY. -/
theorem applyEnable_on {z : Nat} {s : State} (h : (tget s.zlc z).line = .off) :
    applyEnable z true s =
      raiseZoneState z .off .standby 0 0 (settle (needPass (markTested z (modLine z enabled s)))) := by
  simp only [applyEnable, h]
  rfl

/-- R61: any other flag leaves the line state. -/
theorem applyEnable_same {z : Nat} {s : State} {enable : Bool}
    (h : enable = true ∧ (tget s.zlc z).line ≠ .off ∨ enable = false ∧ (tget s.zlc z).line = .off) :
    applyEnable z enable s = s := by
  rcases h with ⟨rfl, h⟩ | ⟨rfl, h⟩
  · unfold applyEnable
    simp only
    split
    case h_1 e => exact absurd e h
    all_goals first | rfl | contradiction
  · simp only [applyEnable, h]

section ZoneSet

variable {zone flags : Byte} {preroll hang : Half} {s : State}

theorem zoneSet_badarg (h : zone.toNat > 47 ∨ flags.toNat > 7) :
    zoneSet zone flags preroll hang s = refuse .badarg s := if_pos h

theorem zoneSet_state (h : ¬(zone.toNat > 47 ∨ flags.toNat > 7))
    (hw : flags.getLsbD 1 ≠ (tget s.zlc zone.toNat).width16 ∧ claim s zone.toNat ≠ .empty) :
    zoneSet zone flags preroll hang s = refuse .state s := by
  unfold zoneSet
  simp only
  rw [if_neg h, if_pos ⟨hw.1, (claimHandle_isSome_iff _).mpr hw.2⟩]

/-- What an accepted ZONE_SET answers. -/
theorem zoneSet_accepted (h : ¬(zone.toNat > 47 ∨ flags.toNat > 7))
    (hw : flags.getLsbD 1 = (tget s.zlc zone.toNat).width16 ∨ claim s zone.toNat = .empty) {l : ZoneLine}
    (hl : l = tget s.zlc zone.toNat) {t : State}
    (ht : t = applyEnable zone.toNat (flags.getLsbD 0) (modLine zone.toNat (writeSettings flags preroll hang) s)) :
    zoneSet zone flags preroll hang s =
      ⟨.done, [.b1 zone, f1 (lineCode (lineOf t zone.toNat)), .b1 flags,
        f1 (l.enable.toNat + 2 * l.width16.toNat + 4 * l.keepAwake.toNat), .b2 preroll, .b2 hang, f2 l.preroll, f2 l.hang], t⟩ := by
  have width : ¬(flagBit flags 1 ≠ (tget s.zlc zone.toNat).width16 ∧ (claimHandle (claim s zone.toNat)).isSome = true) :=
    fun bad => hw.elim bad.1 ((claimHandle_isSome_iff _).mp bad.2)
  have held : zoneFlags l = l.enable.toNat + 2 * l.width16.toNat + 4 * l.keepAwake.toNat := by
    simp only [zoneFlags, flagByte, List.foldr]
    omega
  subst hl ht
  rw [← held]
  unfold zoneSet
  simp only
  rw [if_neg h, if_neg width]
  rfl

end ZoneSet

/-- The flag takes the zone to OFF, or puts it into service, or leaves its line state. -/
theorem flagCases (flags : Byte) (l : LineState) : (flags.getLsbD 0 = false ∧ l ≠ .off) ∨ (flags.getLsbD 0 = true ∧ l = .off) ∨
    (flags.getLsbD 0 = true ∧ l ≠ .off ∨ flags.getLsbD 0 = false ∧ l = .off) := by
  cases flags.getLsbD 0 <;> by_cases h : l = .off <;> simp [h]

/-- Settles O35: the refusals by their conditions; then the enable flag's three cases, of which the two that move the line state end in a report. -/
theorem zoneSetWritesTheZone : Obligations.ZoneSetWritesTheZone := by
  refine ⟨fun h zone flags preroll hang s ha hbad => ?_, fun h zone flags preroll hang s ha hz hf hw hc => ?_, ?_⟩
  · rw [exec_zoneSet, takeCommand_refused ha (zoneSet_badarg hbad)]
  · rw [exec_zoneSet, takeCommand_refused ha (zoneSet_state (by omega) ⟨hw, hc⟩)]
  intro h zone flags preroll hang s l l' off enters amt ha hz hf hw hl hoff henters hl' hamt
  have hz' : zone.toNat < 48 := by omega
  generalize ht : applyEnable zone.toNat (flags.getLsbD 0) (modLine zone.toNat (writeSettings flags preroll hang) s) = t
  have run := zoneSet_accepted (by omega) hw hl ht.symm
  suffices hs : ActFrame (((s.setZlc (tset s.zlc zone.toNat l')).setAmt amt).setPeriod
        { s.period with tested := if enters then s.period.tested ||| zone1 zone.toNat else s.period.tested }) t ∧
      (off = false → enters = false → t = s.setZlc (tset s.zlc zone.toNat l')) ∧
      (off = true → claim t zone.toNat = .empty) ∧
      (off = true ∨ enters = true → t.ch.eventLost = true ∨ t.ch.events.getLast? = some
        (zoneStateEvent zone.toNat l.line l'.line 0 (if l.line = .fault then l.faultCode else 0) s.stc.time s.stc.phase)) by
    refine ⟨t, ?_, hs⟩
    have hline : lineOf t zone.toNat = l'.line := by
      rw [lineOf, hs.1.zlc]
      exact congrArg ZoneLine.line (tget_tset_self _ _ _ hz')
    rw [exec_zoneSet, takeCommand_answered ha (by rw [run]; simpa [hs.1.replies] using ha.room), run, hline]
  have written : tget (modLine zone.toNat (writeSettings flags preroll hang) s).zlc zone.toNat =
      writeSettings flags preroll hang l := by rw [tget_modLine_self hz', hl]
  have change : ∀ f, modLine zone.toNat f (modLine zone.toNat (writeSettings flags preroll hang) s) =
      s.setZlc (tset s.zlc zone.toNat (f (writeSettings flags preroll hang l))) := fun f => by
    rw [modLine_modLine hz', hl]
  rcases flagCases flags l.line with ⟨hflag, hline⟩ | ⟨hflag, hline⟩ | same
  · rw [hflag] at ht hoff henters
    obtain rfl : off = true := by simp [hoff, hline]
    obtain rfl : enters = false := by simp [henters]
    obtain rfl : amt = peakLeft zone.toNat l.line s := by simp [hamt, peakLeft]
    rw [applyEnable_off (by rw [written]; exact hline), written, change, leaveStandby_eq] at ht
    obtain ⟨frame, empty, tail⟩ := zoneLost_report hz' (by simp [lineOf, hz', disabled, usableLine]) _ _ _ _ _ ht.symm
    subst hl'
    exact ⟨frame, nofun, fun _ => empty, fun _ => tail⟩
  · rw [hflag] at ht hoff henters
    obtain rfl : off = false := by simp [hoff]
    obtain rfl : enters = true := by simp [henters, hline]
    obtain rfl : amt = s.amt := by simp [hamt]
    rw [applyEnable_on (by rw [written]; exact hline), change] at ht
    obtain ⟨frame, tail⟩ := served_report _ _ _ _ _ _ ht.symm
    subst hl'
    refine ⟨frame, nofun, nofun, fun _ => ?_⟩
    rw [hline]
    exact tail
  · obtain rfl : off = false := by rcases same with ⟨hflag, hline⟩ | ⟨hflag, hline⟩ <;> rw [hoff, hflag] <;> simp [hline]
    obtain rfl : enters = false := by rcases same with ⟨hflag, hline⟩ | ⟨hflag, hline⟩ <;> rw [henters, hflag] <;> simp [hline]
    obtain rfl : amt = s.amt := by simp [hamt]
    rw [applyEnable_same (by rw [written]; exact same)] at ht
    have kept : t = s.setZlc (tset s.zlc zone.toNat l') := by rw [← ht, modLine_eq, ← hl, hl']; rfl
    refine ⟨?_, fun _ _ => kept, nofun, by simp⟩
    rw [kept]
    exact ActFrame.refl _

/-! ### ZONE_FAULT and ZONE_CLEAR (R62, R63) -/

theorem exec_zoneFault (h : Header) (zone code : Byte) (s : State) :
    exec (.zoneFault h zone code) s = .next (takeCommand h 0x42 (zoneFault zone code) s) := rfl

theorem exec_zoneClear (h : Header) (zone : Byte) (s : State) :
    exec (.zoneClear h zone) s = .next (takeCommand h 0x43 (zoneClear zone) s) := rfl

/-- The entry of a zone in FAULT (R62). -/
def faulted (code : Byte) (l : ZoneLine) : ZoneLine :=
  { l with line := .fault, wakeCount := 0, hangCount := 0, faultCode := code }

/-- The entry of a zone that leaves FAULT (R63). -/
def cleared (l : ZoneLine) : ZoneLine := { l with line := .standby, faultCode := 0 }

section ZoneFault

variable {zone code : Byte} {s : State}

theorem zoneFault_badarg (h : zone.toNat > 47) : zoneFault zone code s = refuse .badarg s := if_pos h

theorem zoneFault_off (hz : zone.toNat ≤ 47) (h : lineOf s zone.toNat = .off) :
    zoneFault zone code s = refuse .state s := (if_neg (by omega)).trans (if_pos h)

theorem zoneFault_fault (hz : zone.toNat ≤ 47) (h : lineOf s zone.toNat = .fault) : zoneFault zone code s =
    ⟨.done, [.b1 zone, .b1 5, .b1 (tget s.zlc zone.toNat).faultCode, .b1 0xFF], s⟩ :=
  (if_neg (by omega)).trans ((if_neg (by rw [show (tget s.zlc zone.toNat).line = .fault from h]; decide)).trans (if_pos h))

theorem zoneFault_usable (hz : zone.toNat ≤ 47) (ho : lineOf s zone.toNat ≠ .off) (hf : lineOf s zone.toNat ≠ .fault) :
    zoneFault zone code s = ⟨.done, [.b1 zone, f1 (lineCode (lineOf s zone.toNat)), .b1 code,
      f1? (claimHandle (claim s zone.toNat))], faultZone zone.toNat code s⟩ :=
  (if_neg (by omega)).trans ((if_neg ho).trans (if_neg hf))

theorem faultZone_eq (z : Nat) : faultZone z code s = raiseZoneState z (lineOf s z) .fault 1 code
    (zoneLost z .fault ((modLine z (faulted code) s).setAmt (peakLeft z (lineOf s z) s))) := by
  rw [faultZone, leaveStandby_eq]
  rfl

theorem zoneClear_badarg (h : zone.toNat > 47) : zoneClear zone s = refuse .badarg s := if_pos h

theorem zoneClear_state (hz : zone.toNat ≤ 47) (h : lineOf s zone.toNat ≠ .fault) : zoneClear zone s = refuse .state s :=
  (if_neg (by omega)).trans (if_pos h)

theorem zoneClear_fault (hz : zone.toNat ≤ 47) (h : lineOf s zone.toNat = .fault) :
    zoneClear zone s = ⟨.done, [.b1 zone, .b1 (tget s.zlc zone.toNat).faultCode], clearZone zone.toNat s⟩ :=
  (if_neg (by omega)).trans (if_neg fun ne => ne h)

theorem clearZone_eq (z : Nat) : clearZone z s = raiseZoneState z .fault .standby 2 (tget s.zlc z).faultCode
    (settle (needPass (markTested z (modLine z cleared s)))) := rfl

end ZoneFault

/-- Settles O36: each command by the line state it finds, the two that move it by their report. -/
theorem zoneFaultAndZoneClear : Obligations.ZoneFaultAndZoneClear := by
  refine ⟨fun h zone code s ha hz => ⟨?_, ?_⟩, fun h zone code s ha hz hl => ?_, fun h zone code s ha hz hl => ?_, ?_,
    fun h zone s ha hz hl => ?_, ?_⟩
  · rw [exec_zoneFault, takeCommand_refused ha (zoneFault_badarg hz)]
  · rw [exec_zoneClear, takeCommand_refused ha (zoneClear_badarg hz)]
  · rw [exec_zoneFault, takeCommand_refused ha (zoneFault_off hz hl)]
  · rw [exec_zoneFault, takeCommand_answered ha (by rw [zoneFault_fault hz hl]; exact ha.room), zoneFault_fault hz hl]
  · rintro h zone code s l amt ha hz rfl ho hf hamt
    have hz' : zone.toNat < 48 := by omega
    have run := zoneFault_usable (code := code) hz ho hf
    obtain ⟨frame, empty, tail⟩ := zoneLost_report hz' (by simp [modLine_eq, lineOf, hz', faulted, usableLine]) _ _ _ _ _
      (faultZone_eq (code := code) (s := s) zone.toNat)
    subst hamt
    refine ⟨faultZone zone.toNat code s, ?_, frame, empty, tail⟩
    rw [exec_zoneFault, takeCommand_answered ha (by rw [run, frame.replies]; exact ha.room), run]
    rfl
  · rw [exec_zoneClear, takeCommand_refused ha (zoneClear_state hz hl)]
  · rintro h zone s l ha hz rfl hl
    have run := zoneClear_fault hz hl
    obtain ⟨frame, tail⟩ := served_report _ _ _ _ _ _ (clearZone_eq (s := s) zone.toNat)
    refine ⟨clearZone zone.toNat s, ?_, frame, tail⟩
    rw [exec_zoneClear, takeCommand_answered ha (by rw [run, frame.replies]; exact ha.room), run]


end Sys2Proof.Machine
end

section
/-! What the events of a frame period leave of one zone: its barring, its zone table entry, its test and its peak (R45, R53). -/

namespace Sys2Proof.Machine

theorem schedulerRuns_eq_false_iff (s : State) : schedulerRuns s = false ↔ s.stc.status = .unset := by
  simp [schedulerRuns]

namespace Barred

variable {why : Bar} {z : Nat} {s t : State}

/-! ### Boundaries, fade ends, and the ends of several requests -/

theorem handOver (b : Barred why z s) (e h : Nat) : Barred why z (Machine.handOver e h s) :=
  ((b.setRequest h).releaseEngine e).needPass

theorem continueList (b : Barred why z s) (e h i : Nat) : Barred why z (Machine.continueList e h i s) := by
  unfold Machine.continueList
  simp only
  split
  · exact b.setEngine ..
  · exact (b.setEngine ..).pushEvent ..

theorem takeBoundary (b : Barred why z s) (e h i : Nat) : Barred why z (Machine.takeBoundary e h i s) := by
  unfold Machine.takeBoundary
  split
  · exact b.endRequest ..
  · simp only
    repeat' split
    · exact (b.joinLive h).handOver ..
    · exact (b.joinLive h).endRequest ..
    · exact (b.joinLive h).continueList ..

theorem boundary (b : Barred why z s) (e : Nat) : Barred why z (Machine.boundary e s) := by
  unfold Machine.boundary
  simp only
  split
  · exact b.takeBoundary ..
  · exact b

theorem requeue (b : Barred why z s) (h : Nat) : Barred why z (Machine.requeue h s) := by
  have same : (Machine.releaseEngine? (request s h).engine (Machine.writeClaims (claimedZones s h) .empty s)).zar.requests
      = s.zar.requests := by
    cases (request s h).engine
    · rfl
    · simp only [Machine.releaseEngine?, Machine.releaseEngine]; split <;> rfl
  have left := (b.writeClaims (zs := claimedZones s h) (.inl rfl)).releaseEngine? (request s h).engine
  unfold Machine.requeue
  simp only
  exact (((left.setRequest h (congrArg (fun v => (tget v h).requested) same.symm)).enqueue h).pushEvent ..).needPass

theorem takeOutcome (b : Barred why z s) (h : Nat) : Barred why z (Machine.takeOutcome h s) := by
  unfold Machine.takeOutcome
  simp only
  repeat' split
  · exact b.endRequest ..
  · exact b.endRequest ..
  · exact b.endRequest ..
  · exact b.requeue h
  · exact b

theorem endFade (b : Barred why z s) (e : Nat) : Barred why z (Machine.endFade e s) := by
  unfold Machine.endFade
  simp only
  repeat' split
  · exact ((b.takeOutcome _).releaseEngine e).needPass
  · exact (b.releaseEngine e).needPass
  · exact b

theorem endAll {f : Nat → State → State} (hf : ∀ h s, Barred why z s → Barred why z (f h s)) (hs : List Nat)
    (b : Barred why z s) : Barred why z (Machine.endAll f hs s) := by
  unfold Machine.endAll
  split
  · exact b
  · exact (foldl (fun s h b => hf h s b) hs b).settle

/-! ### Reports of the line controller, and notices -/

theorem testWaiting (b : Barred why z s) (y : Nat) : Barred why z (Machine.testWaiting y s) :=
  foldl (fun s e b => by split; exacts [b.leavePreroll e, b]) _ b

theorem reportLive (b : Barred why z s) (y : Nat) : Barred why z (Machine.reportLive y s) := by
  unfold Machine.reportLive
  simp only
  refine (testWaiting ?_ y).settle
  split
  · exact b.joinLane _
  · exact b
  · exact b

theorem countTalk (b : Barred why z s) : Barred why z (Machine.countTalk s) := by
  refine b.mono id (fun h e => ?_) rfl rfl
  by_cases hh : h < 96
  · have same : (countTalkOf (request s h)).requested = (request s h).requested := by unfold countTalkOf; split <;> rfl
    rwa [show request (Machine.countTalk s) h = countTalkOf (request s h) from tget_map _ _ h hh, same]
  · rw [request, tget_of_le _ h (by omega)]
    exact zmem_zero z

/-- A tick end admits no record where the scheduler does not run (R157). -/
theorem tickActions (b : Barred .request z s) : Barred .request z (Machine.tickActions s) := by
  have counted : Barred .request z (countHang (Machine.countTalk (expireAll s))) :=
    of_request (endAll (fun h _ b => b.endRequest h .expired) (expiring s) b).countTalk rfl rfl
  have idle : schedulerNotice (countHang (Machine.countTalk (expireAll s))) = countHang (Machine.countTalk (expireAll s)) :=
    if_neg (by rw [counted.idle rfl]; decide)
  rw [Machine.tickActions, idle, countHoldover_eq]
  exact counted.of_request rfl rfl

end Barred

/-! ### What the events that are not the zone's own leave of it -/

/-- The peak law of a zone whose window does not end in the frame period: out of STANDBY its peak is 0 (R45), once it has been in STANDBY in this frame period. -/
structure PeakLaw (z : Nat) (s : State) : Prop where
  window : (tget s.amt z).count < 4800
  unended : zmem s.period.windowEnded z = false
  peak : lineOf s z = .standby ∨ (tget s.amt z).peak = 0

/-- What the events of a frame period but its tick end keep with regard to a zone, also its own line tests. -/
structure ZoneFrame (z : Nat) (s t : State) : Prop extends PeriodFrame s t where
  tick : t.period.tick = s.period.tick
  taken : t.period.tickTaken = s.period.tickTaken
  noted : s.period.tick = none → zmem t.period.tickZones z = zmem s.period.tickZones z
  peak : PeakLaw z s → PeakLaw z t
  barred : Barred .request z s → Barred .request z t

/-- The event is not a line test of the zone, or moves it not. -/
structure Beside (z : Nat) (s t : State) : Prop extends ZoneFrame z s t where
  entry : tget t.zlc z = tget s.zlc z
  tested : zmem t.period.tested z = zmem s.period.tested z

/-- The zone has made its timed transition of the frame period, to this entry (R53). -/
structure Tested (z : Nat) (e : ZoneLine) (s t : State) : Prop extends ZoneFrame z s t where
  entry : tget t.zlc z = e
  tested : zmem t.period.tested z = true

theorem ZoneFrame.refl (z : Nat) (s : State) : ZoneFrame z s s := ⟨.refl s, rfl, rfl, fun _ => rfl, id, id⟩

theorem ZoneFrame.trans {z : Nat} {s t u : State} (a : ZoneFrame z s t) (b : ZoneFrame z t u) : ZoneFrame z s u where
  toPeriodFrame := a.toPeriodFrame.trans b.toPeriodFrame
  tick := b.tick.trans a.tick
  taken := b.taken.trans a.taken
  noted h := (b.noted (a.tick.trans h)).trans (a.noted h)
  peak := b.peak ∘ a.peak
  barred := b.barred ∘ a.barred

/-- The state as an action on the tick-end notice reads it (R136, R138). -/
def noticed (s : State) : State :=
  (s.setStc { s.stc with time := s.period.tick.getD s.stc.time, phase := 0 }).setPeriod { s.period with read := none }

/-- Reading the notice's time instead of the frame period's changes nothing in the frame. -/
theorem ZoneFrame.onTick {z : Nat} {f : State → State} {s : State} (hp : ∀ s, PeriodFrame s (f s))
    (h : ZoneFrame z (noticed s) (f (noticed s))) : ZoneFrame z s (Machine.onTick f s) where
  toPeriodFrame := .onTick hp s
  tick := h.tick
  taken := h.taken
  noted := h.noted
  peak p := by
    have q := h.peak ⟨p.window, p.unended, p.peak⟩
    exact ⟨q.window, q.unended, q.peak⟩
  barred b := (h.barred (b.of_request rfl rfl)).of_request rfl rfl

namespace Beside

variable {z y : Nat} {s t u : State}

theorem refl (z : Nat) (s : State) : Beside z s s := ⟨.refl z s, rfl, rfl⟩

theorem trans (a : Beside z s t) (b : Beside z t u) : Beside z s u :=
  ⟨a.toZoneFrame.trans b.toZoneFrame, b.entry.trans a.entry, b.tested.trans a.tested⟩

theorem of_eq (h : t = s) : Beside z s t := h ▸ refl z s

/-- An action of the arbiter and the scheduler that keeps the zone barred. -/
theorem of_act (a : ActFrame s t) (b : Barred .request z s → Barred .request z t) : Beside z s t where
  toPeriodFrame := .of_act a
  tick := by rw [a.period]
  taken := by rw [a.period]
  noted _ := by rw [a.period]
  peak p := ⟨by rw [a.amt]; exact p.window, by rw [a.period]; exact p.unended, by rw [lineOf, a.zlc, a.amt]; exact p.peak⟩
  barred := b
  entry := by rw [a.zlc]
  tested := by rw [a.period]

/-- A fold of events of which each but the zone's own is beside it, and the zone's own one does nothing. -/
theorem foldl {f : State → Nat → State} (hf : ∀ t y, y ≠ z → Beside z t (f t y))
    (hself : ∀ t, Beside z s t → Beside z t (f t z)) (l : List Nat) : Beside z s (l.foldl f s) := by
  refine foldl_keeps (Beside z s) f (fun t y h => h.trans ?_) l s (refl z s)
  by_cases e : y = z
  · exact e ▸ hself t h
  · exact hf t y e

theorem foldl_all {f : State → Nat → State} (hf : ∀ t y, Beside z t (f t y)) (l : List Nat) : Beside z s (l.foldl f s) :=
  foldl (fun t y _ => hf t y) (fun t _ => hf t z) l

theorem onTick {f : State → State} (hf : ∀ s, Beside z s (f s)) (s : State) : Beside z s (Machine.onTick f s) :=
  ⟨.onTick (fun s => (hf s).toPeriodFrame) (hf _).toZoneFrame, (hf (noticed s)).entry, (hf (noticed s)).tested⟩

theorem lineTest {f : State → State} (hf : ∀ s, Beside z s (f s)) (y : Nat) (s : State) :
    Beside z s (Machine.lineTest y f s) := by
  unfold Machine.lineTest
  split
  · exact onTick hf s
  · exact hf s

/-! ### Updates for another zone -/

theorem modLine (hy : y ≠ z) (f : ZoneLine → ZoneLine) (s : State) : Beside z s (Machine.modLine y f s) := by
  have entry : tget (Machine.modLine y f s).zlc z = tget s.zlc z := tget_tset_of_ne _ _ hy
  exact {
    toPeriodFrame := .modLine y f s, tick := rfl, taken := rfl, noted := fun _ => rfl, entry, tested := rfl
    peak := fun p => ⟨p.window, p.unended, by rw [lineOf, entry]; exact p.peak⟩
    barred := fun b => b.of_request rfl rfl }

theorem zmem_or_zone1_of_ne (a : ZoneSet) (hy : y ≠ z) : zmem (a ||| zone1 y) z = zmem a z := by
  by_cases hz : z < 48
  · rw [zmem_or, zmem_zone1 y z hz]
    simp [hy]
  · simp [zmem, BitVec.getLsbD_of_ge _ z (by omega : 48 ≤ z)]

theorem markTested (hy : y ≠ z) (s : State) : Beside z s (Machine.markTested y s) where
  toPeriodFrame := .markTested y s
  tick := rfl
  taken := rfl
  noted _ := rfl
  peak p := ⟨p.window, p.unended, p.peak⟩
  barred b := b.of_request rfl rfl
  entry := rfl
  tested := zmem_or_zone1_of_ne _ hy

/-- A zone table entry and its test do not depend on the peak. -/
theorem clearPeak (z y : Nat) (s : State) : Beside z s (Machine.clearPeak y s) where
  toPeriodFrame := .clearPeak y s
  tick := rfl
  taken := rfl
  noted _ := rfl
  peak p := by
    have estimator : tget (Machine.clearPeak y s).amt z = if y = z ∧ y < 48 then { tget s.amt z with
        peak := if zmem s.period.windowEnded y = true then (tget s.amt z).level else 0 } else tget s.amt z := tget_tmod ..
    split at estimator
    · next e =>
      obtain ⟨rfl, -⟩ := e
      rw [p.unended] at estimator
      exact ⟨by rw [estimator]; exact p.window, p.unended, .inr (by rw [estimator]; rfl)⟩
    · exact ⟨by rw [estimator]; exact p.window, p.unended, by rw [estimator]; exact p.peak⟩
  barred b := b.of_request rfl rfl
  entry := rfl
  tested := rfl

theorem raiseZoneState (z y : Nat) (old new : LineState) (reason : Nat) (fault : Byte) (s : State) :
    Beside z s (Machine.raiseZoneState y old new reason fault s) := of_act (.pushEvent ..) fun b => b.pushEvent ..

theorem reportLive (z y : Nat) (s : State) : Beside z s (Machine.reportLive y s) :=
  of_act (.reportLive ..) fun b => b.reportLive y

theorem settle (z : Nat) (s : State) : Beside z s (Machine.settle s) := of_act (.settle s) fun b => b.settle

/-! ### The line tests of another zone (R55 to R58) -/

theorem enterLive (hy : y ≠ z) (s : State) : Beside z s (Machine.enterLive y s) :=
  ((modLine hy _ s).trans (markTested hy _)).trans (reportLive ..)

theorem wakeZone (hy : y ≠ z) (s : State) : Beside z s (Machine.wakeZone y s) := by
  unfold Machine.wakeZone
  simp only
  split
  · exact (clearPeak ..).trans (enterLive hy _)
  · exact ((clearPeak ..).trans (modLine hy _ _)).trans (markTested hy _)

theorem testToLive (s : State) (y : Nat) (hy : y ≠ z) : Beside z s (Machine.testToLive s y) := by
  unfold Machine.testToLive
  simp only
  split
  · split
    · exact lineTest (enterLive hy) y s
    · split
      · exact lineTest (wakeZone hy) y s
      · exact refl z s
    all_goals exact refl z s
  · exact refl z s

theorem idleTest (hy : y ≠ z) (s : State) : Beside z s (Machine.idleTest y s) := by
  unfold Machine.idleTest
  simp only
  split
  · exact refl z s
  · split
    · exact ((modLine hy _ _).trans (markTested hy _)).trans (raiseZoneState ..)
    · exact (modLine hy _ _).trans (markTested hy _)

theorem hangEnd (s : State) (y : Nat) (hy : y ≠ z) : Beside z s (Machine.hangEnd y s) := by
  unfold Machine.hangEnd
  split
  · exact ((modLine hy _ _).trans (markTested hy _)).trans (onTick (raiseZoneState z y .hang .standby 3 0) _)
  · exact refl z s

theorem quietTest (s : State) (y : Nat) (hy : y ≠ z) : Beside z s (Machine.quietTest s y) := by
  unfold Machine.quietTest
  split
  · split
    · split
      · exact lineTest (wakeZone hy) y s
      · exact refl z s
    · exact lineTest (idleTest hy) y s
    · exact hangEnd s y hy
    all_goals exact refl z s
  · exact refl z s

theorem wakeEnd (s : State) (y : Nat) (hy : y ≠ z) : Beside z s (Machine.wakeEnd y s) := by
  unfold Machine.wakeEnd
  split
  · exact enterLive hy s
  · exact refl z s

theorem wakeTest (s : State) (y : Nat) (hy : y ≠ z) : Beside z s (Machine.wakeTest s y) := by
  unfold Machine.wakeTest
  simp only
  split
  · split
    · exact wakeEnd s y hy
    · exact modLine hy _ s
  · exact refl z s

/-! ### The events of the frame period before its line tests -/

theorem setItp (z : Nat) (s : State) {x : Itp} (h : KeepsBounds s (s.setItp x)) : Beside z s (s.setItp x) where
  toPeriodFrame := .setItp s h
  tick := rfl
  taken := rfl
  noted _ := rfl
  peak p := ⟨p.window, p.unended, p.peak⟩
  barred b := b.of_request rfl rfl
  entry := rfl
  tested := rfl

theorem linkLost (z : Nat) (s : State) : Beside z s (Machine.linkLost s) := by
  unfold Machine.linkLost
  split
  · refine trans ?_ (of_act ((ActFrame.pushEvent ..).trans (.loseSources _)) fun b =>
      Barred.endAll (fun h _ b => b.endLive h .sourceLost) _ (b.pushEvent ..))
    exact setItp z s (.of_itp s id id id fun _ => Nat.zero_le _)
  · exact refl z s

theorem linkRecovered (z : Nat) (s : State) : Beside z s (Machine.linkRecovered s) := by
  unfold Machine.linkRecovered
  split
  · refine trans ?_ (of_act ((ActFrame.pushEvent ..).trans ((ActFrame.needPass _).trans (.settle _))) fun b =>
      (b.pushEvent ..).needPass.settle)
    exact setItp z s (.of_itp s id id (fun _ => Nat.zero_le _) fun _ => Nat.zero_le _)
  · exact refl z s

/-- A window end is no line test, and a zone whose own window ends is not under the peak law. -/
theorem windowEnd (z : Nat) (s : State) (y : Nat) : Beside z s (Machine.windowEnd y s) := by
  by_cases due : y < 48 ∧ windowDue (tget s.amt y) = true
  · have other : PeakLaw z s → y ≠ z := fun p e => by
      have := p.window
      rw [e, windowDue, decide_eq_true_eq] at due
      omega
    rw [Machine.windowEnd, if_pos due]
    exact {
      toPeriodFrame := (PeriodFrame.setAmt ..).trans (.setPeriod ..), tick := rfl, taken := rfl, noted := fun _ => rfl
      entry := rfl, tested := rfl, barred := fun b => b.of_request rfl rfl
      peak := fun p => by
        have same : tget (tmod s.amt y endWindow) z = tget s.amt z := tget_tset_of_ne _ _ (other p)
        exact ⟨same ▸ p.window, (zmem_or_zone1_of_ne _ (other p)).trans p.unended, same ▸ p.peak⟩ }
  · exact of_eq (if_neg due)

theorem engineEvents (z : Nat) (s : State) : Beside z s (Machine.engineEvents s) :=
  (foldl_all (fun t e => (of_act (.boundary e t) fun b => b.boundary e).trans (settle z _)) _).trans
    (foldl_all (fun t e => (of_act (.endFade e t) fun b => b.endFade e).trans (settle z _)) _)

/-- A talk timeout may change a zone's holder at the tick end, which the period then notes; without a tick end there is none. -/
theorem talkTimeouts (z : Nat) (hs : List Nat) (s : State) : Beside z s (Machine.talkTimeouts hs s) := by
  have frame := PeriodFrame.talkTimeouts hs s
  unfold Machine.talkTimeouts at frame ⊢
  split at frame
  · exact refl z s
  · next due nonempty =>
    have ends := onTick (z := z) (f := endAll (fun h => endLive h .talkTimeout) (hs.filter (talkDue s)))
      (fun s => of_act (.endAll (fun _ _ => .endLive ..) _ s) fun b => b.endAll (fun h _ b => b.endLive h .talkTimeout) _) s
    obtain ⟨h, rest, hcons⟩ := List.exists_cons_of_ne_nil nonempty
    have ticked : s.period.tick ≠ none := by
      have mem : h ∈ hs.filter (talkDue s) := hcons ▸ List.mem_cons_self ..
      rw [List.mem_filter, talkDue, Bool.and_eq_true] at mem
      obtain ⟨-, -, some⟩ := mem
      exact Option.isSome_iff_ne_none.mp some
    exact {
      toPeriodFrame := frame, tick := ends.tick, taken := ends.taken, noted := fun h => absurd h ticked
      entry := ends.entry, tested := ends.tested, barred := fun b => (ends.barred b).of_request rfl rfl
      peak := fun p => ⟨(ends.peak p).window, (ends.peak p).unended, (ends.peak p).peak⟩ }

/-- A clock that enters HOLDOVER was LOCKED, where the scheduler runs (R144, R157). -/
theorem enterHoldover (z : Nat) {s : State} (h : s.stc.status = .locked) : Beside z s (Machine.enterHoldover s) := by
  have same : (Machine.enterHoldover s).period = s.period ∧ (Machine.enterHoldover s).zlc = s.zlc ∧
      (Machine.enterHoldover s).amt = s.amt := by
    simp [Machine.enterHoldover, raiseClockState, pushEvent_spec]
  obtain ⟨hp, hz, ha⟩ := same
  exact {
    toPeriodFrame := .enterHoldover s, tick := by rw [hp], taken := by rw [hp], noted := fun _ => by rw [hp]
    entry := by rw [hz], tested := by rw [hp]
    peak := fun p => ⟨by rw [ha]; exact p.window, by rw [hp]; exact p.unended, by rw [lineOf, hz, ha]; exact p.peak⟩
    barred := fun b => by
      have := (schedulerRuns_eq_false_iff s).mp (b.idle rfl)
      rw [h] at this
      exact absurd this (by decide) }

theorem holdoverEntry (z : Nat) (s : State) : Beside z s (Machine.holdoverEntry s) := by
  unfold Machine.holdoverEntry
  split
  · next due =>
    have locked : s.stc.status = .locked := by
      have := due.1
      rw [holdoverDue, Bool.and_eq_true, beq_iff_eq] at this
      exact this.1
    have entry := enterHoldover z (s := noticed s) locked
    exact ⟨.onTick .enterHoldover entry.toZoneFrame, entry.entry, entry.tested⟩
  · exact refl z s

end Beside

end Sys2Proof.Machine
end

section
/-! The entries to LIVE of the line tests (R53, R55, R56, R58): wake ends, and the rounds after which no zone that is wanted still waits for one. -/

namespace Sys2Proof.Machine

theorem untested_iff (s : State) (z : Nat) : untested s z = true ↔ zmem s.period.tested z = false := by
  simp [untested]

theorem wanted_congr {s t : State} {z : Nat} (hz : t.zar = s.zar) (he : tget t.zlc z = tget s.zlc z) :
    wanted t z = wanted s z := by rw [wanted, wanted, claim, claim, hz, he]

/-- A barred zone is wanted only where it is programme-awake. -/
theorem not_wanted_of_barred {why : Bar} {s : State} {z : Nat} (b : Barred why z s)
    (ha : programmeAwake (tget s.zlc z) = false) : wanted s z = false := by
  rw [wanted, b.empty, ha]
  rfl

/-- The entry of a zone that has entered LIVE. -/
def liveEntry (l : ZoneLine) : ZoneLine := { l with line := .live, wakeCount := 0, hangCount := 0 }

/-- The entry of a STANDBY zone that has woken (R55). -/
def wokenEntry (l : ZoneLine) : ZoneLine :=
  if l.preroll = 0 then liveEntry l else { l with line := .waking, wakeCount := l.preroll }

/-! ### One zone's own transition -/

namespace Tested

variable {z : Nat} {e : ZoneLine} {s t u : State}

theorem trans_beside (a : Tested z e s t) (b : Beside z t u) : Tested z e s u :=
  ⟨a.toZoneFrame.trans b.toZoneFrame, b.entry.trans a.entry, b.tested.trans a.tested⟩

theorem of_beside (a : Beside z s t) (b : Tested z e t u) : Tested z e s u :=
  ⟨a.toZoneFrame.trans b.toZoneFrame, b.entry, b.tested⟩

/-- A zone makes its transition under the peak law: to STANDBY, or with its peak at 0 (R45). -/
theorem move (hz : z < 48) {f : ZoneLine → ZoneLine} (he : e = f (tget s.zlc z))
    (hp : PeakLaw z s → e.line = .standby ∨ (tget s.amt z).peak = 0) : Tested z e s (markTested z (modLine z f s)) := by
  have entry : tget (modLine z f s).zlc z = e := by rw [tget_modLine_self hz, he]
  exact {
    toPeriodFrame := (PeriodFrame.modLine z f s).trans (.markTested z _), tick := rfl, taken := rfl, noted := fun _ => rfl
    barred := fun b => b.of_request rfl rfl, entry
    peak := fun p => ⟨p.window, p.unended, (hp p).imp (fun h => (congrArg ZoneLine.line entry).trans h) id⟩
    tested := by
      show zmem (s.period.tested ||| zone1 z) z = true
      rw [zmem_or, zmem_zone1 z z hz]
      simp }

/-- A line test on the notice's time moves the zone as the plain one does. -/
theorem lineTest {f : State → State} (hp : ∀ s, PeriodFrame s (f s)) (h : ∀ u, u.zlc = s.zlc → u.zar = s.zar → Tested z e u (f u))
    (y : Nat) : Tested z e s (Machine.lineTest y f s) := by
  have shown := h (noticed s) rfl rfl
  unfold Machine.lineTest
  split
  · exact ⟨.onTick hp shown.toZoneFrame, shown.entry, shown.tested⟩
  · exact h s rfl rfl

theorem enterLive (hz : z < 48) (hp : PeakLaw z s → (tget s.amt z).peak = 0) :
    Tested z (liveEntry (tget s.zlc z)) s (Machine.enterLive z s) :=
  (move hz (f := liveEntry) rfl fun p => .inr (hp p)).trans_beside (.reportLive z z _)

theorem wakeZone (hz : z < 48) (s : State) : Tested z (wokenEntry (tget s.zlc z)) s (Machine.wakeZone z s) := by
  have cleared : PeakLaw z (clearPeak z s) → (tget (clearPeak z s).amt z).peak = 0 := fun p => by
    have estimator : (tget (clearPeak z s).amt z).peak =
        if zmem s.period.windowEnded z = true then (tget s.amt z).level else 0 := by
      rw [clearPeak, State.setAmt_amt, tget_tmod, if_pos ⟨rfl, hz⟩]
    have unended : zmem s.period.windowEnded z = false := p.unended
    rw [estimator, unended]
    rfl
  refine of_beside (.clearPeak z z s) ?_
  unfold Machine.wakeZone wokenEntry
  by_cases hp : (tget (clearPeak z s).zlc z).preroll = 0
  · rw [if_pos hp, if_pos (show (tget s.zlc z).preroll = 0 from hp)]
    exact enterLive hz cleared
  · rw [if_neg hp, if_neg (show ¬(tget s.zlc z).preroll = 0 from hp)]
    exact move hz rfl fun p => .inr (cleared p)

end Tested

/-- A zone that no event but its own moves is left, or enters LIVE from an entry of the given kind. -/
def Enters (z : Nat) (P : ZoneLine → Prop) (s t : State) : Prop :=
  Beside z s t ∨ (zmem s.period.tested z = false ∧ P (tget s.zlc z) ∧ Tested z (liveEntry (tget s.zlc z)) s t)

namespace Enters

variable {z : Nat} {P : ZoneLine → Prop} {s t u : State}

/-- A zone makes one timed transition in a frame period (R53). -/
theorem trans (a : Enters z P s t) (b : Enters z P t u) : Enters z P s u := by
  rcases a with a | ⟨untested, from_, a⟩
  · rcases b with b | ⟨untested, from_, b⟩
    · exact .inl (a.trans b)
    · rw [a.entry] at from_ b
      exact .inr ⟨a.tested ▸ untested, from_, .of_beside a b⟩
  · rcases b with b | ⟨again, -, -⟩
    · exact .inr ⟨untested, from_, a.trans_beside b⟩
    · rw [a.tested] at again
      exact absurd again (by decide)

theorem foldl {f : State → Nat → State} (hf : ∀ t y, y ≠ z → Beside z t (f t y)) (hself : ∀ t, Enters z P t (f t z))
    (l : List Nat) : Enters z P s (l.foldl f s) := by
  refine foldl_keeps (Enters z P s) f (fun t y h => h.trans ?_) l s (.inl (.refl z s))
  by_cases e : y = z
  · exact e ▸ hself t
  · exact .inl (hf t y e)

end Enters

/-! ### Wake ends (R56) -/

theorem wakeOver_iff (s : State) (z : Nat) : wakeOver s z = true ↔
    (lineOf s z = .waking ∧ (tget s.zlc z).wakeCount ≤ 1) ∧ zmem s.period.tested z = false := by
  simp [wakeOver, untested, lineOf]

theorem wakeEnd_not_over {s : State} {z : Nat} (h : ¬wakeOver s z = true) : wakeEnd z s = s := if_neg fun due => h due.2

theorem wakeEnd_over {s : State} {z : Nat} (hz : z < 48) (h : wakeOver s z = true) :
    Tested z (liveEntry (tget s.zlc z)) s (wakeEnd z s) := by
  obtain ⟨⟨waking, -⟩, -⟩ := (wakeOver_iff s z).mp h
  rw [wakeEnd, if_pos ⟨hz, h⟩]
  exact .enterLive hz fun p => p.peak.resolve_left (by rw [waking]; decide)

/-- The wake ends that rows have called for (log 8). -/
theorem heldWakes_enters {z : Nat} (hz : z < 48) (s : State) :
    Enters z (fun l => l.line = .waking ∧ l.wakeCount ≤ 1) s (heldWakes s) := by
  refine .foldl (fun t y => Beside.wakeEnd t y) (fun t => ?_) _
  by_cases h : wakeOver t z = true
  · obtain ⟨waking, untest⟩ := (wakeOver_iff t z).mp h
    exact .inr ⟨untest, waking, wakeEnd_over hz h⟩
  · exact .inl (.of_eq (wakeEnd_not_over h))

/-- The wake test of every zone (R56). -/
def wakeTests (s : State) : State := (List.range 48).foldl wakeTest s

theorem range_split {z : Nat} (hz : z < 48) : ∃ before after, List.range 48 = before ++ z :: after ∧ z ∉ before ∧ z ∉ after := by
  obtain ⟨before, after, split⟩ := List.append_of_mem (List.mem_range.mpr hz)
  have once := split ▸ List.nodup_range (n := 48)
  rw [List.nodup_append, List.nodup_cons] at once
  obtain ⟨-, ⟨hafter, -⟩, hbefore⟩ := once
  exact ⟨before, after, split, fun h => hbefore z h z (List.mem_cons_self ..) rfl, hafter⟩

/-- A fold over all zones is beside a zone, then the zone's own step, then beside it again. -/
theorem foldl_range_at {f : State → Nat → State} {z : Nat} (hz : z < 48) (hf : ∀ t y, y ≠ z → Beside z t (f t y)) (s : State) :
    ∃ u, Beside z s u ∧ Beside z (f u z) ((List.range 48).foldl f s) := by
  obtain ⟨before, after, split, hbefore, hafter⟩ := range_split hz
  have skip : ∀ l : List Nat, z ∉ l → ∀ t, Beside z t (l.foldl f t) := fun l hl t =>
    List.foldlRecOn l f (.refl z t) fun u h y hy => h.trans (hf u y fun e => hl (e ▸ hy))
  refine ⟨before.foldl f s, skip before hbefore s, ?_⟩
  rw [split, List.foldl_append, List.foldl_cons]
  exact skip after hafter _

section WakeTests

variable {z : Nat} {s : State} (hz : z < 48)
include hz

/-- A wake count of 1 or less ends the wake. -/
theorem wakeTests_over (h : wakeOver s z = true) : Tested z (liveEntry (tget s.zlc z)) s (wakeTests s) := by
  obtain ⟨u, hu, ht⟩ := foldl_range_at hz Beside.wakeTest s
  obtain ⟨⟨waking, count⟩, untest⟩ := (wakeOver_iff s z).mp h
  rw [lineOf, ← hu.entry] at waking
  rw [← hu.entry] at count
  rw [← hu.tested] at untest
  have own : wakeTest u z = wakeEnd z u := by
    unfold wakeTest
    simp only
    rw [if_pos ⟨waking, (untested_iff u z).mpr untest⟩, if_pos count]
  have ended := wakeEnd_over hz ((wakeOver_iff u z).mpr ⟨⟨waking, count⟩, untest⟩)
  rw [hu.entry] at ended
  exact .of_beside hu (.trans_beside ended (own ▸ ht))

/-- A longer wake count decreases by 1. -/
theorem wakeTests_counts (hl : lineOf s z = .waking) (hc : 2 ≤ (tget s.zlc z).wakeCount)
    (ht : zmem s.period.tested z = false) : ZoneFrame z s (wakeTests s) ∧
      tget (wakeTests s).zlc z = { tget s.zlc z with wakeCount := (tget s.zlc z).wakeCount - 1 } ∧
      zmem (wakeTests s).period.tested z = false := by
  obtain ⟨u, hu, hrest⟩ := foldl_range_at hz Beside.wakeTest s
  rw [lineOf, ← hu.entry] at hl
  rw [← hu.entry] at hc
  rw [← hu.tested] at ht
  have own : wakeTest u z = modLine z (fun l => { l with wakeCount := l.wakeCount - 1 }) u := by
    unfold wakeTest
    simp only
    rw [if_pos ⟨hl, (untested_iff u z).mpr ht⟩, if_neg (by omega)]
  have entry := tget_modLine_self hz (fun l => { l with wakeCount := l.wakeCount - 1 }) u
  rw [own] at hrest
  have counts : ZoneFrame z u (modLine z (fun l => { l with wakeCount := l.wakeCount - 1 }) u) := {
    toPeriodFrame := .modLine z _ u, tick := rfl, taken := rfl, noted := fun _ => rfl
    barred := fun b => b.of_request rfl rfl
    peak := fun p => ⟨p.window, p.unended, .inr (p.peak.resolve_left (by rw [lineOf, hl]; decide))⟩ }
  rw [wakeTests]
  refine ⟨(hu.toZoneFrame.trans counts).trans hrest.toZoneFrame, ?_, hrest.tested.trans ht⟩
  rw [hrest.entry, entry, hu.entry]

omit hz in
/-- A zone that does not wake, or whose test is made, is left. -/
theorem wakeTests_beside (h : zmem s.period.tested z = true ∨ lineOf s z ≠ .waking) : Beside z s (wakeTests s) := by
  rw [wakeTests]
  refine Beside.foldl Beside.wakeTest (fun t ht => Beside.of_eq ?_) (List.range 48)
  unfold wakeTest
  simp only
  refine if_neg fun due => ?_
  rw [ht.entry, untested_iff, ht.tested] at due
  rcases h with h | h
  · rw [h] at due; exact absurd due.2 (by decide)
  · exact h due.1

end WakeTests

/-! ### The rounds of the tests that take zones into LIVE (R55, R58) -/

/-- The test that may take a zone into LIVE does so. -/
def liveDue (s : State) (z : Nat) : Bool :=
  untested s z && wanted s z && (lineOf s z == .hang || (lineOf s z == .standby && (tget s.zlc z).preroll == 0))

/-- The kinds of entries from which the rounds take a zone into LIVE. -/
def liveFrom (l : ZoneLine) : Prop := l.line = .hang ∨ (l.line = .standby ∧ l.preroll = 0)

theorem liveDue_iff (s : State) (z : Nat) : liveDue s z = true ↔
    zmem s.period.tested z = false ∧ wanted s z = true ∧ liveFrom (tget s.zlc z) := by
  simp [liveDue, untested, liveFrom, lineOf, and_assoc]

theorem liveDue_congr {s t : State} {z : Nat} (hz : t.zar = s.zar) (he : tget t.zlc z = tget s.zlc z)
    (ht : zmem t.period.tested z = zmem s.period.tested z) : liveDue t z = liveDue s z := by
  rw [Bool.eq_iff_iff, liveDue_iff, liveDue_iff, wanted_congr hz he, he, ht]

theorem testToLive_not_due {s : State} {z : Nat} (h : ¬liveDue s z = true) : testToLive s z = s := by
  rw [liveDue_iff] at h
  unfold testToLive
  simp only
  split
  · next hw =>
    rw [Bool.and_eq_true, untested_iff] at hw
    split
    · next hl => exact absurd ⟨hw.1, hw.2, .inl hl⟩ h
    · next hl =>
      exact if_neg fun hp => h ⟨hw.1, hw.2, .inr ⟨hl, hp⟩⟩
    all_goals rfl
  · rfl

theorem testToLive_due {s : State} {z : Nat} (hz : z < 48) (h : liveDue s z = true) :
    Tested z (liveEntry (tget s.zlc z)) s (testToLive s z) := by
  obtain ⟨ht, hw, hang | ⟨hl, hp⟩⟩ := (liveDue_iff s z).mp h
  · have own : testToLive s z = lineTest z (enterLive z) s := by
      simp [testToLive, untested, ht, hw, hang]
    rw [own]
    refine .lineTest (.enterLive z) (fun u hu _ => ?_) z
    rw [← hu]
    refine .enterLive hz fun p => p.peak.resolve_left ?_
    rw [lineOf, hu, hang]
    decide
  · have own : testToLive s z = lineTest z (wakeZone z) s := by
      simp [testToLive, untested, ht, hw, hl, hp]
    rw [own]
    refine .lineTest (.wakeZone z) (fun u hu _ => ?_) z
    have woken := Tested.wakeZone hz u
    rwa [hu, wokenEntry, if_pos hp] at woken

theorem testToLive_enters {z : Nat} (hz : z < 48) (s : State) : Enters z liveFrom s (testToLive s z) := by
  by_cases h : liveDue s z = true
  · obtain ⟨untest, -, from_⟩ := (liveDue_iff s z).mp h
    exact .inr ⟨untest, from_, testToLive_due hz h⟩
  · exact .inl (.of_eq (testToLive_not_due h))

/-- A zone for which the test is due at no time of a round is left by it. -/
theorem round_beside {z : Nat} {s : State} (h : ∀ t, Beside z s t → ¬liveDue t z = true) (l : List Nat) :
    Beside z s (l.foldl testToLive s) :=
  .foldl Beside.testToLive (fun t ht => .of_eq (testToLive_not_due (h t ht))) l

/-- A zone whose test is made stays so. -/
theorem round_of_tested {z : Nat} {s : State} (h : zmem s.period.tested z = true) (l : List Nat) :
    Beside z s (l.foldl testToLive s) := round_beside (fun t ht due => by
      rw [liveDue_iff, ht.tested, h] at due
      exact absurd due.1 (by decide)) l

/-- What holds along every round holds along the rounds. -/
theorem liveRounds_keeps (P : State → Prop) (h : ∀ t, P t → P ((List.range 48).foldl testToLive t)) (n : Nat) {s : State}
    (hs : P s) : P (liveRounds n s) := by
  induction n generalizing s with
  | zero => exact hs
  | succ n ih =>
    unfold liveRounds
    simp only
    split
    · exact h s hs
    · exact ih (h s hs)

theorem liveRounds_enters {z : Nat} (hz : z < 48) (n : Nat) (s : State) : Enters z liveFrom s (liveRounds n s) :=
  liveRounds_keeps (Enters z liveFrom s)
    (fun _ h => h.trans (.foldl Beside.testToLive (testToLive_enters hz) _)) n (.inl (.refl z s))

theorem liveRounds_beside {z : Nat} {s : State} (h : ∀ t, Beside z s t → ¬liveDue t z = true) (n : Nat) :
    Beside z s (liveRounds n s) :=
  liveRounds_keeps (Beside z s) (fun _ ht => ht.trans (round_beside (fun _ hu => h _ (ht.trans hu)) _)) n (.refl z s)

/-- No zone waits for an entry to LIVE. -/
def Quiescent (s : State) : Prop := ∀ z, z < 48 → ¬liveDue s z = true

/-- A round that makes no test finds none due. -/
theorem round_stands {s : State} {l : List Nat} (hl : ∀ y ∈ l, y < 48)
    (h : (l.foldl testToLive s).period.tested = s.period.tested) :
    l.foldl testToLive s = s ∧ ∀ y ∈ l, ¬liveDue s y = true := by
  induction l with
  | nil => exact ⟨rfl, nofun⟩
  | cons y l ih =>
    rw [List.foldl_cons] at h ⊢
    by_cases due : liveDue s y = true
    · have moved := testToLive_due (hl y (List.mem_cons_self ..)) due
      have stays := (round_of_tested moved.tested l).tested
      rw [h, moved.tested, ((liveDue_iff s y).mp due).1] at stays
      exact absurd stays (by decide)
    · rw [testToLive_not_due due] at h ⊢
      obtain ⟨same, rest⟩ := ih (fun x hx => hl x (List.mem_cons_of_mem y hx)) h
      exact ⟨same, fun x hx => (List.mem_cons.mp hx).elim (fun e => e ▸ due) (rest x)⟩

/-- The zones whose test is still to come. -/
def untestedZones (s : State) : Finset Nat := (Finset.range 48).filter fun z => zmem s.period.tested z = false

theorem mem_untestedZones (s : State) (z : Nat) : z ∈ untestedZones s ↔ z < 48 ∧ zmem s.period.tested z = false := by
  simp [untestedZones]

/-- A round that makes a test leaves fewer. -/
theorem untestedZones_round {s : State} (h : ((List.range 48).foldl testToLive s).period.tested ≠ s.period.tested) :
    (untestedZones ((List.range 48).foldl testToLive s)).card < (untestedZones s).card := by
  have kept : ∀ z, zmem s.period.tested z = true → zmem ((List.range 48).foldl testToLive s).period.tested z = true :=
    fun z hz => (round_of_tested hz _).tested.trans hz
  refine Finset.card_lt_card (Finset.ssubset_iff_subset_ne.mpr ⟨fun z hz => ?_, fun e => h (zset_ext fun z hz => ?_)⟩)
  · rw [mem_untestedZones] at hz ⊢
    exact ⟨hz.1, Bool.eq_false_iff.mpr fun t => by rw [kept z t] at hz; exact absurd hz.2 (by decide)⟩
  · have same := congrArg (z ∈ ·) e
    simp only [mem_untestedZones, hz, true_and, eq_iff_iff] at same
    rw [Bool.eq_iff_iff, ← not_iff_not, Bool.not_eq_true, Bool.not_eq_true, same]

/-- With as many rounds as zones are still to be tested, the rounds end where no test is due. -/
theorem liveRounds_quiescent (n : Nat) (s : State) (h : (untestedZones s).card ≤ n) : Quiescent (liveRounds n s) := by
  induction n generalizing s with
  | zero =>
    intro z hz due
    have : z ∈ untestedZones s := (mem_untestedZones s z).mpr ⟨hz, ((liveDue_iff _ z).mp due).1⟩
    rw [Finset.card_eq_zero.mp (Nat.le_zero.mp h)] at this
    exact absurd this (Finset.notMem_empty z)
  | succ n ih =>
    unfold liveRounds
    simp only
    split
    · next stands =>
      obtain ⟨same, none⟩ := round_stands (fun y => List.mem_range.mp) stands
      rw [same]
      exact fun z hz => none z (List.mem_range.mpr hz)
    · next moves => exact ih _ (by have := untestedZones_round moves; omega)

theorem untestedZones_card_le (s : State) : (untestedZones s).card ≤ 48 :=
  (Finset.card_filter_le _ _).trans (Finset.card_range 48).le

end Sys2Proof.Machine
end

section
/-! The quiet line tests of a frame period: into WAKING, HANG and STANDBY, which tell the arbiter nothing (R53, R55, R57, R58). -/

namespace Sys2Proof.Machine

/-- An event stands in the queue, or one was lost (R178). -/
def Raised (e : Event) (s : State) : Prop := s.ch.eventLost = true ∨ e ∈ s.ch.events

/-- What the quiet tests leave: the arbiter, and the events raised before. -/
structure QuietFrame (s t : State) : Prop where
  zar : t.zar = s.zar
  raised : ∀ e, Raised e s → Raised e t

namespace QuietFrame

theorem refl (s : State) : QuietFrame s s := ⟨rfl, fun _ => id⟩

theorem trans {s t u : State} (a : QuietFrame s t) (b : QuietFrame t u) : QuietFrame s u :=
  ⟨b.zar.trans a.zar, fun e => b.raised e ∘ a.raised e⟩

/-- What leaves arbiter and cell queues alone. -/
theorem of_same {s t : State} (hz : t.zar = s.zar) (hc : t.ch = s.ch) : QuietFrame s t :=
  ⟨hz, fun e => by rw [Raised, Raised, hc]; exact id⟩

theorem move (z : Nat) (f : ZoneLine → ZoneLine) (s : State) : QuietFrame s (markTested z (modLine z f s)) :=
  of_same rfl rfl

theorem raiseZoneState (z : Nat) (old new : LineState) (reason : Nat) (fault : Byte) (s : State) :
    QuietFrame s (Machine.raiseZoneState z old new reason fault s) := by
  refine ⟨pushEvent_zar .., fun e h => ?_⟩
  rw [Machine.raiseZoneState, pushEvent_spec, Raised, State.setCh_ch]
  split
  · exact h.imp id fun mem => List.mem_append_left _ mem
  · exact .inl rfl

theorem onTick {f : State → State} {s : State} (h : QuietFrame (noticed s) (f (noticed s))) :
    QuietFrame s (Machine.onTick f s) := ⟨h.zar, h.raised⟩

theorem lineTest {f : State → State} {s : State} (h : ∀ u, u.zlc = s.zlc → u.zar = s.zar → QuietFrame u (f u))
    (y : Nat) : QuietFrame s (Machine.lineTest y f s) := by
  unfold Machine.lineTest
  split
  · exact onTick (h (noticed s) rfl rfl)
  · exact h s rfl rfl

end QuietFrame

theorem raised_raiseZoneState (z : Nat) (old new : LineState) (reason : Nat) (fault : Byte) (s : State) :
    Raised (zoneStateEvent z old new reason fault s.stc.time s.stc.phase) (raiseZoneState z old new reason fault s) :=
  (raiseZoneState_tail z old new reason fault s).imp id List.mem_of_getLast?

/-- A line test that finds nothing to do leaves the state. -/
theorem lineTest_of_same {f : State → State} {s : State} (h : ∀ u, u.zlc = s.zlc → u.zar = s.zar → f u = u) (y : Nat) :
    lineTest y f s = s := by
  unfold lineTest
  split
  · have shown := h (noticed s) rfl rfl
    show ((f (noticed s)).setStc { (f (noticed s)).stc with time := s.stc.time, phase := s.stc.phase }).setPeriod
      { (f (noticed s)).period with read := s.period.read } = s
    rw [shown]
    rfl
  · exact h s rfl rfl

/-! ### What the quiet tests make of a zone -/

/-- The entry of a zone that goes back to STANDBY. -/
def standbyEntry (l : ZoneLine) : ZoneLine := { l with line := .standby }

/-- The entry that the quiet test of a zone leaves. -/
def quietEntry (s : State) (z : Nat) : ZoneLine :=
  let l := tget s.zlc z
  match l.line with
  | .standby => if wanted s z then wokenEntry l else l
  | .live => if wanted s z then l else if l.hang = 0 then standbyEntry l else { l with line := .hang, hangCount := l.hang }
  | .hang => if hangDue s z then standbyEntry l else l
  | .off | .waking | .fault => l

/-- The zone has made its quiet test, with the ZONE_STATE of an entry to STANDBY (R57, R58, R65). -/
structure QuietDone (z : Nat) (s t : State) : Prop extends ZoneFrame z s t where
  entry : tget t.zlc z = quietEntry s z
  idle : lineOf s z = .live → wanted s z = false → (tget s.zlc z).hang = 0 → ∃ T p,
    Raised (zoneStateEvent z .live .standby 4 0 T p) t ∧
    (s.period.tick = none → zmem s.period.tickZones z = false → T = s.stc.time ∧ p = s.stc.phase)
  hung : hangDue s z = true → Raised (zoneStateEvent z .hang .standby 3 0 (s.period.tick.getD s.stc.time) 0) t

theorem hangDue_iff (s : State) (z : Nat) : hangDue s z = true ↔ (lineOf s z = .hang ∧ (tget s.zlc z).hangCount = 0 ∧
    s.period.tick.isSome = true ∧ zmem s.period.tested z = false) ∧ wanted s z = false := by
  simp [hangDue, hangOver, untested, lineOf, and_assoc]

theorem line_of_hangDue {s : State} {z : Nat} (h : hangDue s z = true) : lineOf s z = .hang := by
  obtain ⟨⟨hl, -⟩, -⟩ := (hangDue_iff s z).mp h
  exact hl

theorem untested_of_hangDue {s : State} {z : Nat} (h : hangDue s z = true) : zmem s.period.tested z = false := by
  obtain ⟨⟨-, -, -, ht⟩, -⟩ := (hangDue_iff s z).mp h
  exact ht

theorem not_hangDue_of_line {s : State} {z : Nat} (hl : lineOf s z ≠ .hang) : ¬hangDue s z = true := fun due =>
  hl (line_of_hangDue due)

theorem Beside.time {z : Nat} {s t : State} (b : Beside z s t) : t.stc.time = s.stc.time ∧ t.stc.phase = s.stc.phase := by
  rw [b.stc]
  exact ⟨rfl, rfl⟩

namespace QuietDone

variable {z : Nat} {s t u : State}

/-- Tests of other zones before it change nothing that a quiet test reads. -/
theorem of_beside (a : Beside z s t) (hz : t.zar = s.zar) (d : QuietDone z t u) : QuietDone z s u := by
  have want := wanted_congr hz a.entry
  have due : hangDue t z = hangDue s z := by
    rw [Bool.eq_iff_iff, hangDue_iff, hangDue_iff, want, lineOf, lineOf, a.entry, a.tick, a.tested]
  exact {
    toZoneFrame := a.toZoneFrame.trans d.toZoneFrame
    entry := by rw [d.entry, quietEntry, quietEntry, a.entry, want, due]
    idle := fun hl hw hh => by
      obtain ⟨T, p, hr, hT⟩ := d.idle (by rwa [lineOf, a.entry]) (by rwa [want]) (by rwa [a.entry])
      rw [a.time.1, a.time.2, a.tick] at hT
      exact ⟨T, p, hr, fun hn hz => hT hn ((a.noted hn).trans hz)⟩
    hung := fun h => by
      have := d.hung (due.trans h)
      rwa [a.tick, a.time.1] at this }

/-- Quiet tests of other zones after it keep its outcome. -/
theorem trans_beside (d : QuietDone z s t) (b : Beside z t u) (q : QuietFrame t u) : QuietDone z s u where
  toZoneFrame := d.toZoneFrame.trans b.toZoneFrame
  entry := b.entry.trans d.entry
  idle hl hw hh := by
    obtain ⟨T, p, hr, hT⟩ := d.idle hl hw hh
    exact ⟨T, p, q.raised _ hr, hT⟩
  hung h := q.raised _ (d.hung h)

/-- Where the quiet test leaves the zone alone. -/
theorem of_same (he : quietEntry s z = tget s.zlc z)
    (hi : ¬(lineOf s z = .live ∧ wanted s z = false)) (hh : ¬hangDue s z = true) : QuietDone z s s where
  toZoneFrame := .refl z s
  entry := he.symm
  idle hl hw _ := absurd ⟨hl, hw⟩ hi
  hung h := absurd h hh

end QuietDone

theorem hangEnd_not_due {s : State} {z : Nat} (h : ¬(z < 48 ∧ hangDue s z = true)) : hangEnd z s = s := if_neg h

/-- The zone makes its quiet test, which tells the arbiter nothing. -/
structure QuietMove (z : Nat) (s t : State) : Prop where
  frame : QuietFrame s t
  tested : zmem t.period.tested z = true
  done : QuietDone z s t

/-- A hang end (R58, R65). -/
theorem hangEnd_due {s : State} {z : Nat} (hz : z < 48) (due : hangDue s z = true) : QuietMove z s (hangEnd z s) := by
  have hl : (tget s.zlc z).line = .hang := line_of_hangDue due
  have own : hangEnd z s = onTick (raiseZoneState z .hang .standby 3 0) (markTested z (modLine z standbyEntry s)) :=
    if_pos ⟨hz, due⟩
  have moved : Tested z (standbyEntry (tget s.zlc z)) s (hangEnd z s) := by
    rw [own]
    exact (Tested.move hz (f := standbyEntry) rfl fun _ => .inl rfl).trans_beside
      (.onTick (Beside.raiseZoneState z z .hang .standby 3 0) _)
  refine ⟨?_, moved.tested, { toZoneFrame := moved.toZoneFrame, entry := ?_, idle := fun live => ?_, hung := fun _ => ?_ }⟩
  · rw [own]
    exact (QuietFrame.move ..).trans (.onTick (.raiseZoneState ..))
  · rw [moved.entry, quietEntry]
    simp only [hl, due, if_true]
  · rw [lineOf, hl] at live; exact absurd live (by decide)
  · rw [own]
    exact raised_raiseZoneState z .hang .standby 3 0 (noticed (markTested z (modLine z standbyEntry s)))

/-- A step of the quiet tests, of one zone. -/
structure QuietStep (y : Nat) (s t : State) : Prop where
  frame : QuietFrame s t
  others : ∀ x, x ≠ y → Beside x s t
  own : t = s ∨ (zmem s.period.tested y = false ∧ QuietMove y s t)

theorem hangEnd_step (s : State) (z : Nat) : QuietStep z s (hangEnd z s) := by
  have others : ∀ x, x ≠ z → Beside x s (hangEnd z s) := fun x hx => Beside.hangEnd s z hx.symm
  by_cases h : z < 48 ∧ hangDue s z = true
  · have moved := hangEnd_due h.1 h.2
    exact ⟨moved.frame, others, .inr ⟨untested_of_hangDue h.2, moved⟩⟩
  · have same := hangEnd_not_due h
    exact ⟨by rw [same]; exact .refl s, others, .inl same⟩

/-- The idle test of a LIVE zone that nothing wants (R57, R65). -/
theorem idleTest_moves {s : State} {z : Nat} (hz : z < 48) (hl : lineOf s z = .live) (hw : wanted s z = false) :
    QuietMove z s (idleTest z s) := by
  have hl' : (tget s.zlc z).line = .live := hl
  have out : PeakLaw z s → (tget s.amt z).peak = 0 := fun p => p.peak.resolve_left (by rw [hl]; decide)
  have nohang : ¬hangDue s z = true := not_hangDue_of_line (by rw [hl]; decide)
  by_cases hh : (tget s.zlc z).hang = 0
  · have own : idleTest z s = raiseZoneState z .live .standby 4 0 (markTested z (modLine z standbyEntry s)) := by
      simp only [idleTest, hw, hh]
      rfl
    have entry : quietEntry s z = standbyEntry (tget s.zlc z) := by simp [quietEntry, hl', hw, hh]
    rw [own]
    have moved := (Tested.move hz (f := standbyEntry) (s := s) rfl fun _ => .inl rfl).trans_beside
      (.raiseZoneState z z .live .standby 4 0 _)
    exact ⟨(QuietFrame.move ..).trans (.raiseZoneState ..), moved.tested, moved.toZoneFrame, moved.entry.trans entry.symm,
      fun _ _ _ => ⟨_, _, raised_raiseZoneState .., fun _ _ => ⟨rfl, rfl⟩⟩, fun due => absurd due nohang⟩
  · have own : idleTest z s = markTested z (modLine z (fun l => { l with line := .hang, hangCount := l.hang }) s) := by
      simp [idleTest, hw, hh]
    have entry : quietEntry s z = { tget s.zlc z with line := .hang, hangCount := (tget s.zlc z).hang } := by
      simp [quietEntry, hl', hw, hh]
    rw [own]
    have moved := Tested.move hz (f := fun l => { l with line := .hang, hangCount := l.hang }) (s := s) rfl
      fun p => .inr (out p)
    exact ⟨.move .., moved.tested, moved.toZoneFrame, moved.entry.trans entry.symm, fun _ _ h => absurd h hh,
      fun due => absurd due nohang⟩

/-- Beside a hang end, a quiet test reads no time. -/
theorem quietEntry_of_zar {s u : State} {z : Nat} (he : u.zlc = s.zlc) (hz : u.zar = s.zar) (hl : lineOf s z ≠ .hang) :
    quietEntry u z = quietEntry s z := by
  have want : wanted u z = wanted s z := wanted_congr hz (by rw [he])
  unfold quietEntry
  simp only
  rw [he, want]
  split
  case h_3 h => exact absurd h hl
  all_goals rfl

/-- The quiet test of a LIVE zone that nothing wants (R57, log 39). -/
theorem quietTest_live {s : State} {z : Nat} (hz : z < 48) (ht : zmem s.period.tested z = false) (hl : lineOf s z = .live)
    (hw : wanted s z = false) : QuietMove z s (quietTest s z) := by
  have own : quietTest s z = lineTest z (idleTest z) s := by
    have hl' : (tget s.zlc z).line = .live := hl
    simp [quietTest, untested, ht, hl']
  have live : ∀ u, u.zlc = s.zlc → lineOf u z = .live := fun u hu => by rw [lineOf, hu]; exact hl
  have unwanted : ∀ u, u.zlc = s.zlc → u.zar = s.zar → wanted u z = false := fun u hu hq => by
    rw [wanted_congr hq (by rw [hu]), hw]
  have moves : ∀ u, u.zlc = s.zlc → u.zar = s.zar → QuietMove z u (idleTest z u) := fun u hu hq =>
    idleTest_moves hz (live u hu) (unwanted u hu hq)
  have moved : Tested z (quietEntry s z) s (quietTest s z) := by
    rw [own]
    refine .lineTest (.idleTest z) (fun u hu hq => ?_) z
    have m := moves u hu hq
    exact ⟨m.done.toZoneFrame, m.done.entry.trans (quietEntry_of_zar hu hq (by rw [hl]; decide)), m.tested⟩
  have nohang : ¬hangDue s z = true := not_hangDue_of_line (by rw [hl]; decide)
  refine ⟨?_, moved.tested, moved.toZoneFrame, moved.entry, fun _ _ hh => ?_, fun due => absurd due nohang⟩
  · rw [own]
    exact .lineTest (fun u hu hq => (moves u hu hq).frame) z
  · rw [own, lineTest]
    by_cases noted : zmem s.period.tickZones z = true
    · rw [if_pos noted]
      obtain ⟨T, p, raised, -⟩ := (moves (noticed s) rfl rfl).done.idle hl (unwanted _ rfl rfl) hh
      exact ⟨T, p, raised, fun _ no => absurd noted (by rw [no]; decide)⟩
    · rw [if_neg noted]
      exact (moves s rfl rfl).done.idle hl hw hh

/-- The quiet test of a STANDBY zone that wakes: its pre-roll is not 0, since no zone waits for an entry to LIVE (R55). -/
theorem quietTest_standby {s : State} {z : Nat} (hz : z < 48) (q : Quiescent s) (ht : zmem s.period.tested z = false)
    (hl : lineOf s z = .standby) (hw : wanted s z = true) : QuietMove z s (quietTest s z) := by
  have hl' : (tget s.zlc z).line = .standby := hl
  have own : quietTest s z = lineTest z (wakeZone z) s := by simp [quietTest, untested, ht, hl', hw]
  have preroll : (tget s.zlc z).preroll ≠ 0 := fun hp => q z hz ((liveDue_iff s z).mpr ⟨ht, hw, .inr ⟨hl, hp⟩⟩)
  have moved : Tested z (quietEntry s z) s (quietTest s z) := by
    rw [own]
    refine .lineTest (.wakeZone z) (fun u hu _ => ?_) z
    have woken := Tested.wakeZone hz u
    rw [hu] at woken
    rwa [show quietEntry s z = wokenEntry (tget s.zlc z) by simp [quietEntry, hl', hw]]
  have nohang : ¬hangDue s z = true := not_hangDue_of_line (by rw [hl]; decide)
  refine ⟨?_, moved.tested, moved.toZoneFrame, moved.entry, fun live => ?_, fun due => absurd due nohang⟩
  · rw [own]
    refine .lineTest (fun u hu _ => ?_) z
    have wakes : wakeZone z u =
        markTested z (modLine z (fun l => { l with line := .waking, wakeCount := l.preroll }) (clearPeak z u)) :=
      if_neg (by rw [clearPeak, State.setAmt_zlc, hu]; exact preroll)
    rw [wakes]
    exact .of_same rfl rfl
  · rw [hl] at live; exact absurd live (by decide)

/-- The rounds and the quiet tests have nothing to do with the zone: its test is made, or it is in OFF, FAULT or WAKING. -/
def LaterIdle (z : Nat) (s : State) : Prop :=
  zmem s.period.tested z = true ∨ lineOf s z = .off ∨ lineOf s z = .fault ∨ lineOf s z = .waking

theorem LaterIdle.beside {z : Nat} {s t : State} (h : LaterIdle z s) (b : Beside z s t) : LaterIdle z t := by
  rwa [LaterIdle, b.tested, lineOf, b.entry]

theorem LaterIdle.not_liveDue {z : Nat} {s : State} (h : LaterIdle z s) : ¬liveDue s z = true := fun due => by
  obtain ⟨ht, -, hl | ⟨hl, -⟩⟩ := (liveDue_iff s z).mp due <;>
  · rw [LaterIdle, ht, lineOf, hl] at h
    exact absurd h (by decide)

/-- The quiet test of a zone it has nothing to do with. -/
theorem quietTest_idle {s : State} {z : Nat} (h : LaterIdle z s) : quietTest s z = s := by
  unfold quietTest
  split
  · next ht =>
    rw [untested_iff] at ht
    rcases h with h | h | h | h
    · rw [h] at ht; exact absurd ht (by decide)
    all_goals rw [show (tget s.zlc z).line = _ from h]
  · rfl

theorem hangEnd_idle {s : State} {z : Nat} (h : LaterIdle z s) : hangEnd z s = s := hangEnd_not_due fun due => by
  rw [LaterIdle, line_of_hangDue due.2, untested_of_hangDue due.2] at h
  exact absurd h (by decide)

/-- The quiet test of a zone, where no zone waits for an entry to LIVE: it moves the zone, or it finds nothing to do. -/
theorem quietTest_cases {s : State} {z : Nat} (hz : z < 48) (q : Quiescent s) (ht : zmem s.period.tested z = false) :
    QuietMove z s (quietTest s z) ∨ (quietTest s z = s ∧ QuietDone z s s) := by
  cases hl : lineOf s z with
  | off | fault | waking =>
    have hl' : (tget s.zlc z).line = _ := hl
    exact .inr ⟨quietTest_idle (by simp [LaterIdle, hl]), .of_same (by simp [quietEntry, hl']) (by simp [hl])
      (not_hangDue_of_line (by simp [hl]))⟩
  | standby =>
    have hl' : (tget s.zlc z).line = .standby := hl
    cases hw : wanted s z with
    | true => exact .inl (quietTest_standby hz q ht hl hw)
    | false => exact .inr ⟨by simp [quietTest, untested, ht, hl', hw], .of_same (by simp [quietEntry, hl', hw]) (by simp [hl])
        (not_hangDue_of_line (by simp [hl]))⟩
  | live =>
    have hl' : (tget s.zlc z).line = .live := hl
    cases hw : wanted s z with
    | false => exact .inl (quietTest_live hz ht hl hw)
    | true =>
      have own : quietTest s z = lineTest z (idleTest z) s := by simp [quietTest, untested, ht, hl']
      have idle : lineTest z (idleTest z) s = s :=
        lineTest_of_same (fun u hu hq => if_pos (by rw [wanted_congr hq (by rw [hu]), hw])) z
      exact .inr ⟨own.trans idle, .of_same (by simp [quietEntry, hl', hw]) (by simp [hw])
        (not_hangDue_of_line (by simp [hl]))⟩
  | hang =>
    have hl' : (tget s.zlc z).line = .hang := hl
    have own : quietTest s z = hangEnd z s := by simp [quietTest, untested, ht, hl']
    by_cases due : hangDue s z = true
    · exact .inl (own ▸ hangEnd_due hz due)
    · exact .inr ⟨own.trans (hangEnd_not_due fun h => due h.2), .of_same (by simp [quietEntry, hl', due]) (by simp [hl]) due⟩

theorem quietTest_step {s : State} (q : Quiescent s) (z : Nat) : QuietStep z s (quietTest s z) := by
  have others : ∀ x, x ≠ z → Beside x s (quietTest s z) := fun x hx => Beside.quietTest s z hx.symm
  have of_same : quietTest s z = s → QuietStep z s (quietTest s z) := fun h => ⟨by rw [h]; exact .refl s, others, .inl h⟩
  cases ht : zmem s.period.tested z with
  | true => exact of_same (quietTest_idle (.inl ht))
  | false =>
    by_cases hz : z < 48
    · rcases quietTest_cases hz q ht with moved | ⟨same, -⟩
      · exact ⟨moved.frame, others, .inr ⟨ht, moved⟩⟩
      · exact of_same same
    · have off : lineOf s z = .off := by rw [lineOf, tget_of_le _ _ (by omega)]; rfl
      exact of_same (quietTest_idle (.inr (.inl off)))

/-! ### The quiet tests of all zones -/

/-- The held hang ends and the quiet tests (log 8). -/
def quietTests (s : State) : State :=
  (List.range 48).foldl quietTest (s.period.heldHangs.foldl (fun s z => hangEnd z s) s)

theorem lineTests_eq (s : State) : lineTests s = quietTests (liveRounds 48 (wakeTests s)) := by
  rw [lineTests, quietTests, wakeTests]

theorem Quiescent.step {s t : State} {y : Nat} (q : Quiescent s) (st : QuietStep y s t) : Quiescent t := fun x hx due => by
  by_cases e : x = y
  · subst e
    rcases st.own with same | ⟨-, moved⟩
    · exact q x hx (same ▸ due)
    · rw [liveDue_iff, moved.tested] at due
      exact absurd due.1 (by decide)
  · have b := st.others x e
    rw [liveDue_congr st.frame.zar b.entry b.tested] at due
    exact q x hx due

/-- What has become of a zone in the course of the quiet tests: it is left, or its test is made. -/
structure QuietSoFar (z : Nat) (s t : State) : Prop where
  frame : QuietFrame s t
  quiescent : Quiescent t
  zone : Beside z s t ∨ (zmem t.period.tested z = true ∧ QuietDone z s t)

theorem QuietSoFar.step {z y : Nat} {s t u : State} (h : QuietSoFar z s t) (st : QuietStep y t u) : QuietSoFar z s u := by
  refine ⟨h.frame.trans st.frame, h.quiescent.step st, ?_⟩
  by_cases e : y = z
  · subst e
    rcases st.own with same | ⟨untest, moved⟩
    · exact same ▸ h.zone
    rcases h.zone with b | ⟨tested, -⟩
    · exact .inr ⟨moved.tested, moved.done.of_beside b h.frame.zar⟩
    · rw [tested] at untest
      exact absurd untest (by decide)
  · have b' := st.others z (Ne.symm e)
    rcases h.zone with b | ⟨tested, d⟩
    · exact .inl (b.trans b')
    · exact .inr ⟨b'.tested.trans tested, d.trans_beside b' st.frame⟩

/-- The quiet tests make the test of every zone that has not made its own. -/
theorem quietTests_done {z : Nat} {s : State} (hz : z < 48) (q : Quiescent s) (ht : zmem s.period.tested z = false) :
    QuietFrame s (quietTests s) ∧ QuietDone z s (quietTests s) := by
  obtain ⟨before, after, split, -, hafter⟩ := range_split hz
  have tests : ∀ (l : List Nat) (t : State), QuietSoFar z s t → QuietSoFar z s (l.foldl quietTest t) :=
    fun l t h => foldl_keeps (QuietSoFar z s) quietTest (fun t y h => h.step (quietTest_step h.quiescent y)) l t h
  have held : QuietSoFar z s (s.period.heldHangs.foldl (fun s z => hangEnd z s) s) :=
    foldl_keeps (QuietSoFar z s) _ (fun t y h => h.step (hangEnd_step t y)) _ s ⟨.refl s, q, .inl (.refl z s)⟩
  rw [quietTests, split, List.foldl_append, List.foldl_cons]
  generalize ha : before.foldl quietTest (s.period.heldHangs.foldl (fun s z => hangEnd z s) s) = a
  have sofar : QuietSoFar z s a := ha ▸ tests before _ held
  have own : QuietSoFar z s (quietTest a z) := sofar.step (quietTest_step sofar.quiescent z)
  have done : QuietDone z s (quietTest a z) := by
    rcases sofar.zone with b | ⟨tested, d⟩
    · rcases quietTest_cases hz sofar.quiescent (b.tested.trans ht) with moved | ⟨same, d⟩
      · exact moved.done.of_beside b sofar.frame.zar
      · rw [same]
        exact d.of_beside b sofar.frame.zar
    · rwa [quietTest_idle (.inl tested)]
  have rest := List.foldlRecOn after quietTest (motive := fun t => QuietSoFar z s t ∧ QuietDone z s t) ⟨own, done⟩
    fun t h y hy => by
      have st := quietTest_step h.1.quiescent y
      exact ⟨h.1.step st, h.2.trans_beside (st.others z fun e => hafter (e ▸ hy)) st.frame⟩
  exact ⟨rest.1.frame, rest.2⟩

theorem quietTests_idle {z : Nat} {s : State} (h : LaterIdle z s) : Beside z s (quietTests s) := by
  have hangs : Beside z s _ := Beside.foldl (f := fun s z => hangEnd z s) Beside.hangEnd
    (fun t b => .of_eq (hangEnd_idle (h.beside b))) s.period.heldHangs
  exact hangs.trans (Beside.foldl Beside.quietTest (fun t b => .of_eq (quietTest_idle (h.beside (hangs.trans b))))
    (List.range 48))

theorem laterTests_idle {z : Nat} {s : State} (h : LaterIdle z s) : Beside z s (quietTests (liveRounds 48 s)) := by
  have rounds : Beside z s (liveRounds 48 s) := liveRounds_beside (fun t b => (h.beside b).not_liveDue) 48
  exact rounds.trans (quietTests_idle (h.beside rounds))

end Sys2Proof.Machine
end

section
/-! The line tests of a frame period, from its first event to its end (R53 to R58). -/

namespace Sys2Proof.Machine

/-! ### The line tests of one zone -/

/-- A zone whose test is made, and one in OFF or FAULT, is left (R53). -/
theorem lineTests_idle {z : Nat} {s : State}
    (h : zmem s.period.tested z = true ∨ lineOf s z = .off ∨ lineOf s z = .fault) : Beside z s (lineTests s) := by
  have wakes : Beside z s (wakeTests s) := wakeTests_beside (by
    rcases h with h | h | h <;> simp [h])
  rw [lineTests_eq]
  refine wakes.trans (laterTests_idle ?_)
  rw [LaterIdle, wakes.tested, lineOf, wakes.entry]
  rcases h with h | h | h
  · exact .inl h
  · exact .inr (.inl h)
  · exact .inr (.inr (.inl h))

/-- A wake that is over ends in LIVE (R56). -/
theorem lineTests_over {z : Nat} {s : State} (hz : z < 48) (h : wakeOver s z = true) :
    Tested z (liveEntry (tget s.zlc z)) s (lineTests s) := by
  have ended := wakeTests_over hz h
  rw [lineTests_eq]
  exact ended.trans_beside (laterTests_idle (.inl ended.tested))

/-- A longer wake goes on (R56). -/
theorem lineTests_waking {z : Nat} {s : State} (hz : z < 48) (ht : zmem s.period.tested z = false)
    (hl : lineOf s z = .waking) (hc : 2 ≤ (tget s.zlc z).wakeCount) : ZoneFrame z s (lineTests s) ∧
      tget (lineTests s).zlc z = { tget s.zlc z with wakeCount := (tget s.zlc z).wakeCount - 1 } := by
  obtain ⟨frame, entry, -⟩ := wakeTests_counts hz hl hc ht
  have later := laterTests_idle (z := z) (s := wakeTests s) (.inr (.inr (.inr (by rw [lineOf, entry]; exact hl))))
  rw [lineTests_eq]
  exact ⟨frame.trans later.toZoneFrame, later.entry.trans entry⟩

/-- Any other zone enters LIVE in the rounds, where it may be wanted, or makes its quiet test on a state whose claim table the frame period leaves, with no entry to LIVE due. -/
theorem lineTests_cases {z : Nat} {s : State} (hz : z < 48) (ht : zmem s.period.tested z = false)
    (hl : lineOf s z ≠ .waking) :
    (liveFrom (tget s.zlc z) ∧ Tested z (liveEntry (tget s.zlc z)) s (lineTests s) ∧
      ¬(Barred .request z s ∧ programmeAwake (tget s.zlc z) = false)) ∨
    ∃ v, Beside z s v ∧ (lineTests s).zar = v.zar ∧ ¬liveDue v z = true ∧ QuietDone z v (lineTests s) := by
  have wakes : Beside z s (wakeTests s) := wakeTests_beside (.inr hl)
  generalize hv : liveRounds 48 (wakeTests s) = v
  have quiescent : Quiescent v := hv ▸ liveRounds_quiescent 48 _ (untestedZones_card_le _)
  have quiet : Beside z s v →
      ∃ v, Beside z s v ∧ (lineTests s).zar = v.zar ∧ ¬liveDue v z = true ∧ QuietDone z v (lineTests s) := fun b => by
    obtain ⟨frame, done⟩ := quietTests_done hz quiescent (b.tested.trans ht)
    rw [lineTests_eq, hv]
    exact ⟨v, b, frame.zar, quiescent z hz, done⟩
  by_cases unwanted : Barred .request z s ∧ programmeAwake (tget s.zlc z) = false
  · refine .inr (quiet ?_)
    rw [← hv]
    refine wakes.trans (liveRounds_beside (fun t b due => ?_) 48)
    have barred := (wakes.trans b).barred unwanted.1
    have want := not_wanted_of_barred barred (by rw [(wakes.trans b).entry]; exact unwanted.2)
    rw [liveDue_iff, want] at due
    exact absurd due.2.1 (by decide)
  · rcases hv ▸ liveRounds_enters hz 48 (wakeTests s) with b | ⟨-, from_, moved⟩
    · exact .inr (quiet (wakes.trans b))
    · rw [wakes.entry] at from_ moved
      refine .inl ⟨from_, ?_, unwanted⟩
      rw [lineTests_eq, hv]
      exact (moved.of_beside wakes).trans_beside (quietTests_idle (.inl moved.tested))

/-! ### The events before the line tests -/

/-- What the events of a frame period keep with regard to a zone, where they may hold a tick end. -/
structure ClockFrame (z : Nat) (ends : Bool) (s t : State) : Prop extends PeriodFrame s t where
  tick : t.period.tick = if ends then some (s.stc.time + 1) else s.period.tick
  noted : ends = false → s.period.tick = none → zmem t.period.tickZones z = zmem s.period.tickZones z
  peak : PeakLaw z s → PeakLaw z t
  barred : Barred .request z s → Barred .request z t

theorem tickDue_iff (s : State) : tickDue s = true ↔
    s.period.tickTaken = false ∧ s.stc.tickLength ≤ s.stc.phase + 1 := by simp [tickDue]

theorem ZoneFrame.tickDue {z : Nat} {s t : State} (a : ZoneFrame z s t) : Machine.tickDue t = Machine.tickDue s := by
  rw [Machine.tickDue, Machine.tickDue, a.taken, a.stc]

theorem ZoneFrame.time {z : Nat} {s t : State} (a : ZoneFrame z s t) : t.stc.time = s.stc.time := by rw [a.stc]

/-- The events before the clock's keep what the clock's events keep. -/
theorem ClockFrame.of_before {z : Nat} {ends : Bool} {s t u : State} (a : ZoneFrame z s t) (b : ClockFrame z ends t u) :
    ClockFrame z ends s u where
  toPeriodFrame := a.toPeriodFrame.trans b.toPeriodFrame
  tick := by rw [b.tick, a.time, a.tick]
  noted he hn := (b.noted he (a.tick.trans hn)).trans (a.noted hn)
  peak := b.peak ∘ a.peak
  barred := b.barred ∘ a.barred

theorem ClockFrame.trans_zone {z : Nat} {ends : Bool} {s t u : State} (a : ClockFrame z ends s t) (b : ZoneFrame z t u) :
    ClockFrame z ends s u where
  toPeriodFrame := a.toPeriodFrame.trans b.toPeriodFrame
  tick := b.tick.trans a.tick
  noted he hn := (b.noted (by rw [a.tick, he]; exact hn)).trans (a.noted he hn)
  peak := b.peak ∘ a.peak
  barred := b.barred ∘ a.barred

/-- The zone table entry after the tick end of a frame period, if it has one (R58). -/
def tickedEntry (ends : Bool) (l : ZoneLine) : ZoneLine := if ends then countHangOf l else l

/-- A tick end counts the hang of the zone and makes no line test (R58, R138). -/
theorem tickEnd_zone {z : Nat} (hz : z < 48) (s : State) : ClockFrame z (tickDue s) s (tickEnd s) ∧
    tget (tickEnd s).zlc z = tickedEntry (tickDue s) (tget s.zlc z) ∧
    zmem (tickEnd s).period.tested z = zmem s.period.tested z := by
  have frame := PeriodFrame.tickEnd s
  cases due : tickDue s with
  | false =>
    have same : tickEnd s = s := if_neg (by rw [due]; decide)
    rw [same]
    exact ⟨⟨.refl s, rfl, fun _ _ => rfl, id, id⟩, rfl, rfl⟩
  | true =>
    obtain ⟨ht, hd⟩ := (tickDue_iff s).mp due
    obtain ⟨u, zones, hu, hspec, -⟩ := tickEnd_spec ht hd
    have a := tickActions_frame (tickShown s)
    rw [← hu] at a
    have zlc : u.zlc = s.zlc.map countHangOf := a.zlc
    have amt : u.amt = s.amt := a.amt
    have entry : tget u.zlc z = countHangOf (tget s.zlc z) := by rw [zlc, tget_map _ _ z hz]
    have line : lineOf u z = lineOf s z := by
      rw [lineOf, entry, countHangOf]
      split <;> rfl
    rw [hspec] at frame ⊢
    refine ⟨{ toPeriodFrame := frame, tick := rfl, noted := nofun, peak := fun p => ?_, barred := fun b => ?_ }, entry, rfl⟩
    · refine ⟨?_, p.unended, ?_⟩
      · show (tget u.amt z).count < 4800
        rw [amt]; exact p.window
      · show lineOf u z = .standby ∨ (tget u.amt z).peak = 0
        rw [line, amt]; exact p.peak
    · have acted : Barred .request z u := hu ▸ (b.of_request rfl rfl : Barred .request z (tickShown s)).tickActions
      refine acted.of_request rfl ?_
      show s.stc.status = u.stc.status
      rw [a.stc]
      rfl

/-- The events of a frame period up to its line tests (log 1). -/
def eventsBeforeTests (s : State) : State := clockEvents (engineEvents (heldWakes (windowEnds (linkEvents s))))

/-- Before the line tests a zone is left but for its hang count, or a held wake end has put it into LIVE. -/
theorem eventsBeforeTests_zone {z : Nat} (hz : z < 48) (s : State) : ClockFrame z (tickDue s) s (eventsBeforeTests s) ∧
    ((tget (eventsBeforeTests s).zlc z = tickedEntry (tickDue s) (tget s.zlc z) ∧
        zmem (eventsBeforeTests s).period.tested z = zmem s.period.tested z) ∨
      (wakeOver s z = true ∧ tget (eventsBeforeTests s).zlc z = liveEntry (tget s.zlc z) ∧
        zmem (eventsBeforeTests s).period.tested z = true)) := by
  have link : Beside z s (linkEvents s) := (Beside.linkLost z s).trans (.linkRecovered z _)
  have windows : Beside z (linkEvents s) (windowEnds (linkEvents s)) := by
    unfold windowEnds
    exact Beside.foldl_all (f := fun s y => windowEnd y s) (Beside.windowEnd z) (List.range 48)
  have before := link.trans windows
  have wakes := heldWakes_enters hz (windowEnds (linkEvents s))
  have engines := Beside.engineEvents z (heldWakes (windowEnds (linkEvents s)))
  unfold eventsBeforeTests
  generalize heldWakes (windowEnds (linkEvents s)) = w at wakes engines ⊢
  have held : ZoneFrame z s (engineEvents w) := by
    rcases wakes with b | ⟨-, -, moved⟩
    · exact ((before.trans b).trans engines).toZoneFrame
    · exact ((moved.of_beside before).trans_beside engines).toZoneFrame
  obtain ⟨clock, entry, tested⟩ := tickEnd_zone hz (engineEvents w)
  have rest : Beside z (tickEnd (engineEvents w)) (clockEvents (engineEvents w)) :=
    (Beside.talkTimeouts z (List.range 96) _).trans (.holdoverEntry z _)
  rw [held.tickDue] at clock entry
  refine ⟨.of_before held (clock.trans_zone rest.toZoneFrame), ?_⟩
  have ends : tget (clockEvents (engineEvents w)).zlc z = tickedEntry (tickDue s) (tget w.zlc z) := by
    rw [rest.entry, entry, engines.entry]
  have test : zmem (clockEvents (engineEvents w)).period.tested z = zmem w.period.tested z :=
    rest.tested.trans (tested.trans engines.tested)
  rcases wakes with b | ⟨untest, waking, moved⟩
  · rw [(before.trans b).entry] at ends
    rw [(before.trans b).tested] at test
    exact .inl ⟨ends, test⟩
  · rw [before.entry] at waking moved
    rw [before.tested] at untest
    rw [moved.entry] at ends
    rw [moved.tested] at test
    refine .inr ⟨(wakeOver_iff s z).mpr ⟨waking, untest⟩, ends.trans ?_, test⟩
    cases tickDue s <;> rfl

/-! ### The frame period -/

/-- The entry of a zone after the tick end keeps its line and its settings. -/
theorem tickedEntry_eq (ends : Bool) (l : ZoneLine) : tickedEntry ends l = { l with
    hangCount := if ends = true ∧ l.line = .hang then l.hangCount - 1 else l.hangCount } := by
  unfold tickedEntry countHangOf
  cases ends
  · simp
  · by_cases h : l.line = .hang <;> simp [h]

theorem tickedEntry_of_not_hang {ends : Bool} {l : ZoneLine} (h : l.line ≠ .hang) : tickedEntry ends l = l := by
  rw [tickedEntry_eq]
  simp [h]

theorem wanted_iff (s : State) (z : Nat) :
    wanted s z = true ↔ claim s z ≠ .empty ∨ programmeAwake (tget s.zlc z) = true := by
  rw [wanted, Bool.or_eq_true, claimHandle_isSome_iff]

/-- What a frame period that takes no cell does to a zone: its events, then its line tests; the end of the period moves no zone. -/
theorem closePeriod_of_no_cell {s : State} (h : s.ch.complete = none) :
    closePeriod s = advancePeriod (lineTests (eventsBeforeTests s)) := by
  rw [closePeriod, takeCell_of_none h, eventsBeforeTests]

section FramePeriod

variable {s w : State} {z : Nat} {l : ZoneLine} (hz : z < 48) (hw : w = lineTests (eventsBeforeTests s))
  (hl : l = tget s.zlc z)
include hz hw hl

/-- A zone whose test is made before the line tests, and one in OFF or FAULT, only counts its hang. -/
theorem framePeriod_idle (h : zmem s.period.tested z = true ∨ l.line = .off ∨ l.line = .fault) :
    tget w.zlc z = tickedEntry (tickDue s) l := by
  obtain ⟨-, ⟨entry, tested⟩ | ⟨ended, -⟩⟩ := eventsBeforeTests_zone hz s
  · rw [← hl] at entry
    rw [hw, (lineTests_idle (z := z) ?_).entry, entry]
    rw [tested, lineOf, entry, tickedEntry_eq]
    exact h
  · obtain ⟨⟨waking, -⟩, untest⟩ := (wakeOver_iff s z).mp ended
    rw [lineOf, ← hl] at waking
    rw [untest, waking] at h
    exact absurd h (by decide)

variable (ht : zmem s.period.tested z = false)
include ht

/-- R56: a wake count of 1 or less ends in LIVE, a longer one decreases by 1. -/
theorem framePeriod_waking (hline : l.line = .waking) :
    tget w.zlc z = if l.wakeCount ≤ 1 then liveEntry l else { l with wakeCount := l.wakeCount - 1 } := by
  have kept : tickedEntry (tickDue s) l = l := tickedEntry_of_not_hang (by simp [hline])
  obtain ⟨-, ⟨entry, tested⟩ | ⟨ended, entry, tested⟩⟩ := eventsBeforeTests_zone hz s
  · rw [← hl, kept] at entry
    rw [ht] at tested
    have waking : lineOf (eventsBeforeTests s) z = .waking := by rw [lineOf, entry, hline]
    by_cases count : l.wakeCount ≤ 1
    · have due : wakeOver (eventsBeforeTests s) z = true := (wakeOver_iff _ z).mpr ⟨⟨waking, by rwa [entry]⟩, tested⟩
      rw [if_pos count, hw, (lineTests_over hz due).entry, entry]
    · obtain ⟨-, counted⟩ := lineTests_waking hz tested waking (by rw [entry]; omega)
      rw [if_neg count, hw, counted, entry]
  · obtain ⟨⟨-, count⟩, -⟩ := (wakeOver_iff s z).mp ended
    rw [← hl] at count entry
    rw [if_pos count, hw, (lineTests_idle (.inl tested)).entry, entry]

variable {want : Bool} (hwant : want = true ↔ claim w z ≠ .empty ∨ (l.keepAwake = true ∧ l.routeLive = true))
include hwant

/-- A zone that does not wake enters LIVE from the state in which the tests find it, or makes its quiet test on a state `v` that wants it as the end of the period does. -/
theorem framePeriod_cases (hline : l.line ≠ .waking) : (PeakLaw z s → PeakLaw z w) ∧
    ((liveFrom (tickedEntry (tickDue s) l) ∧ tget w.zlc z = liveEntry (tickedEntry (tickDue s) l) ∧
      ¬(Barred .request z s ∧ programmeAwake l = false)) ∨
    ∃ v, ClockFrame z (tickDue s) s v ∧ tget v.zlc z = tickedEntry (tickDue s) l ∧ zmem v.period.tested z = false ∧
      wanted v z = want ∧ ¬(want = true ∧ liveFrom (tickedEntry (tickDue s) l)) ∧ QuietDone z v w) := by
  have awake : programmeAwake (tickedEntry (tickDue s) l) = programmeAwake l := by rw [tickedEntry_eq]; rfl
  have ticked : (tickedEntry (tickDue s) l).line = l.line := by rw [tickedEntry_eq]
  obtain ⟨clock, ⟨entry, tested⟩ | ⟨ended, -⟩⟩ := eventsBeforeTests_zone hz s
  case inr =>
    obtain ⟨⟨waking, -⟩, -⟩ := (wakeOver_iff s z).mp ended
    rw [lineOf, ← hl] at waking
    exact absurd waking hline
  rw [← hl] at entry
  rw [ht] at tested
  rcases lineTests_cases hz tested (by rw [lineOf, entry, ticked]; exact hline) with
    ⟨from_, moved, unwanted⟩ | ⟨v, b, zar, undue, done⟩
  · rw [entry] at from_ moved unwanted
    rw [← hw] at moved
    rw [awake] at unwanted
    exact ⟨moved.peak ∘ clock.peak, .inl ⟨from_, moved.entry, fun h => unwanted ⟨clock.barred h.1, h.2⟩⟩⟩
  · rw [← hw] at zar done
    have hv : tget v.zlc z = tickedEntry (tickDue s) l := b.entry.trans entry
    have wants : wanted v z = want := by
      rw [Bool.eq_iff_iff, wanted_iff, hwant, hv, awake, programmeAwake, Bool.and_eq_true, claim, claim, zar]
    refine ⟨done.peak ∘ b.peak ∘ clock.peak, .inr ⟨v, clock.trans_zone b.toZoneFrame, hv, b.tested.trans tested, wants, ?_, done⟩⟩
    rintro ⟨h, from_⟩
    exact undue ((liveDue_iff v z).mpr ⟨b.tested.trans tested, wants.trans h, hv ▸ from_⟩)

/-- R55: a wanted STANDBY zone wakes; a holder that comes and goes within the tests may leave one with a pre-roll of 0 in LIVE. -/
theorem framePeriod_standby (hline : l.line = .standby) :
    (l.preroll = 0 ∧ tget w.zlc z = liveEntry l) ∨
      (¬(want = true ∧ l.preroll = 0) ∧ tget w.zlc z = if want then wokenEntry l else l) := by
  obtain ⟨-, outcome⟩ := framePeriod_cases hz hw hl ht hwant (by simp [hline])
  rw [tickedEntry_of_not_hang (by simp [hline])] at outcome
  rcases outcome with ⟨from_, entry, -⟩ | ⟨v, -, hv, -, wants, undue, done⟩
  · exact .inl ⟨by simpa [liveFrom, hline] using from_, entry⟩
  · refine .inr ⟨fun ⟨h, hp⟩ => undue ⟨h, .inr ⟨hline, hp⟩⟩, ?_⟩
    rw [done.entry, quietEntry]
    simp only [hv, hline, wants]

/-- R57: a LIVE zone that nothing wants enters HANG, or STANDBY with a hang of 0. -/
theorem framePeriod_live (hline : l.line = .live) : tget w.zlc z =
    if want then l else if l.hang = 0 then standbyEntry l else { l with line := .hang, hangCount := l.hang } := by
  obtain ⟨-, ⟨from_, -⟩ | ⟨v, -, hv, -, wants, -, done⟩⟩ := framePeriod_cases hz hw hl ht hwant (by simp [hline])
  · rw [tickedEntry_of_not_hang (by simp [hline])] at from_
    exact absurd from_ (by simp [liveFrom, hline])
  · rw [tickedEntry_of_not_hang (by simp [hline])] at hv
    rw [done.entry, quietEntry]
    simp only [hv, hline, wants]

/-- R57, R65: the entry of a LIVE zone to STANDBY raises ZONE_STATE, stamped with the frame period where no tick ends (log 39). -/
theorem framePeriod_live_raised (hline : l.line = .live) (h : want = false) (hh : l.hang = 0) :
    ∃ T p, Raised (zoneStateEvent z .live .standby 4 0 T p) w ∧
      (s.period.tick = none → zmem s.period.tickZones z = false → tickDue s = false →
        T = s.stc.time ∧ p = s.stc.phase) := by
  obtain ⟨-, ⟨from_, -⟩ | ⟨v, clock, hv, -, wants, -, done⟩⟩ := framePeriod_cases hz hw hl ht hwant (by simp [hline])
  · rw [tickedEntry_of_not_hang (by simp [hline])] at from_
    exact absurd from_ (by simp [liveFrom, hline])
  · rw [tickedEntry_of_not_hang (by simp [hline])] at hv
    obtain ⟨T, p, raised, stamp⟩ := done.idle (by rw [lineOf, hv, hline]) (wants.trans h) (by rw [hv]; exact hh)
    refine ⟨T, p, raised, fun hn hz ends => ?_⟩
    have tick : v.period.tick = none := by rw [clock.tick, ends]; exact hn
    rw [clock.stc] at stamp
    exact stamp tick ((clock.noted ends hn).trans hz)

/-- R58: a wanted zone in HANG goes back to LIVE. -/
theorem framePeriod_hang_wanted (hline : l.line = .hang) (h : want = true) : tget w.zlc z = liveEntry l := by
  have ticked : (tickedEntry (tickDue s) l).line = .hang := by rw [tickedEntry_eq]; exact hline
  obtain ⟨-, ⟨-, entry, -⟩ | ⟨v, -, -, -, -, undue, -⟩⟩ := framePeriod_cases hz hw hl ht hwant (by simp [hline])
  · rw [entry, tickedEntry_eq]
    rfl
  · exact absurd ⟨h, .inl ticked⟩ undue

/-- R58: a zone in HANG that nothing wants throughout enters STANDBY at the tick end at which its hang count is 0. -/
theorem framePeriod_hang_unwanted (hline : l.line = .hang) (h : want = false) (b : Barred .request z s) {count : Nat}
    (hcount : count = if tickDue s then l.hangCount - 1 else l.hangCount) {tick : Option Time}
    (htick : tick = if tickDue s then some (s.stc.time + 1) else s.period.tick) :
    (∀ T, tick = some T → count = 0 → tget w.zlc z = { l with line := .standby, hangCount := 0 } ∧
      Raised (zoneStateEvent z .hang .standby 3 0 T 0) w) ∧
    (count ≠ 0 ∨ tick = none → tget w.zlc z = { l with hangCount := count }) := by
  have ticked : tickedEntry (tickDue s) l = { l with hangCount := count } := by
    rw [tickedEntry_eq, hcount]
    simp [hline]
  have asleep : programmeAwake l = false := by
    have := (not_iff_not.mpr hwant).mp (by simp [h])
    rw [not_or] at this
    simpa [programmeAwake] using this.2
  obtain ⟨-, outcome⟩ := framePeriod_cases hz hw hl ht hwant (by simp [hline])
  rw [ticked] at outcome
  rcases outcome with ⟨-, -, unwanted⟩ | ⟨v, clock, hv, untest, wants, -, done⟩
  · exact absurd ⟨b, asleep⟩ unwanted
  · rw [h] at wants
    have due : hangDue v z = true ↔ count = 0 ∧ tick.isSome = true := by
      rw [hangDue_iff, lineOf, hv, clock.tick, ← htick]
      simp [hline, untest, wants]
    have entry : tget w.zlc z = if hangDue v z then standbyEntry { l with hangCount := count } else { l with hangCount := count } := by
      rw [done.entry, quietEntry]
      simp only [hv, hline]
    refine ⟨fun T hT hc => ?_, fun no => ?_⟩
    · have ends : hangDue v z = true := due.mpr ⟨hc, by rw [hT]; rfl⟩
      have raised := done.hung ends
      rw [clock.tick, ← htick, hT] at raised
      refine ⟨?_, raised⟩
      rw [entry, if_pos ends, hc]
      rfl
    · rw [entry, if_neg]
      rw [due]
      rintro ⟨hc, hs⟩
      rcases no with no | no
      · exact no hc
      · rw [no] at hs; exact absurd hs (by decide)

end FramePeriod

/-- A zone without a holder, which no record asks for, is barred while the clock is UNSET (R157). -/
theorem barred_of_unset {s : State} {z : Nat} (hc : claim s z = .empty) (hu : s.stc.status = .unset)
    (hr : ∀ h, h < 96 → zmem (request s h).requested z = false) : Barred .request z s where
  empty := hc
  line w := nomatch w
  idle _ := (schedulerRuns_eq_false_iff s).mpr hu
  unasked _ h := by
    by_cases hh : h < 96
    · exact hr h hh
    · rw [request, tget_of_le _ h (by omega)]
      exact zmem_zero z

/-- Settles O34: the frame period without a cell, by the line state in which its tests find the zone. -/
theorem theFramePeriodMakesTheLineTests : Obligations.TheFramePeriodMakesTheLineTests := by
  intro s z l hcomplete hs hz hl
  generalize hw : lineTests (eventsBeforeTests s) = w
  refine ⟨advancePeriod w, ?_, fun ht => ?_, fun hidle => ?_, fun ht want ends count hwant hends hcount => ?_⟩
  · rw [exec_framePeriod_whole, startPeriod_of_started hs, closePeriod_of_no_cell hcomplete, hw]
  · show (tget w.zlc z).line = l.line
    rw [framePeriod_idle hz hw.symm hl (.inl ht), tickedEntry_eq]
  · show tget w.zlc z = l
    rw [framePeriod_idle hz hw.symm hl (.inr hidle), tickedEntry_of_not_hang (by rcases hidle with h | h <;> simp [h])]
  have hwant' : want = true ↔ claim w z ≠ .empty ∨ (l.keepAwake = true ∧ l.routeLive = true) := hwant
  obtain rfl : ends = tickDue s := by rw [Bool.eq_iff_iff, hends, tickDue_iff]
  have standby := framePeriod_standby hz hw.symm hl ht hwant'
  have waking := framePeriod_waking hz hw.symm hl ht
  have live := framePeriod_live hz hw.symm hl ht hwant'
  refine ⟨fun h hp => ?_, fun h hp wants => ?_, fun h hp => ?_, fun h left hc hn => ?_, fun h hc => ?_, fun h hc => ?_,
    fun h wants => ?_, fun h hwf hh => ?_, fun h hwf hh => ?_,
    fun h => framePeriod_hang_wanted hz hw.symm hl ht hwant' h, fun h hwf hc hu hr => ?_⟩
  · obtain ⟨none_, -⟩ | ⟨-, entry⟩ := standby h
    · exact absurd none_ (by omega)
    · rwa [wokenEntry, if_neg (by omega : ¬l.preroll = 0)] at entry
  · obtain ⟨-, entry⟩ | ⟨no, -⟩ := standby h
    · exact entry
    · exact absurd ⟨wants, hp⟩ no
  · obtain ⟨-, entry⟩ | ⟨no, entry⟩ := standby h
    · exact .inr entry
    · rw [if_neg fun wants => no ⟨wants, hp⟩] at entry
      exact .inl entry
  · have law : PeakLaw z s := ⟨hc, hn, .inl (by rw [lineOf, ← hl]; exact h)⟩
    obtain ⟨peak, -⟩ := framePeriod_cases hz hw.symm hl ht hwant' (by simp [h])
    exact (peak law).peak.resolve_left left
  · exact (waking h).trans (if_neg (by omega))
  · exact (waking h).trans (if_pos hc)
  · exact (live h).trans (if_pos wants)
  · rw [hwf, if_neg (by decide), if_neg (by omega)] at live
    exact live h
  · rw [hwf, if_neg (by decide), if_pos hh] at live
    obtain ⟨T, p, lost | mem, stamp⟩ := framePeriod_live_raised hz hw.symm hl ht hwant' h hwf hh
    · exact ⟨live h, .inl lost⟩
    · exact ⟨live h, .inr ⟨T, p, mem, stamp⟩⟩
  · obtain ⟨ends, stays⟩ := framePeriod_hang_unwanted hz hw.symm hl ht hwant' h hwf (barred_of_unset hc hu hr) hcount rfl
    refine ⟨fun T h1 h2 h0 => ends T ?_ h0, fun no => stays (no.imp id fun n => ?_)⟩
    · cases e : tickDue s with
      | true => rw [h1 e]; rfl
      | false => exact h2 e
    · rw [n.1]
      exact n.2

end Sys2Proof.Machine
end

section
/-! The level of every request record stays in range through what the arbiter and the scheduler do (R24, Table 5.1): an action writes a record with the level that it holds or frees it, and the scheduler admits at unity (R73). -/

namespace Sys2Proof.Machine

/-- The level of every request record is in range: what `MixerLegal` says of the arbiter. -/
structure LevelsInRange (s : State) : Prop where
  level : ∀ h, (request s h).level ≤ 65535

theorem releaseEngine_requests (e : Nat) (s : State) : (releaseEngine e s).zar.requests = s.zar.requests := by
  simp only [releaseEngine]
  split <;> rfl

theorem releaseEngine?_requests (e : Option Nat) (s : State) : (releaseEngine? e s).zar.requests = s.zar.requests := by
  cases e
  · rfl
  · exact releaseEngine_requests ..

/-- Of the records, an end frees its own and touches no other (R84). -/
theorem endRequest_requests (h : Nat) (c : EndCause) (s : State) :
    (endRequest h c s).zar.requests = tset s.zar.requests h freeRequest := by
  simp only [endRequest, needPass, State.setWork_zar, setRequest, State.setZar_zar, Barred.tellScheduler_zar, unuseBanks,
    State.setCmc_zar, raiseEnded, pushEvent_zar, dequeue, releaseEngine?_requests, writeClaims]

namespace LevelsInRange

variable {s t : State}

/-- Without a record there is no level. -/
theorem of_lt (b : ∀ h, h < 96 → (request s h).level ≤ 65535) : LevelsInRange s where
  level h := by
    by_cases hh : h < 96
    · exact b h hh
    · rw [request, tget_of_le _ h (by omega)]
      exact Nat.zero_le _

theorem of_requests (b : LevelsInRange s) (hr : t.zar.requests = s.zar.requests) : LevelsInRange t where
  level h := by
    rw [request, hr]
    exact b.level h

theorem of_zar (b : LevelsInRange s) (hz : t.zar = s.zar) : LevelsInRange t := b.of_requests (by rw [hz])

theorem foldl {α : Type} {f : State → α → State} (hf : ∀ s a, LevelsInRange s → LevelsInRange (f s a)) (l : List α)
    (b : LevelsInRange s) : LevelsInRange (l.foldl f s) := foldl_keeps _ f hf l s b

/-! ### Updates of the arbiter -/

theorem setRequest_of (b : LevelsInRange s) (h : Nat) {r : Request} (hr : r.level ≤ 65535) :
    LevelsInRange (Machine.setRequest h r s) where
  level k := by
    rw [request_setRequest]
    split
    · exact hr
    · exact b.level k

/-- A record that keeps its level. -/
theorem setRequest (b : LevelsInRange s) (h : Nat) {r : Request} (hr : r.level = (request s h).level := by rfl) :
    LevelsInRange (Machine.setRequest h r s) := b.setRequest_of h (hr ▸ b.level h)

theorem writeClaims (b : LevelsInRange s) (zs : ZoneSet) (c : Claim) : LevelsInRange (Machine.writeClaims zs c s) :=
  b.of_requests rfl

theorem pushEvent (b : LevelsInRange s) (kind cause : Byte) (n : Nat) (d : List Field) :
    LevelsInRange (Machine.pushEvent kind cause n d s) := b.of_zar (pushEvent_zar ..)

theorem setEngine (b : LevelsInRange s) (e : Nat) (x : Engine) : LevelsInRange (Machine.setEngine e x s) := b.of_zar rfl

theorem setWork (b : LevelsInRange s) (w : Work) : LevelsInRange (s.setWork w) := b.of_zar rfl

theorem releaseEngine (b : LevelsInRange s) (e : Nat) : LevelsInRange (Machine.releaseEngine e s) :=
  b.of_requests (releaseEngine_requests ..)

/-! ### Ends, joins and losses of zones (R79 to R84) -/

theorem endRequest (b : LevelsInRange s) (h : Nat) (c : EndCause) : LevelsInRange (Machine.endRequest h c s) :=
  (b.setRequest_of h (r := freeRequest) (Nat.zero_le _)).of_requests (endRequest_requests h c s)

theorem enterEnding (b : LevelsInRange s) (h : Nat) (o : EndingOutcome) : LevelsInRange (Machine.enterEnding h o s) := by
  unfold Machine.enterEnding
  simp only
  split
  · exact (b.setRequest h).setEngine ..
  · exact b.setRequest h

theorem endLive (b : LevelsInRange s) (h : Nat) (c : EndCause) : LevelsInRange (Machine.endLive h c s) := by
  unfold Machine.endLive
  split
  · exact b.endRequest ..
  · exact b.enterEnding ..

theorem joinLive (b : LevelsInRange s) (h : Nat) : LevelsInRange (Machine.joinLive h s) := by
  have joined := b.writeClaims (pendingLive s h) (.joined h)
  unfold Machine.joinLive
  simp only
  split
  · exact b
  · split
    · exact (joined.setRequest h).pushEvent ..
    · exact joined

theorem joinLane (b : LevelsInRange s) (h : Nat) : LevelsInRange (Machine.joinLane h s) := by
  unfold Machine.joinLane
  simp only
  split
  · exact b.joinLive h
  · exact b

theorem leavePreroll (b : LevelsInRange s) (e : Nat) : LevelsInRange (Machine.leavePreroll e s) := by
  unfold Machine.leavePreroll
  simp only
  repeat' split
  · exact b
  · exact b.endRequest ..
  · exact (b.setEngine ..).joinLive _
  · exact b

theorem testEngine (b : LevelsInRange s) (e : Option Nat) : LevelsInRange (Machine.testEngine e s) := by
  cases e
  · exact b
  · exact b.leavePreroll _

theorem displace (b : LevelsInRange s) (h : Nat) (c : RemovalCause) : LevelsInRange (Machine.displace h c s) := by
  unfold Machine.displace
  simp only
  split
  · exact b.enterEnding ..
  · exact b.endRequest ..

theorem unwait (b : LevelsInRange s) (e : Option Nat) (zs : ZoneSet) : LevelsInRange (Machine.unwait e zs s) := by
  refine b.of_zar ?_
  unfold Machine.unwait
  split
  · simp only
    split <;> rfl
  · rfl

theorem loseZones (b : LevelsInRange s) (h : Nat) (zs : ZoneSet) (c : RemovalCause) (k : Option Nat) :
    LevelsInRange (Machine.loseZones h zs c k s) := by
  have lost := (((b.writeClaims zs .empty).setRequest h
    (r := withPartial { request s h with granted := zdiff (request s h).granted zs })).unwait (request s h).engine zs).pushEvent
      0x05 (BitVec.ofNat 8 (removalCode c)) h [f1? k, fZones zs, fZones (zdiff (request s h).granted zs)]
  unfold Machine.loseZones
  simp only
  split
  · exact lost.displace ..
  · exact lost.testEngine _

/-! ### The arbitration pass (R75 to R78) -/

theorem grant (b : LevelsInRange s) (h : Nat) (zs : ZoneSet) (bind : Bool) : LevelsInRange (Machine.grant h zs bind s) := by
  have taken : ∀ r : Request, r.level = (request s h).level → ∀ ks : List (Nat × ZoneSet), LevelsInRange
      (Machine.writeClaims zs (.pendingJoin h) (ks.foldl (fun s k => Machine.loseZones k.1 k.2 .preemption (some h) s)
        (Machine.setRequest h r (dequeue h s)))) := fun r hr ks =>
    (foldl (fun s k b => b.loseZones k.1 k.2 .preemption (some h)) ks
      ((b.of_requests (t := dequeue h s) rfl).setRequest h hr)).writeClaims ..
  unfold Machine.grant
  simp only
  split
  · exact (((taken _ (by rfl) _).setRequest h).setEngine ..).joinLane h
  · exact (taken _ (by rfl) _).joinLane h

theorem stopVictim (b : LevelsInRange s) : LevelsInRange (Machine.stopVictim s) := by
  unfold Machine.stopVictim
  split
  · exact b
  · split
    · exact b
    · exact (b.enterEnding ..).of_requests rfl

theorem walkRequest {p : State × Bool} (b : LevelsInRange p.1) (h : Nat) : LevelsInRange (Machine.walkRequest p h).1 := by
  unfold Machine.walkRequest
  simp only
  repeat' split
  all_goals first | exact b | exact b.grant .. | exact b.stopVictim

theorem waitingWalk (b : LevelsInRange s) : LevelsInRange (Machine.waitingWalk s) :=
  foldl_keeps (fun p : State × Bool => LevelsInRange p.1) Machine.walkRequest (fun _ h b => b.walkRequest h) _ (s, false) b

theorem addWait (b : LevelsInRange s) (e : Option Nat) (zs : ZoneSet) : LevelsInRange (Machine.addWait e zs s) := by
  refine b.of_zar ?_
  unfold Machine.addWait
  split
  · simp only
    split <;> rfl
  · rfl

theorem lateJoin (s : State) (h : Nat) (b : LevelsInRange s) : LevelsInRange (Machine.lateJoin s h) := by
  unfold Machine.lateJoin
  simp only
  split
  · exact b
  · split
    · exact b
    · exact (((b.writeClaims ..).setRequest h).addWait ..).joinLane h

theorem pass (b : LevelsInRange s) : LevelsInRange (Machine.pass s) :=
  (foldl lateJoin _ (b.setWork _).waitingWalk).setWork _

theorem prerollTests (b : LevelsInRange s) : LevelsInRange (Machine.prerollTests s) :=
  foldl (fun _ e b => b.leavePreroll e) _ b

theorem passes (n : Nat) (b : LevelsInRange s) : LevelsInRange (Machine.passes n s) := by
  induction n generalizing s with
  | zero => exact b
  | succ n ih =>
    unfold Machine.passes
    split
    · exact ih b.pass.prerollTests
    · exact b

/-! ### Boundaries and fade ends (R86, R104, R108) -/

theorem takeBoundary (b : LevelsInRange s) (e h i : Nat) : LevelsInRange (Machine.takeBoundary e h i s) := by
  have continued : ∀ {u}, LevelsInRange u → LevelsInRange (continueList e h i u) := fun c => by
    unfold continueList
    simp only
    split
    · exact c.setEngine ..
    · exact (c.setEngine ..).pushEvent ..
  unfold Machine.takeBoundary
  split
  · exact b.endRequest ..
  · simp only
    repeat' split
    · exact (((b.joinLive h).setRequest h).releaseEngine e).setWork _
    · exact (b.joinLive h).endRequest ..
    · exact continued (b.joinLive h)

theorem boundary (b : LevelsInRange s) (e : Nat) : LevelsInRange (Machine.boundary e s) := by
  unfold Machine.boundary
  simp only
  split
  · exact b.takeBoundary ..
  · exact b

theorem requeue (b : LevelsInRange s) (h : Nat) : LevelsInRange (Machine.requeue h s) := by
  have left : LevelsInRange (releaseEngine? (request s h).engine (Machine.writeClaims (claimedZones s h) .empty s)) :=
    b.of_requests (releaseEngine?_requests ..)
  have queued : ∀ r : Request, r.level = (request s h).level → LevelsInRange (enqueue h (Machine.setRequest h r
      (releaseEngine? (request s h).engine (Machine.writeClaims (claimedZones s h) .empty s)))) := fun r hr =>
    (left.setRequest_of h (hr ▸ b.level h)).of_requests rfl
  exact ((queued _ (by rfl)).pushEvent ..).setWork _

theorem takeOutcome (b : LevelsInRange s) (h : Nat) : LevelsInRange (Machine.takeOutcome h s) := by
  unfold Machine.takeOutcome
  simp only
  repeat' split
  · exact b.endRequest ..
  · exact b.endRequest ..
  · exact b.endRequest ..
  · exact b.requeue h
  · exact b

theorem endFade (b : LevelsInRange s) (e : Nat) : LevelsInRange (Machine.endFade e s) := by
  unfold Machine.endFade
  simp only
  repeat' split
  · exact ((b.takeOutcome _).releaseEngine e).setWork _
  · exact (b.releaseEngine e).setWork _
  · exact b

/-! ### The scheduler (R73, R157 to R170) -/

theorem admitRecord (b : LevelsInRange s) (h : Nat) {r : Request} (hr : r.level ≤ 65535) :
    LevelsInRange (Machine.admitRecord h r s) :=
  (b.setRequest_of h (r := { r with state := .waiting, order := s.zar.nextOrder }) hr).of_requests rfl

/-- The scheduler's requests sound at unity (R73). -/
theorem schedulerAdmit (b : LevelsInRange s) (r : Request) {record : Nat → State → State}
    (hr : ∀ h s, LevelsInRange s → LevelsInRange (record h s)) : LevelsInRange (Machine.schedulerAdmit r record s).1 := by
  unfold Machine.schedulerAdmit
  simp only
  repeat' split
  · exact b
  · exact b
  · exact b
  · exact b
  · exact (passes passBound (hr _ _ ((b.setWork _).admitRecord _ (Nat.le_of_ble_eq_true rfl)))).setWork _

theorem missTrigger (b : LevelsInRange s) (k i r : Nat) : LevelsInRange (Machine.missTrigger k i r s) :=
  b.of_zar (pushEvent_zar ..)

theorem openCall (b : LevelsInRange s) (k : Nat) : LevelsInRange (Machine.openCall k s) := by
  unfold Machine.openCall
  simp only
  split
  · exact b.of_zar (pushEvent_zar ..)
  · exact b

theorem fireTrigger (b : LevelsInRange s) (k i : Nat) (t : Trigger) (f : Time) :
    LevelsInRange (Machine.fireTrigger k i t f s).1 := by
  unfold Machine.fireTrigger
  simp only
  split
  · exact b.missTrigger ..
  · next x _ =>
    have admitted := b.schedulerAdmit (triggerRequest s k i t x) (record := recordFired k i) fun _ _ c => c.of_zar rfl
    split
    · next e => rw [e] at admitted; exact admitted.openCall k
    · next e => rw [e] at admitted; exact admitted.missTrigger ..
    · next e => rw [e] at admitted; exact admitted.missTrigger ..
    · next e =>
      rw [e] at admitted
      split
      · exact admitted
      · exact admitted.missTrigger ..

theorem takeTrigger (b : LevelsInRange s) (k i : Nat) : LevelsInRange (Machine.takeTrigger k i s) := by
  unfold Machine.takeTrigger
  simp only
  split
  · exact b
  · next t _ =>
    have fired := b.fireTrigger k i t (callTrigger (tget s.csc.calls k) i).fire
    repeat' split
    · exact b.missTrigger ..
    · exact b
    · next e => rw [e] at fired; exact fired.setWork _
    · next e => rw [e] at fired; exact fired
    · next e => rw [e] at fired; exact fired

theorem firePeriodic (b : LevelsInRange s) (i : Nat) : LevelsInRange (Machine.firePeriodic i s) := by
  have skips : ∀ {u}, LevelsInRange u → LevelsInRange (skipPeriodic i u) := fun c => c.of_zar rfl
  unfold Machine.firePeriodic
  simp only
  split
  · exact skips b
  · split
    · exact skips b
    · next x _ =>
      have admitted := b.schedulerAdmit (periodicRequest (tget s.csc.periodics i) x i) (record := recordPeriodic i)
        fun _ _ c => c.of_zar rfl
      split
      · next e => rw [e] at admitted; exact admitted
      all_goals next e => rw [e] at admitted; exact skips admitted

theorem takeEntry (s : State) (e : DueEntry) (b : LevelsInRange s) : LevelsInRange (Machine.takeEntry s e) := by
  unfold Machine.takeEntry
  split
  · exact b.takeTrigger ..
  · exact (b.firePeriodic _).of_zar rfl

theorem walk (b : LevelsInRange s) : LevelsInRange (Machine.walk s) := foldl takeEntry _ b

theorem settleFor (n : Nat) (b : LevelsInRange s) : LevelsInRange (Machine.settleFor n s) := by
  induction n generalizing s with
  | zero => exact b
  | succ n ih =>
    unfold Machine.settleFor
    split
    · simp only
      split
      · exact ih (b.setWork _).walk
      · exact ih (b.setWork _)
    · split
      · exact ih b.pass.prerollTests
      · exact b

/-- What an action brings about. -/
theorem settle (b : LevelsInRange s) : LevelsInRange (Machine.settle s) := b.settleFor _

theorem endAll {f : Nat → State → State} (hf : ∀ h s, LevelsInRange s → LevelsInRange (f h s)) (hs : List Nat)
    (b : LevelsInRange s) : LevelsInRange (Machine.endAll f hs s) := by
  unfold Machine.endAll
  split
  · exact b
  · exact (foldl (fun s h b => hf h s b) hs b).settle

theorem supersede (b : LevelsInRange s) (k : Nat) (p : CallTrigger → Bool) : LevelsInRange (Machine.supersede k p s) := by
  refine of_zar (foldl (fun u i c => ?_) (List.range (tget s.csc.calls k).triggers.length) b) rfl
  split
  · exact c
  · exact c.of_zar rfl

theorem closeCall (s : State) (k : Nat) (b : LevelsInRange s) : LevelsInRange (Machine.closeCall s k) := by
  unfold Machine.closeCall
  simp only
  split
  · exact (b.supersede k _).of_zar (pushEvent_zar ..)
  · exact b

theorem schedulerNotice (b : LevelsInRange s) : LevelsInRange (Machine.schedulerNotice s) := by
  unfold Machine.schedulerNotice
  split
  · exact foldl closeCall _ b.walk.settle
  · exact b

theorem expireAll (b : LevelsInRange s) : LevelsInRange (Machine.expireAll s) := endAll (fun h _ b => b.endRequest h _) _ b

theorem fireSpecial (b : LevelsInRange s) (k i : Nat) : LevelsInRange (Machine.fireSpecial k i s).1 := by
  unfold Machine.fireSpecial
  simp only
  split
  · exact b
  · next t _ =>
    have fired := b.fireTrigger k i t (now s).1
    repeat' split
    · exact b
    · exact b.pushEvent ..
    · exact b.missTrigger ..
    all_goals next e => rw [e] at fired; exact fired.settle

/-! ### Commands and reports to the arbiter (R64, R82, R91, R92) -/

theorem withdraw (b : LevelsInRange s) (h : Nat) : LevelsInRange (Machine.withdraw h s) := by
  unfold Machine.withdraw
  split
  · exact b.endRequest ..
  · exact b

theorem cancelRequest (b : LevelsInRange s) (h : Nat) : LevelsInRange (Machine.cancelRequest h s) := by
  unfold Machine.cancelRequest
  simp only
  repeat' split
  · exact b.endRequest ..
  · exact b.setRequest h
  · exact b.setRequest h
  · exact b.setRequest h
  · exact b
  · exact b

theorem releaseRequest (b : LevelsInRange s) (k : Nat) (hard : Bool) : LevelsInRange (Machine.releaseRequest k hard s) := by
  unfold Machine.releaseRequest
  simp only
  repeat' split
  · exact b.endRequest ..
  · exact b.enterEnding ..
  · exact b.enterEnding ..
  · exact b
  · exact b.setRequest k

theorem reportLive (b : LevelsInRange s) (z : Nat) : LevelsInRange (Machine.reportLive z s) := by
  have tested : ∀ {u}, LevelsInRange u → LevelsInRange (testWaiting z u) := fun c =>
    foldl (fun u e c => by split; exacts [c.leavePreroll e, c]) _ c
  unfold Machine.reportLive
  simp only
  refine (tested ?_).settle
  split
  · exact b.joinLane _
  · exact b
  · exact b

theorem zoneLost (b : LevelsInRange s) (z : Nat) (c : RemovalCause) : LevelsInRange (Machine.zoneLost z c s) := by
  unfold Machine.zoneLost
  simp only
  refine (setWork ?_ _).settle
  split
  · exact b
  · exact b.loseZones ..

theorem countTalk (b : LevelsInRange s) : LevelsInRange (Machine.countTalk s) := of_lt fun h hh => by
  have same : (countTalkOf (request s h)).level = (request s h).level := by
    unfold countTalkOf
    split <;> rfl
  rw [show request (Machine.countTalk s) h = countTalkOf (request s h) from tget_map _ _ h hh, same]
  exact b.level h

/-- ANNOUNCE gives its record the level of its cell (R72). -/
theorem announceRequest_level {a : AnnounceFields} {tag : Byte} {s : State} {r : Request}
    (h : announceRequest a tag s = some r) : r.level = a.level.toNat := by
  unfold announceRequest at h
  split at h
  · cases h
    unfold announceLive
    simp only
    split
    · rfl
    · split <;> rfl
  · obtain ⟨x, -, rfl⟩ := Option.map_eq_some_iff.mp h
    rfl

end LevelsInRange

end Sys2Proof.Machine
end

section
/-! The laws of zone lines, mixer, tracker and ambient lanes as one preorder on states (Sections 2.3, 3.1 and 4.1, R11): first how each block's own updates keep one entry legal, then what the shared operations and the events of a frame period keep. -/

namespace Sys2Proof.Machine

/-! ### One entry of the zone table (R55 to R63, R67) -/

namespace LineConsistent

variable {l : ZoneLine}

/-- In a line state that a grant finds usable the zone is enabled and has no fault code. -/
theorem of_usable (c : LineConsistent l) (h : usableLine l.line = true) : l.enable = true ∧ l.faultCode = 0 := by
  have off : l.line ≠ .off := fun e => by rw [e] at h; exact absurd h (by decide)
  have fault : l.line ≠ .fault := fun e => by rw [e] at h; exact absurd h (by decide)
  exact ⟨by simpa using mt c.enable.mp off, c.fault fault⟩

theorem liveEntry (c : LineConsistent l) (h : usableLine l.line = true) : LineConsistent (liveEntry l) where
  enable := iff_of_false (by simp [Machine.liveEntry, (c.of_usable h).1]) nofun
  wake _ := rfl
  waking := nofun
  hangs _ := rfl
  fault _ := (c.of_usable h).2

/-- A STANDBY zone that wakes with a pre-roll counts it in WAKING (R55). -/
theorem wakingEntry (c : LineConsistent l) (h : l.line = .standby) (hp : l.preroll ≠ 0) :
    LineConsistent { l with line := .waking, wakeCount := l.preroll } where
  enable := iff_of_false (by simp [(c.of_usable (by rw [h]; rfl)).1]) nofun
  wake h := absurd rfl h
  waking _ := Nat.one_le_iff_ne_zero.mpr hp
  hangs _ := c.hangs (by rw [h]; nofun)
  fault _ := (c.of_usable (by rw [h]; rfl)).2

/-- A wake count above 1 counts on (R56). -/
theorem countWake (c : LineConsistent l) (h : l.line = .waking) (hc : ¬l.wakeCount ≤ 1) :
    LineConsistent { l with wakeCount := l.wakeCount - 1 } where
  enable := c.enable
  wake hw := absurd h hw
  waking _ := by show 1 ≤ l.wakeCount - 1; omega
  hangs := c.hangs
  fault := c.fault

/-- A LIVE zone that nothing wants counts its hang in HANG (R57). -/
theorem hangEntry (c : LineConsistent l) (h : l.line = .live) :
    LineConsistent { l with line := .hang, hangCount := l.hang } where
  enable := iff_of_false (by simp [(c.of_usable (by rw [h]; rfl)).1]) nofun
  wake _ := c.wake (by rw [h]; nofun)
  waking := nofun
  hangs h := absurd rfl h
  fault _ := (c.of_usable (by rw [h]; rfl)).2

/-- A zone goes back to STANDBY with both counts at 0 (R57, R58). -/
theorem standbyEntry (c : LineConsistent l) (h : usableLine l.line = true) (hw : l.line ≠ .waking) (hc : l.hangCount = 0) :
    LineConsistent (standbyEntry l) where
  enable := iff_of_false (by simp [Machine.standbyEntry, (c.of_usable h).1]) nofun
  wake _ := c.wake hw
  waking := nofun
  hangs _ := hc
  fault _ := (c.of_usable h).2

theorem countHangOf (c : LineConsistent l) : LineConsistent (countHangOf l) := by
  unfold Machine.countHangOf
  split
  · next h => exact ⟨c.enable, c.wake, c.waking, fun hn => absurd h hn, c.fault⟩
  · exact c

/-- The settings and the route-live flag stand in no law of the line state. -/
theorem writeSettings (c : LineConsistent l) (flags : Byte) (preroll hang : Half) :
    LineConsistent (writeSettings flags preroll hang l) := ⟨c.enable, c.wake, c.waking, c.hangs, c.fault⟩

theorem enabled (c : LineConsistent l) (h : l.line = .off) : LineConsistent (enabled l) where
  enable := iff_of_false nofun nofun
  wake _ := c.wake (by rw [h]; nofun)
  waking := nofun
  hangs _ := c.hangs (by rw [h]; nofun)
  fault _ := c.fault (by rw [h]; nofun)

theorem disabled (l : ZoneLine) : LineConsistent (disabled l) :=
  ⟨iff_of_true rfl rfl, fun _ => rfl, nofun, fun _ => rfl, fun _ => rfl⟩

theorem faulted (c : LineConsistent l) (h : l.line ≠ .off) (code : Byte) : LineConsistent (faulted code l) where
  enable := iff_of_false (mt c.enable.mp h) nofun
  wake _ := rfl
  waking := nofun
  hangs _ := rfl
  fault h := absurd rfl h

theorem cleared (c : LineConsistent l) (h : l.line = .fault) : LineConsistent (cleared l) where
  enable := iff_of_false (mt c.enable.mp (by rw [h]; nofun)) nofun
  wake _ := c.wake (by rw [h]; nofun)
  waking := nofun
  hangs _ := c.hangs (by rw [h]; nofun)
  fault _ := rfl

theorem resetLine (c : LineConsistent l) : LineConsistent (resetLine l) := by
  have enable := c.enable
  have fault := c.fault
  constructor <;> cases h : l.line <;> simp [Machine.resetLine, h] <;> simp_all

end LineConsistent

/-! ### One zone of the mixer (R21, R22, R28, R31, R34) -/

namespace MixZoneLegal

variable {m : MixZone}

/-- The duck coefficient moves toward a target that is unity or the duck level or 0 (R21, R22). -/
theorem duckTarget_le {s : State} {c : Claim} {level : Nat} (h : level ≤ 16384) : duckTarget s c level ≤ 16384 := by
  unfold duckTarget
  split
  · exact Nat.le_refl _
  · exact Nat.zero_le _
  all_goals exact h

theorem withDuck (c : MixZoneLegal m) {duck saturation : Nat} (hd : duck ≤ 16384) (hs : saturation ≤ 65535) :
    MixZoneLegal { m with duck := duck, saturation := saturation } :=
  ⟨c.routes, c.trim, c.duckLevel, c.rampStep, hd, hs⟩

/-- One frame period of a zone (R22, R28). -/
theorem mixState {s : State} {z : Nat} (hz : z < 48) (c : MixZoneLegal (tget s.zmx z)) (p : Nat → Int) :
    MixZoneLegal (tget (mixState s p) z) := by
  rw [tget_mixState s p hz]
  exact c.withDuck ((rampToward_le_max ..).trans (max_le c.duck (duckTarget_le c.duckLevel))) (countUp_le _ _)

/-- ROUTE_SET writes a lane of the trunk, or none, and a two-byte coefficient (R31). -/
theorem routeWritten {s : State} {zone route lane : Byte} (c : MixZoneLegal (tget s.zmx zone.toNat)) (coeff : Half)
    (hl : ¬(lane.toNat > 39 ∧ lane.toNat ≠ 255)) : MixZoneLegal (routeWritten s zone route lane coeff) where
  routes := by
    refine forall_tset (P := fun _ (r : Route) => r.coeff ≤ 65535 ∧ ∀ i, r.lane = some i → i < 40) c.routes
      ⟨Nat.le_of_lt_succ coeff.isLt, fun i hi => ?_⟩
    simp only at hi
    split at hi
    · cases hi
    · cases hi; omega
  trim := c.trim
  duckLevel := c.duckLevel
  rampStep := c.rampStep
  duck := c.duck
  saturation := c.saturation

theorem default : MixZoneLegal defaultMixZone := by
  refine ⟨fun r hr => ?_, by decide, by decide, by decide, by decide, by decide⟩
  rw [defaultMixZone_route hr]
  exact ⟨Nat.zero_le _, nofun⟩

end MixZoneLegal

/-! ### One zone of the tracker (R39 to R42, R45 to R48) -/

/-- A ramp step does not fall below where it starts and its target. -/
theorem min_le_rampToward (d t k : Nat) : min d t ≤ rampToward d t k := by
  unfold rampToward
  repeat' split
  all_goals omega

theorem natAbs_delivered_le (s : State) (i : Nat) : (delivered s i).natAbs ≤ 8388608 := by
  unfold delivered
  split
  · have := (tget s.itp.lastGood i).le_two_mul_toInt
    have := (tget s.itp.lastGood i).two_mul_toInt_lt
    omega
  · exact Nat.zero_le _

namespace AmbientLegal

variable {begun : Bool} {a : AmbientZone}

/-- What is in range before the start work is so after it. -/
theorem begun_true (c : AmbientLegal begun a) : AmbientLegal true a :=
  { c with count := c.count.trans (Nat.add_le_add_left (Bool.toNat_le begun) _) }

theorem withPeak (c : AmbientLegal begun a) {peak : Nat} (h : peak ≤ 8388608) : AmbientLegal begun { a with peak := peak } :=
  { c with peak := h }

theorem clearedEstimator (c : AmbientLegal begun a) : AmbientLegal begun (clearedEstimator a) :=
  { c with acc := Nat.zero_le _, count := Nat.zero_le _, level := Nat.zero_le _, peak := Nat.zero_le _
           factor := ⟨Nat.le_refl _, c.maximum.1⟩ }

theorem gateUpdate (c : AmbientLegal begun a) (e : Claim) : AmbientLegal begun (gateUpdate e a) := by
  have unheld : AmbientLegal begun (Machine.gateUpdate .empty a) := by
    rw [gateUpdate_of_not_joined (c := .empty) nofun]
    split
    · exact { c with release := (Nat.sub_le _ _).trans c.release }
    · exact { c with }
  cases e with
  | joined h => exact { c with release := c.hold }
  | empty => exact unheld
  | pendingJoin h => exact unheld

/-- The sample of a frame period is at most one of full scale (R39). -/
theorem ambientSample (c : AmbientLegal false a) (s : State) (z : Nat) : AmbientLegal true (ambientSample s z a) := by
  unfold Machine.ambientSample
  split
  · exact c.begun_true
  · next i _ =>
    split
    · have sample := natAbs_delivered_le s i
      have acc := c.acc
      exact { c with acc := by show a.acc + (delivered s i).natAbs ≤ 8388608 * (a.count + 1); omega
                     count := Nat.succ_le_succ c.count }
    · exact c.begun_true

theorem ambientTarget_mem (c : AmbientLegal begun a) (level : Nat) :
    16384 ≤ ambientTarget a level ∧ ambientTarget a level ≤ a.factorMax :=
  ⟨le_min c.maximum.1 (Nat.le_add_right _ _), min_le_left _ _⟩

/-- A window end leaves a new window, whether the sample of the frame period was its last or not (R40, R41). -/
theorem endWindow (c : AmbientLegal begun a) (begun' : Bool) : AmbientLegal begun' (endWindow a) := by
  have level : a.acc / 4800 ≤ 8388608 := by
    have acc := c.acc
    have count := c.begun_true.count
    have : 4799 + true.toNat = 4800 := rfl
    omega
  obtain ⟨low, high⟩ := c.ambientTarget_mem (a.acc / 4800)
  exact {
    acc := Nat.zero_le _, count := Nat.zero_le _, level, peak := max_le c.peak level, release := c.release
    threshold := c.threshold, slope := c.slope, maximum := c.maximum, step := c.step, hold := c.hold
    factor := ⟨(le_min c.factor.1 low).trans (min_le_rampToward ..), (rampToward_le_max ..).trans (max_le c.factor.2 high)⟩ }

theorem default (begun : Bool) : AmbientLegal begun defaultAmbientZone := by
  constructor <;> simp [defaultAmbientZone]

end AmbientLegal

/-! ### The laws as a preorder on states -/

/-- The mixer's half of `MixerLegal`. -/
def MixersInRange (s : State) : Prop := ∀ z, z < 48 → MixZoneLegal (tget s.zmx z)

theorem mixerLegal_iff (s : State) : MixerLegal s ↔ MixersInRange s ∧ LevelsInRange s :=
  ⟨fun m => ⟨m.zones, .of_lt m.levels⟩, fun m => ⟨m.1, fun h _ => m.2.level h⟩⟩

/-- `TrackerLegal`, with the start work of the frame period done or not: after the window ends of a period its estimators are as before the start work. -/
def EstimatorsInRange (begun : Bool) (s : State) : Prop := ∀ z, z < 48 → AmbientLegal begun (tget s.amt z)

/-- Each law of lines, mixer, tracker and ambient lanes that holds of `s` holds of `t`, within one frame period. -/
structure KeepsRanges (s t : State) : Prop where
  lines : LinesConsistent s → LinesConsistent t
  mixers : MixersInRange s → MixersInRange t
  levels : LevelsInRange s → LevelsInRange t
  estimators : ∀ begun, EstimatorsInRange begun s → EstimatorsInRange begun t
  lanes : AmbientLanesUnique s → AmbientLanesUnique t
  started : t.period.started = s.period.started

/-- A property of every entry is kept by replacing one entry by another that has it where the old one has. -/
theorem forall_tset_of {α : Type} {n : Nat} [Inhabited α] {P : α → Prop} {t : Vector α n} {i : Nat} {x : α}
    (h : ∀ j, j < n → P (tget t j)) (hx : P (tget t i) → P x) : ∀ j, j < n → P (tget (tset t i x) j) := by
  intro j hj
  rw [tget_tset]
  split
  · next e => exact hx (e.1 ▸ h j hj)
  · exact h j hj

/-- A property of every entry is kept by changing all of them in a way that keeps it. -/
theorem forall_tget_map {α : Type} {n : Nat} [Inhabited α] {P : α → Prop} {t : Vector α n} {f : α → α}
    (h : ∀ j, j < n → P (tget t j)) (hf : ∀ x, P x → P (f x)) : ∀ j, j < n → P (tget (t.map f) j) := by
  intro j hj
  rw [tget_map t f j hj]
  exact hf _ (h j hj)

namespace KeepsRanges

variable {s t u : State}

theorem refl (s : State) : KeepsRanges s s := ⟨id, id, id, fun _ => id, id, rfl⟩

theorem trans (a : KeepsRanges s t) (b : KeepsRanges t u) : KeepsRanges s u :=
  ⟨b.lines ∘ a.lines, b.mixers ∘ a.mixers, b.levels ∘ a.levels, fun begun => b.estimators begun ∘ a.estimators begun,
    b.lanes ∘ a.lanes, b.started.trans a.started⟩

/-- Two states that agree on what the laws read are under the same laws. -/
theorem of_same (hzlc : t.zlc = s.zlc := by rfl) (hzmx : t.zmx = s.zmx := by rfl)
    (hreq : t.zar.requests = s.zar.requests := by rfl) (hamt : t.amt = s.amt := by rfl)
    (hroles : t.itp.roles = s.itp.roles := by rfl) (hst : t.period.started = s.period.started := by rfl) :
    KeepsRanges s t where
  lines h := by rw [LinesConsistent, hzlc]; exact h
  mixers h := by rw [MixersInRange, hzmx]; exact h
  levels h := h.of_requests hreq
  estimators begun h := by rw [EstimatorsInRange, hamt]; exact h
  lanes h := by rw [AmbientLanesUnique, hroles]; exact h
  started := hst

/-- An action of the arbiter or of the scheduler keeps the laws where it keeps the levels of the records. -/
theorem of_act (a : ActFrame s t) (levels : LevelsInRange s → LevelsInRange t) : KeepsRanges s t :=
  { of_same (s := s) (t := t.setZar s.zar) a.zlc a.zmx rfl a.amt (congrArg Itp.roles a.itp) (congrArg Period.started a.period) with
    levels }

theorem foldl {α : Type} {f : State → α → State} (hf : ∀ s a, KeepsRanges s (f s a)) (l : List α) (s : State) :
    KeepsRanges s (l.foldl f s) :=
  foldl_keeps (KeepsRanges s) f (fun t a h => h.trans (hf t a)) l s (refl s)

/-- A fold over states with a tally keeps what each of its steps keeps. -/
theorem foldl_fst {α β : Type} {f : State × β → α → State × β} (hf : ∀ p a, KeepsRanges p.1 (f p a).1) (l : List α)
    (p : State × β) : KeepsRanges p.1 (l.foldl f p).1 :=
  foldl_keeps (fun q => KeepsRanges p.1 q.1) f (fun q a h => h.trans (hf q a)) l p (refl p.1)

theorem setZlc {x : Vector ZoneLine 48} (h : LinesConsistent s → LinesConsistent (s.setZlc x)) : KeepsRanges s (s.setZlc x) :=
  ⟨h, id, fun b => b.of_zar rfl, fun _ => id, id, rfl⟩

theorem setZmx {x : Vector MixZone 48} (h : MixersInRange s → MixersInRange (s.setZmx x)) : KeepsRanges s (s.setZmx x) :=
  ⟨id, h, fun b => b.of_zar rfl, fun _ => id, id, rfl⟩

theorem setAmt {x : Vector AmbientZone 48} (h : ∀ begun, EstimatorsInRange begun s → EstimatorsInRange begun (s.setAmt x)) :
    KeepsRanges s (s.setAmt x) := ⟨id, id, fun b => b.of_zar rfl, h, id, rfl⟩

theorem setPeriod (s : State) {x : Period} (h : x.started = s.period.started) : KeepsRanges s (s.setPeriod x) :=
  of_same (hst := h)

/-- One zone table entry that agrees with itself becomes another. -/
theorem modLine {z : Nat} {f : ZoneLine → ZoneLine} (h : LineConsistent (tget s.zlc z) → LineConsistent (f (tget s.zlc z))) :
    KeepsRanges s (Machine.modLine z f s) := setZlc fun all => forall_tset_of all h

/-- One estimator in range becomes another. -/
theorem setEstimator {z : Nat} {x : AmbientZone} (h : ∀ begun, AmbientLegal begun (tget s.amt z) → AmbientLegal begun x) :
    KeepsRanges s (s.setAmt (tset s.amt z x)) := setAmt fun begun all => forall_tset_of all (h begun)

theorem markTested (z : Nat) (s : State) : KeepsRanges s (Machine.markTested z s) := of_same

theorem pushEvent (kind cause : Byte) (n : Nat) (d : List Field) (s : State) :
    KeepsRanges s (Machine.pushEvent kind cause n d s) := of_act (.pushEvent ..) fun b => b.pushEvent ..

theorem settle (s : State) : KeepsRanges s (Machine.settle s) := of_act (.settle s) .settle

/-- A pass that is due, and what it brings about. -/
theorem settlePass (s : State) : KeepsRanges s (Machine.settle (Machine.needPass s)) := trans of_same (settle _)

/-! ### Notices -/

/-- What an action reads of the clock stands in no law. -/
theorem onTick {f : State → State} (h : KeepsRanges (noticed s) (f (noticed s))) : KeepsRanges s (Machine.onTick f s) where
  lines := h.lines
  mixers := h.mixers
  levels b := (h.levels (b.of_zar rfl)).of_zar rfl
  estimators := h.estimators
  lanes := h.lanes
  started := h.started

theorem tickNotice {f : State → State} (hf : ∀ s, KeepsRanges s (f s)) (s : State) : KeepsRanges s (Machine.tickNotice f s) :=
  (onTick (hf _)).trans (setPeriod _ rfl)

theorem lineTest {f : State → State} (h : ∀ u, u.zlc = s.zlc → KeepsRanges u (f u)) (z : Nat) :
    KeepsRanges s (Machine.lineTest z f s) := by
  unfold Machine.lineTest
  split
  · exact onTick (h (noticed s) rfl)
  · exact h s rfl

/-! ### Link events and window ends (R4, R5, R40, R45) -/

theorem linkLost (s : State) : KeepsRanges s (Machine.linkLost s) := by
  unfold Machine.linkLost
  split
  · exact (trans of_same (pushEvent ..)).trans (of_act (.loseSources _) (.endAll (fun h _ b => b.endLive h _) _))
  · exact refl s

theorem linkRecovered (s : State) : KeepsRanges s (Machine.linkRecovered s) := by
  unfold Machine.linkRecovered
  split
  · exact (trans of_same (pushEvent ..)).trans (settlePass _)
  · exact refl s

theorem windowEnd (z : Nat) (s : State) : KeepsRanges s (Machine.windowEnd z s) := by
  unfold Machine.windowEnd
  split
  · exact (setEstimator fun begun c => c.endWindow begun).trans (setPeriod _ rfl)
  · exact refl s

theorem clearPeak (z : Nat) (s : State) : KeepsRanges s (Machine.clearPeak z s) := by
  refine setEstimator fun begun c => c.withPeak ?_
  split
  · exact c.level
  · exact Nat.zero_le _

/-! ### The timed tests of the zone lines (R53 to R58) -/

theorem enterLive {z : Nat} (h : usableLine (lineOf s z) = true) : KeepsRanges s (Machine.enterLive z s) :=
  ((modLine fun c => c.liveEntry h).trans (markTested ..)).trans (of_act (.reportLive ..) fun b => b.reportLive z)

theorem wakeZone {z : Nat} (h : lineOf s z = .standby) : KeepsRanges s (Machine.wakeZone z s) := by
  unfold Machine.wakeZone
  simp only
  split
  · exact (clearPeak z s).trans (enterLive (by rw [show lineOf (Machine.clearPeak z s) z = .standby from h]; rfl))
  · next hp =>
    refine (clearPeak z s).trans (trans (modLine ?_) (markTested ..))
    exact fun c => c.wakingEntry h hp

theorem testToLive (s : State) (z : Nat) : KeepsRanges s (Machine.testToLive s z) := by
  unfold Machine.testToLive
  simp only
  split
  · split
    · next hl => exact lineTest (fun u e => enterLive (by rw [lineOf, e, hl]; rfl)) z
    · next hl =>
      split
      · exact lineTest (fun u e => wakeZone (by rw [lineOf, e, hl])) z
      · exact refl s
    all_goals exact refl s
  · exact refl s

theorem liveRounds (n : Nat) (s : State) : KeepsRanges s (Machine.liveRounds n s) :=
  liveRounds_keeps (KeepsRanges s) (fun _ h => h.trans (foldl testToLive ..)) n (refl s)

theorem idleTest {z : Nat} (h : lineOf s z = .live) : KeepsRanges s (Machine.idleTest z s) := by
  have usable : usableLine (lineOf s z) = true := by rw [h]; rfl
  have standby : KeepsRanges s (Machine.modLine z standbyEntry s) := modLine fun c =>
    c.standbyEntry usable (by rw [show (tget s.zlc z).line = .live from h]; nofun)
      (c.hangs (by rw [show (tget s.zlc z).line = .live from h]; nofun))
  unfold Machine.idleTest
  simp only
  split
  · exact refl s
  · split
    · exact (standby.trans (markTested ..)).trans (pushEvent ..)
    · exact (modLine fun c => c.hangEntry h).trans (markTested ..)

theorem hangEnd (z : Nat) (s : State) : KeepsRanges s (Machine.hangEnd z s) := by
  unfold Machine.hangEnd
  split
  · next due =>
    obtain ⟨⟨hl, hc, -, -⟩, -⟩ := (hangDue_iff s z).mp due.2
    have standby : KeepsRanges s (Machine.modLine z standbyEntry s) := modLine fun c =>
      c.standbyEntry (by rw [show (tget s.zlc z).line = .hang from hl]; rfl)
        (by rw [show (tget s.zlc z).line = .hang from hl]; nofun) hc
    exact (standby.trans (markTested ..)).trans (onTick (pushEvent ..))
  · exact refl s

theorem quietTest (s : State) (z : Nat) : KeepsRanges s (Machine.quietTest s z) := by
  unfold Machine.quietTest
  split
  · split
    · next hl =>
      split
      · exact lineTest (fun u e => wakeZone (by rw [lineOf, e, hl])) z
      · exact refl s
    · next hl => exact lineTest (fun u e => idleTest (by rw [lineOf, e, hl])) z
    · exact hangEnd z s
    all_goals exact refl s
  · exact refl s

theorem wakeEnd (z : Nat) (s : State) : KeepsRanges s (Machine.wakeEnd z s) := by
  unfold Machine.wakeEnd
  split
  · next due =>
    obtain ⟨⟨hl, -⟩, -⟩ := (wakeOver_iff s z).mp due.2
    exact enterLive (by rw [hl]; rfl)
  · exact refl s

theorem wakeTest (s : State) (z : Nat) : KeepsRanges s (Machine.wakeTest s z) := by
  unfold Machine.wakeTest
  simp only
  split
  · next h =>
    split
    · exact wakeEnd z s
    · next hc => exact modLine fun c => c.countWake h.1 hc
  · exact refl s

theorem lineTests (s : State) : KeepsRanges s (Machine.lineTests s) :=
  (((foldl wakeTest _ s).trans (liveRounds 48 _)).trans (foldl (fun s z => hangEnd z s) ..)).trans (foldl quietTest ..)

/-! ### Engine events, the tick end, talk timeouts and the entry to HOLDOVER (R88, R104, R108, R138, R144) -/

theorem engineEvents (s : State) : KeepsRanges s (Machine.engineEvents s) :=
  (foldl (fun s e => (of_act (.boundary e s) fun b => b.boundary e).trans (settle _)) ..).trans
    (foldl (fun s e => (of_act (.endFade e s) fun b => b.endFade e).trans (settle _)) ..)

theorem countHang (s : State) : KeepsRanges s (Machine.countHang s) :=
  setZlc fun h => forall_tget_map h fun _ c => c.countHangOf

theorem expireAll (s : State) : KeepsRanges s (Machine.expireAll s) := of_act (.expireAll s) .expireAll

theorem schedulerNotice (s : State) : KeepsRanges s (Machine.schedulerNotice s) := of_act (.schedulerNotice s) .schedulerNotice

theorem tickActions (s : State) : KeepsRanges s (Machine.tickActions s) := by
  rw [Machine.tickActions, countHoldover_eq]
  exact ((((expireAll s).trans (of_act (.countTalk _) .countTalk)).trans (countHang _)).trans (schedulerNotice _)).trans of_same

theorem tickEnd (s : State) : KeepsRanges s (Machine.tickEnd s) := by
  unfold Machine.tickEnd
  split
  · refine trans (setPeriod s ?_) (tickNotice tickActions _)
    rfl
  · exact refl s

theorem talkTimeouts (hs : List Nat) (s : State) : KeepsRanges s (Machine.talkTimeouts hs s) := by
  unfold Machine.talkTimeouts
  split
  · exact refl s
  · exact tickNotice (fun s => of_act (.endAll (fun _ _ => .endLive ..) _ s) (.endAll (fun h _ b => b.endLive h _) _)) s

theorem enterHoldover (s : State) : KeepsRanges s (Machine.enterHoldover s) := trans of_same (pushEvent ..)

theorem holdoverEntry (s : State) : KeepsRanges s (Machine.holdoverEntry s) := by
  unfold Machine.holdoverEntry
  split
  · exact onTick (enterHoldover _)
  · exact refl s

/-- What a frame period brings after its window ends and before the advance of the clock (log 1). -/
theorem laterEvents (s : State) : KeepsRanges s
    (Machine.lineTests (clockEvents (Machine.engineEvents (heldWakes s)))) :=
  ((((foldl (fun s z => wakeEnd z s) _ s).trans (engineEvents _)).trans (tickEnd _)).trans (talkTimeouts ..)).trans
    ((holdoverEntry _).trans (lineTests _))

end KeepsRanges

end Sys2Proof.Machine
end

section
/-! The commands keep the laws of zone lines, mixer, tracker and ambient lanes. -/

namespace Sys2Proof.Machine

namespace KeepsRanges

variable {s t : State}

/-- A refused command changes nothing. -/
theorem refuse (st : Status) (s : State) : KeepsRanges s (Machine.refuse st s).after := refl s

/-! ### Lanes (R10, R11) -/

/-- LANE_SET takes a zone's ambient lane away from the lane that had it before it gives it to another (R11). -/
theorem laneSet_unique {lane role zone : Byte} (hl : lane.toNat ≤ 39) (unique : AmbientLanesUnique s) :
    AmbientLanesUnique (laneSetAfter s lane role zone) := by
  have own : ∀ {i z}, i = lane.toNat → tget (rolesWritten s lane role zone) i = .ambient z →
      role.toNat = 2 ∧ z = zone.toNat := fun e h => by
    rw [e, tget_rolesWritten_self hl] at h
    exact (writtenRole_eq_ambient_iff ..).mp h
  have other : ∀ {i z}, i < 40 → i ≠ lane.toNat → tget (rolesWritten s lane role zone) i = .ambient z →
      tget s.itp.roles i = .ambient z ∧ ¬(role.toNat = 2 ∧ z = zone.toNat) := fun hi hne h =>
    (tget_rolesWritten_eq_ambient_iff unique hi hne _).mp h
  intro i j z hi hj ri rj
  by_cases ei : i = lane.toNat <;> by_cases ej : j = lane.toNat
  · exact ei.trans ej.symm
  · exact absurd (own ei ri) (other hj ej rj).2
  · exact absurd (own ej rj) (other hi ei ri).2
  · exact unique i j z hi hj (other hi ei ri).1 (other hj ej rj).1

theorem clearEstimators (zs : List Nat) (s : State) : KeepsRanges s (Machine.clearEstimators zs s) := by
  refine setAmt fun begun all z hz => ?_
  have c := all z hz
  show AmbientLegal begun (tget (Machine.clearEstimators zs s).amt z)
  rw [tget_clearEstimators zs s hz]
  split
  · exact c.clearedEstimator
  · exact c

theorem laneSet (lane role zone : Byte) (s : State) : KeepsRanges s (Machine.laneSet lane role zone s).after := by
  rw [laneSet_eq]
  split
  · exact refuse ..
  · next hok =>
    split
    · exact refuse ..
    · have cleared := clearEstimators ((gainedZone s lane role zone).toList ++ (releasedZone s lane role zone).toList)
        (s.setItp { s.itp with roles := rolesWritten s lane role zone })
      exact {
        lines := cleared.lines, mixers := cleared.mixers, levels := fun b => b.of_zar rfl
        estimators := cleared.estimators, started := rfl
        lanes := laneSet_unique (by omega) }

/-! ### Mixer and tracker (R31, R34, R47) -/

theorem routeSet (zone route lane : Byte) (coeff : Half) (s : State) :
    KeepsRanges s (Machine.routeSet zone route lane coeff s).after := by
  rw [routeSet_eq]
  split
  · exact refuse ..
  · next hok =>
    have written : KeepsRanges s (s.setZmx (tset s.zmx zone.toNat (routeWritten s zone route lane coeff))) :=
      setZmx fun all => forall_tset_of all fun c => c.routeWritten coeff fun bad => hok (.inr (.inr bad))
    refine written.trans (modLine ?_)
    exact fun c => ⟨c.enable, c.wake, c.waking, c.hangs, c.fault⟩

theorem zoneMixSet (zone : Byte) (trim duckLevel rampStep : Half) (s : State) :
    KeepsRanges s (Machine.zoneMixSet zone trim duckLevel rampStep s).after := by
  rw [zoneMixSet_eq]
  split
  · exact refuse ..
  · next hok =>
    refine setZmx fun all => forall_tset_of all fun c => ?_
    exact { c with trim := Nat.le_of_lt_succ trim.isLt
                   duckLevel := by show duckLevel.toNat ≤ 16384; omega
                   rampStep := by show 1 ≤ rampStep.toNat ∧ rampStep.toNat ≤ 16384; omega }

/-- The settings that AMBIENT_SET accepts, with the estimator cleared or its factor brought down to the new maximum (R47). -/
theorem ambientSettings {begun : Bool} {a : AmbientZone} (c : AmbientLegal begun a) {threshold : Word}
    {slope ambMax stepMax : Half} (ht : threshold.toNat ≤ 8388608) (hm : 16384 ≤ ambMax.toNat) (hs : stepMax ≠ 0)
    (hold : Half) (keep : Bool) {b : AmbientZone} (hb : b = { a with
      threshold := threshold.toNat, slope := slope.toNat, factorMax := ambMax.toNat, step := stepMax.toNat
      hold := hold.toNat }) :
    AmbientLegal begun (if keep then { b with factor := min b.factor ambMax.toNat } else clearedEstimator b) := by
  have kept : AmbientLegal begun { b with factor := min b.factor ambMax.toNat } := by
    have positive : 1 ≤ stepMax.toNat := by bv_omega
    subst hb
    exact {
      acc := c.acc, count := c.count, level := c.level, peak := c.peak, release := c.release
      threshold := ht, slope := Nat.le_of_lt_succ slope.isLt, maximum := ⟨hm, Nat.le_of_lt_succ ambMax.isLt⟩
      step := ⟨positive, Nat.le_of_lt_succ stepMax.isLt⟩, hold := Nat.le_of_lt_succ hold.isLt
      factor := ⟨le_min c.factor.1 hm, min_le_right _ _⟩ }
  split
  · exact kept
  · exact kept.clearedEstimator

theorem ambientSet (zone flags : Byte) (threshold : Word) (slope ambMax stepMax hold : Half) (s : State) :
    KeepsRanges s (Machine.ambientSet zone flags threshold slope ambMax stepMax hold s).after := by
  unfold Machine.ambientSet
  simp only
  split
  · exact refuse ..
  · next hok =>
    exact (windowEnd _ s).trans (setEstimator fun begun c =>
      ambientSettings c (threshold := threshold) (slope := slope) (ambMax := ambMax) (stepMax := stepMax)
        (by omega) (by omega) (fun e => hok (.inr (.inr (.inr (.inr e))))) hold _ rfl)

/-! ### Zone lines (R60 to R64) -/

theorem leaveStandby (z : Nat) (old : LineState) (s : State) : KeepsRanges s (Machine.leaveStandby z old s) := by
  unfold Machine.leaveStandby
  split
  · exact clearPeak z s
  · exact refl s

theorem zoneLost (z : Nat) (c : RemovalCause) (s : State) : KeepsRanges s (Machine.zoneLost z c s) :=
  of_act (.zoneLost ..) fun b => b.zoneLost z c

/-- R61 by the enable flag and the line state that it finds. -/
theorem applyEnable (z : Nat) (enable : Bool) (s : State) : KeepsRanges s (Machine.applyEnable z enable s) := by
  by_cases off : (tget s.zlc z).line = .off
  · cases enable with
    | false => rw [applyEnable_same (.inr ⟨rfl, off⟩)]; exact refl s
    | true =>
      rw [applyEnable_on off]
      exact (((modLine fun c => c.enabled off).trans (markTested ..)).trans (settlePass _)).trans (pushEvent ..)
  · cases enable with
    | false =>
      rw [applyEnable_off off]
      exact (((modLine fun _ => .disabled _).trans (leaveStandby ..)).trans (zoneLost ..)).trans (pushEvent ..)
    | true => rw [applyEnable_same (.inl ⟨rfl, off⟩)]; exact refl s

theorem zoneSet (zone flags : Byte) (preroll hang : Half) (s : State) :
    KeepsRanges s (Machine.zoneSet zone flags preroll hang s).after := by
  unfold Machine.zoneSet
  simp only
  split
  · exact refuse ..
  · split
    · exact refuse ..
    · exact (modLine fun c => c.writeSettings flags preroll hang).trans (applyEnable ..)

theorem zoneFault (zone faultCode : Byte) (s : State) : KeepsRanges s (Machine.zoneFault zone faultCode s).after := by
  unfold Machine.zoneFault
  simp only
  split
  · exact refuse ..
  · split
    · exact refuse ..
    · next off =>
      split
      · exact refl s
      · exact (((modLine fun c => c.faulted off faultCode).trans (leaveStandby ..)).trans (zoneLost ..)).trans (pushEvent ..)

theorem zoneClear (zone : Byte) (s : State) : KeepsRanges s (Machine.zoneClear zone s).after := by
  unfold Machine.zoneClear
  simp only
  split
  · exact refuse ..
  · split
    · exact refuse ..
    · next fault =>
      dsimp only
      rw [clearZone_eq]
      exact (((modLine fun c => c.cleared (not_not.mp fault)).trans (markTested ..)).trans (settlePass _)).trans (pushEvent ..)

/-! ### Requests (R71, R91) -/

theorem announce (a : AnnounceFields) (tag : Byte) (s : State) : KeepsRanges s (Machine.announce a tag s).after := by
  unfold Machine.announce
  simp only
  split
  · exact refuse ..
  · split
    · exact refuse ..
    · next r hr =>
      have level : r.level ≤ 65535 := by
        rw [LevelsInRange.announceRequest_level hr]
        exact Nat.le_of_lt_succ a.level.isLt
      split
      · exact refuse ..
      · split
        · exact refuse ..
        · next k _ =>
          split
          · exact refuse ..
          · next hq =>
            have admitted : ActFrame s (admitRecord k r s) := .admitRecord (by omega)
            have tested := (admitted.trans (.pass _)).trans (.prerollTests _)
            have levels (b : LevelsInRange s) := (b.admitRecord k level).pass.prerollTests.settle
            dsimp only
            exact of_act (tested.trans (.settle _)) levels

theorem release (handle mode : Byte) (s : State) : KeepsRanges s (Machine.release handle mode s).after := by
  unfold Machine.release
  simp only
  split
  · exact refuse ..
  · split
    · exact refuse ..
    · split
      · exact refuse ..
      · exact of_act ((ActFrame.releaseRequest ..).trans (.settle _)) fun b => (b.releaseRequest ..).settle

/-! ### Clip memory, phrases and templates (R118 to R122, R125) -/

theorem clipWrite (addr : Word) (samples : List ClipSample) (s : State) :
    KeepsRanges s (Machine.clipWrite addr samples s).after := by
  unfold Machine.clipWrite
  simp only
  repeat' split
  all_goals exact of_same

theorem clipRead (addr : Word) (s : State) : KeepsRanges s (Machine.clipRead addr s).after := by
  unfold Machine.clipRead
  simp only
  split <;> exact refl s

theorem phraseSet (phrase : Half) (present : Byte) (start length : Word) (s : State) :
    KeepsRanges s (Machine.phraseSet phrase present start length s).after := by
  unfold Machine.phraseSet
  simp only
  split <;> exact of_same

theorem templateSet (template wordingCount wordingIndex itemCount firstItem : Byte) (items : List ItemCell) (s : State) :
    KeepsRanges s (Machine.templateSet template wordingCount wordingIndex itemCount firstItem items s).after := by
  unfold Machine.templateSet
  simp only
  repeat' split
  all_goals exact of_same

/-! ### The Station Clock (R141 to R146) -/

theorem raiseLocked (old : Stc) (s : State) : KeepsRanges s (Machine.raiseLocked old s) := by
  unfold Machine.raiseLocked
  split
  · exact refl s
  · exact pushEvent ..

theorem stepNotice (s : State) : KeepsRanges s (Machine.stepNotice s) := by
  unfold Machine.stepNotice
  split
  · exact (schedulerNotice s).trans (expireAll _)
  · exact (expireAll s).trans (schedulerNotice _)

theorem timeCommand (reference : Time) (flags : Byte) (s : State) :
    KeepsRanges s (Machine.timeCommand reference flags s).after := by
  have shifted : KeepsRanges s (stepState reference s) := of_same
  unfold Machine.timeCommand
  simp only
  split
  · exact refuse ..
  · split
    · exact (((shifted.trans (pushEvent ..)).trans (raiseLocked ..)).trans (stepNotice _)).trans (setPeriod _ rfl)
    · exact trans of_same (raiseLocked ..)

theorem clockSet (window : Word) (limit : Half) (s : State) : KeepsRanges s (Machine.clockSet window limit s).after := by
  unfold Machine.clockSet
  simp only
  split
  · exact refuse ..
  · split
    · exact trans of_same (enterHoldover _)
    · exact of_same

/-! ### The tables of the scheduler, and calls (R149 to R169) -/

theorem platformSet (platform : Byte) (a b : ZoneSet) (s : State) :
    KeepsRanges s (Machine.platformSet platform a b s).after := by
  unfold Machine.platformSet
  simp only
  split <;> exact of_same

theorem planSet (plan triggerCount : Byte) (closeMargin threshold : Half) (firstTrigger : Byte)
    (triggers : List TriggerCell) (s : State) :
    KeepsRanges s (Machine.planSet plan triggerCount closeMargin threshold firstTrigger triggers s).after := by
  unfold Machine.planSet
  simp only
  repeat' split
  all_goals exact of_same

theorem periodicSet (p : PeriodicFields) (s : State) : KeepsRanges s (Machine.periodicSet p s).after := by
  unfold Machine.periodicSet
  simp only
  repeat' split
  all_goals exact of_same

theorem setCall (k : Nat) (c : Call) (s : State) : KeepsRanges s (Machine.setCall k c s) := of_same

theorem placeTriggers (slot : Nat) (ts : List CallTrigger) (s : State) :
    KeepsRanges s (Machine.placeTriggers slot ts s) := by
  refine foldl (fun s p => ?_) _ s
  split <;> exact of_same

theorem callLoad (f : CallFields) (s : State) : KeepsRanges s (Machine.callLoad f s).after := by
  unfold Machine.callLoad
  split
  · exact refuse ..
  · split
    · exact refuse ..
    · simp only
      split
      · exact refuse ..
      · exact ((setCall ..).trans (placeTriggers ..)).trans (setPeriod _ rfl)

theorem amendTrigger (slot : Nat) (p : State × Withdrawn) (i : Nat) :
    KeepsRanges p.1 (Machine.amendTrigger slot p i).1 := by
  have replaced : KeepsRanges p.1 (replaceTrigger slot i p.1) := by
    unfold replaceTrigger
    simp only
    split <;> exact of_same
  unfold Machine.amendTrigger
  simp only
  split
  · split
    · exact replaced
    · exact refl _
  · split
    · exact of_act ((ActFrame.withdraw ..).trans (.settle _)) fun b => (b.withdraw _).settle
    · exact refl _
  · exact refl _

theorem amendTriggers (slot : Nat) (s : State) : KeepsRanges s (Machine.amendTriggers slot s).1 := by
  have all := foldl_fst (amendTrigger slot) (List.range (tget s.csc.calls slot).triggers.length) (s, ⟨0, []⟩)
  unfold Machine.amendTriggers
  simp only
  split
  · exact all.trans (of_act ((ActFrame.walk _).trans (.settle _)) fun b => b.walk.settle)
  · exact all

theorem amendSpecial (slot : Nat) (role : TriggerRole) (fires : Bool) (s : State) :
    KeepsRanges s (Machine.amendSpecial slot role fires s).1 := by
  unfold Machine.amendSpecial
  split
  · exact of_act (.fireSpecial ..) fun b => b.fireSpecial ..
  · exact refl s

theorem noteDelay (slot : Nat) (q : Bool) (o : SpecialOutcome) (d : Int) (s : State) :
    KeepsRanges s (Machine.noteDelay slot q o d s) := by
  unfold Machine.noteDelay
  split
  · exact setCall ..
  · exact refl s

theorem callAmend (slot flags : Byte) (delay : Word) (platform : Byte) (s : State) :
    KeepsRanges s (Machine.callAmend slot flags delay platform s).after := by
  unfold Machine.callAmend
  simp only
  split
  · exact refuse ..
  · split
    · exact refuse ..
    · exact trans (trans (trans (trans of_same (amendTriggers ..)) (amendSpecial ..)) (amendSpecial ..)) (noteDelay ..)

theorem cancelTrigger (slot : Nat) (p : State × Nat) (i : Nat) : KeepsRanges p.1 (Machine.cancelTrigger slot p i).1 := by
  unfold Machine.cancelTrigger
  simp only
  split
  · split
    · exact of_act ((ActFrame.cancelRequest ..).trans (.settle _)) fun b => (b.cancelRequest _).settle
    · exact refl _
  · exact refl _

theorem supersede (slot : Nat) (p : CallTrigger → Bool) (s : State) : KeepsRanges s (Machine.supersede slot p s) :=
  of_act (.supersede ..) fun b => b.supersede slot p

theorem cancelSpecial (slot : Nat) (old : CallState) (s : State) : KeepsRanges s (Machine.cancelSpecial slot old s).1 := by
  unfold Machine.cancelSpecial
  split
  · exact of_act (.fireSpecial ..) fun b => b.fireSpecial ..
  · exact supersede ..
  · exact refl s

theorem callCancel (slot : Byte) (s : State) : KeepsRanges s (Machine.callCancel slot s).after := by
  unfold Machine.callCancel
  simp only
  split
  · exact refuse ..
  · exact ((((supersede ..).trans (foldl_fst (cancelTrigger slot.toNat) _ (_, 0))).trans (cancelSpecial ..)).trans
      (setCall ..)).trans (pushEvent ..)

theorem callClear (slot : Byte) (s : State) : KeepsRanges s (Machine.callClear slot s).after := by
  unfold Machine.callClear
  simp only
  split <;> exact of_same

/-! ### Reporting (R179 to R184) -/

/-- A QUERY that has passed its checks leaves the state, or the state after it. -/
theorem queryAnswer (h : KeepsRanges s t) (kind : Nat) (q : QueryFields) (parts : Nat) (contents : List Field) :
    KeepsRanges s (Machine.queryAnswer kind q parts contents t s).after := by
  unfold Machine.queryAnswer
  split
  · exact refuse ..
  · exact h

theorem queryStatus (q : QueryFields) (s : State) : KeepsRanges s (Machine.queryStatus q s).after := by
  unfold Machine.queryStatus
  split
  · exact refuse ..
  · split
    · exact queryAnswer of_same ..
    · exact queryAnswer (refl s) ..

theorem queryZone (q : QueryFields) (s : State) : KeepsRanges s (Machine.queryZone q s).after := by
  unfold Machine.queryZone
  split
  · exact refuse ..
  · exact queryAnswer (refl s) ..

theorem queryRequest (q : QueryFields) (s : State) : KeepsRanges s (Machine.queryRequest q s).after := by
  unfold Machine.queryRequest
  simp only
  split
  · exact refuse ..
  · split
    · exact refuse ..
    · exact queryAnswer (refl s) ..

theorem queryEngine (q : QueryFields) (s : State) : KeepsRanges s (Machine.queryEngine q s).after := by
  unfold Machine.queryEngine
  split
  · exact refuse ..
  · exact queryAnswer (refl s) ..

theorem queryCall (q : QueryFields) (s : State) : KeepsRanges s (Machine.queryCall q s).after := by
  unfold Machine.queryCall
  simp only
  split
  · exact refuse ..
  · split
    · exact refuse ..
    · exact queryAnswer (refl s) ..

theorem clearCounters (s : State) : KeepsRanges s (Machine.clearCounters s) :=
  trans (setZmx fun all => forall_tget_map all fun _ c => c.withDuck c.duck (Nat.zero_le _)) of_same

theorem queryCounters (q : QueryFields) (s : State) : KeepsRanges s (Machine.queryCounters q s).after := by
  unfold Machine.queryCounters
  split
  · exact refuse ..
  · refine queryAnswer ?_ ..
    split
    · exact clearCounters s
    · exact refl s

theorem queryPhrase (q : QueryFields) (s : State) : KeepsRanges s (Machine.queryPhrase q s).after := by
  unfold Machine.queryPhrase
  split
  · exact refuse ..
  · split
    · exact refuse ..
    · exact queryAnswer (refl s) ..

theorem levels_resetZar (h : s.zar = resetZar) : LevelsInRange s := .of_lt fun k hk => by
  rw [request, h, show tget resetZar.requests k = freeRequest from tget_replicate _ k hk]
  exact Nat.zero_le _

theorem unitReset (s : State) : KeepsRanges s (Machine.unitReset s).after := by
  rw [unitReset_after]
  exact {
    lines := fun all => forall_tget_map all fun _ c => c.resetLine
    mixers := fun all => forall_tget_map all fun _ c => c.withDuck (Nat.le_refl _) c.saturation
    levels := fun _ => levels_resetZar rfl
    estimators := fun _ all => forall_tget_map all fun _ c => { c.clearedEstimator with release := Nat.zero_le _ }
    lanes := id
    started := rfl }

end KeepsRanges

end Sys2Proof.Machine
end

section
/-! The rows keep the laws of zone lines, mixer, tracker and ambient lanes: the start work, the window ends, the cell and the end of a frame period, ingress frames, and the resets. -/

namespace Sys2Proof.Machine

/-- The laws of zone lines, mixer, tracker and ambient lanes that hold of `s` hold of `t`, at whatever place in a frame period each stands. -/
structure KeepsLegal (s t : State) : Prop where
  lines : LinesConsistent s → LinesConsistent t
  mixer : MixerLegal s → MixerLegal t
  tracker : TrackerLegal s → TrackerLegal t
  lanes : AmbientLanesUnique s → AmbientLanesUnique t

/-! ### Operations within a frame period -/

namespace KeepsRanges

variable {s t : State}

/-- Within a frame period the estimators' bound stands still, so that what keeps the ranges keeps the laws. -/
theorem toLegal (k : KeepsRanges s t) : KeepsLegal s t where
  lines := k.lines
  mixer m := by
    rw [mixerLegal_iff] at m ⊢
    exact ⟨k.mixers m.1, k.levels m.2⟩
  tracker h := by
    show EstimatorsInRange t.period.started t
    rw [k.started]
    exact k.estimators _ h
  lanes := k.lanes

theorem chooseCell (s : State) : KeepsRanges s (Machine.chooseCell s) := by
  rw [chooseCell_spec]
  exact of_same

theorem pushReply (r : Reply) (s : State) : KeepsRanges s (Machine.pushReply r s) := by
  rw [pushReply_spec]
  exact of_same

theorem releaseHoldEnd (z : Nat) (s : State) : KeepsRanges s (Machine.releaseHoldEnd z s) := by
  unfold Machine.releaseHoldEnd
  simp only
  split
  · exact setEstimator fun begun c => { c with }
  · exact refl s

theorem holdWake (z : Nat) (s : State) : KeepsRanges s (Machine.holdWake z s) := by
  unfold Machine.holdWake
  split
  · exact setPeriod s rfl
  · exact refl s

theorem holdHang (z : Nat) (s : State) : KeepsRanges s (Machine.holdHang z s) := by
  unfold Machine.holdHang
  split
  · exact setPeriod s rfl
  · exact refl s

theorem talkTimeout (h : Nat) (s : State) : KeepsRanges s (Machine.talkTimeout h s) := by
  unfold Machine.talkTimeout
  split
  · exact talkTimeouts ..
  · exact refl s

/-! Ingress frames (R3 to R9, R15, R16). -/

theorem discardPartial (s : State) : KeepsRanges s (Machine.discardPartial s) := by
  unfold Machine.discardPartial
  split <;> exact of_same

theorem takeServiceWord (start : Bool) (w : Word) (s : State) : KeepsRanges s (Machine.takeServiceWord start w s) := by
  unfold Machine.takeServiceWord
  split
  · exact (discardPartial s).trans of_same
  · split
    · exact refl s
    · split <;> exact of_same

theorem goodFrame (f : Frame) (s : State) : KeepsRanges s (Machine.goodFrame f s) := by
  unfold Machine.goodFrame
  simp only
  split
  · exact (trans of_same (pushEvent ..)).trans (takeServiceWord ..)
  · exact trans of_same (takeServiceWord ..)
  · split
    · exact trans of_same (takeServiceWord ..)
    · exact trans of_same (discardPartial _)

theorem badFrame (s : State) : KeepsRanges s (Machine.badFrame s) := by
  unfold Machine.badFrame
  simp only
  split
  · exact of_same
  all_goals exact trans of_same (discardPartial _)

theorem missingFrame (s : State) : KeepsRanges s (Machine.missingFrame s) := by
  unfold Machine.missingFrame
  simp only
  split
  · exact refl s
  · exact trans of_same (discardPartial _)
  · split
    · exact trans of_same (discardPartial _)
    · exact refl s

theorem ingressFrame (f : Frame) (s : State) : KeepsRanges s (Machine.ingressFrame f s) := by
  unfold Machine.ingressFrame
  split
  · exact goodFrame f s
  · split
    · exact badFrame s
    · exact missingFrame s

theorem leavePreroll (e : Nat) (s : State) : KeepsRanges s (Machine.settle (Machine.leavePreroll e s)) :=
  of_act ((ActFrame.leavePreroll ..).trans (.settle _)) fun b => (b.leavePreroll e).settle

theorem boundary (e : Nat) (s : State) : KeepsRanges s (Machine.settle (Machine.boundary e s)) :=
  of_act ((ActFrame.boundary ..).trans (.settle _)) fun b => (b.boundary e).settle

theorem endFade (e : Nat) (s : State) : KeepsRanges s (Machine.settle (Machine.endFade e s)) :=
  of_act ((ActFrame.endFade ..).trans (.settle _)) fun b => (b.endFade e).settle

theorem linkEvents (s : State) : KeepsRanges s (Machine.linkEvents s) := (linkLost s).trans (linkRecovered _)

theorem windowEnds (s : State) : KeepsRanges s (Machine.windowEnds s) := foldl (fun s z => windowEnd z s) ..

end KeepsRanges

/-! ### The window ends of a frame period (R40) -/

theorem tget_windowEnd_amt (s : State) {z i : Nat} (hz : z < 48) : tget (windowEnd z s).amt i =
    if z = i ∧ 4800 ≤ (tget s.amt i).count then endWindow (tget s.amt i) else tget s.amt i := by
  by_cases due : 4800 ≤ (tget s.amt z).count
  · rw [windowEnd_due hz due]
    show tget (tset s.amt z _) i = _
    rw [tget_tset]
    by_cases e : z = i
    · subst e; simp [hz, due]
    · simp [e]
  · rw [windowEnd_not_due (not_le.mp due)]
    split
    · next h => exact absurd (h.1 ▸ h.2) due
    · rfl

/-- Where the sample was not the window's last, the estimator is as before the start work. -/
theorem AmbientLegal.begun_false {begun : Bool} {a : AmbientZone} (c : AmbientLegal begun a) (h : ¬4800 ≤ a.count) :
    AmbientLegal false a := { c with count := Nat.le_of_lt_succ (not_le.mp h) }

/-- The window end of one zone leaves its estimator as before the start work, and no other estimator worse. -/
theorem windowEnd_estimator {s : State} {z i : Nat} (hz : z < 48) {begun : Bool} (h : AmbientLegal begun (tget s.amt i)) :
    AmbientLegal (if z = i then false else begun) (tget (windowEnd z s).amt i) := by
  rw [tget_windowEnd_amt s hz]
  by_cases e : z = i
  · by_cases due : 4800 ≤ (tget s.amt i).count
    · rw [if_pos e, if_pos ⟨e, due⟩]; exact h.endWindow false
    · rw [if_pos e, if_neg (fun h => due h.2)]; exact h.begun_false due
  · rw [if_neg e, if_neg (fun h => e h.1)]; exact h

/-- The window ends of a list of zones leave their estimators as before the start work. -/
theorem windowEnds_estimator {i : Nat} : ∀ (l : List Nat) (s : State) (begun : Bool), (∀ z ∈ l, z < 48) →
    AmbientLegal begun (tget s.amt i) →
    AmbientLegal (begun && !l.contains i) (tget (l.foldl (fun s z => windowEnd z s) s).amt i)
  | [], _, begun, _, h => by simpa using h
  | z :: l, s, begun, hl, h => by
    have rest := windowEnds_estimator l (windowEnd z s) _ (fun w hw => hl w (.tail _ hw))
      (windowEnd_estimator (hl z (.head _)) h)
    by_cases e : z = i
    · simpa [e] using rest
    · simpa [e, Ne.symm e] using rest

theorem windowEnds_estimators {s : State} (h : EstimatorsInRange true s) : EstimatorsInRange false (windowEnds s) := by
  intro i hi
  have ended := windowEnds_estimator (List.range 48) s true (fun _ => List.mem_range.mp) (h i hi)
  rwa [show (true && !(List.range 48).contains i) = false by simp [hi]] at ended

/-! ### Rows -/

namespace KeepsLegal

variable {s t u : State}

theorem refl (s : State) : KeepsLegal s s := ⟨id, id, id, id⟩

theorem trans (a : KeepsLegal s t) (b : KeepsLegal t u) : KeepsLegal s u :=
  ⟨b.lines ∘ a.lines, b.mixer ∘ a.mixer, b.tracker ∘ a.tracker, b.lanes ∘ a.lanes⟩

/-- The start work ramps the ducks, counts saturation, sets the gates and takes a sample (R22, R28, R39, R42). -/
theorem startPeriod (s : State) : KeepsLegal s (Machine.startPeriod s) := by
  by_cases h : s.period.started = true
  · rw [startPeriod_of_started h]; exact refl s
  · have hs := Bool.eq_false_iff.mpr h
    exact {
      lines := fun all => by rw [LinesConsistent, startPeriod_zlc]; exact all
      mixer := fun m => by
        refine ⟨fun z hz => ?_, fun k hk => ?_⟩
        · rw [startPeriod_zmx hs]; exact (m.zones z hz).mixState hz _
        · rw [request, startPeriod_zar]; exact m.levels k hk
      tracker := fun all z hz => by
        have c := all z hz
        rw [hs] at c
        rw [startPeriod_started, tget_startPeriod_amt hs hz]
        exact (c.gateUpdate _).ambientSample s z
      lanes := fun unique => by rw [AmbientLanesUnique, startPeriod_itp]; exact unique }

/-- What a row does within the frame period that it begins. -/
theorem begun (k : KeepsRanges (Machine.startPeriod s) t) : KeepsLegal s t := (startPeriod s).trans k.toLegal

/-! Cells (R15, R175 to R177). -/

/-- A command that is taken keeps the laws when what it carries out keeps them. -/
theorem takeCommand {run : State → Answer} (hrun : ∀ s, KeepsRanges s (run s).after) (h : Header) (code : Byte)
    (s : State) : KeepsLegal s (Machine.takeCommand h code run s) :=
  takeCommand_keeps (KeepsLegal s) (fun r _ k => k.trans (KeepsRanges.pushReply r _).toLegal)
    (fun _ _ k => k.trans (KeepsRanges.toLegal .of_same)) h code run s (refl s) (begun (hrun _))

theorem unknownCommand (h : Header) (code : Byte) (s : State) : KeepsLegal s (Machine.unknownCommand h code s) := by
  unfold Machine.unknownCommand
  split
  · exact refl s
  · exact takeCommand (.refuse .noent) ..

/-- The command of a cell keeps the laws. -/
theorem cellCommand {i : Instr} (h : Machine.cellCommand i s = .next t) : KeepsLegal s t := by
  cases i <;> cases h
  case laneSet => exact takeCommand (.laneSet _ _ _) ..
  case routeSet => exact takeCommand (.routeSet _ _ _ _) ..
  case zoneMixSet => exact takeCommand (.zoneMixSet _ _ _ _) ..
  case ambientSet => exact takeCommand (.ambientSet _ _ _ _ _ _ _) ..
  case zoneSet => exact takeCommand (.zoneSet _ _ _ _) ..
  case zoneFault => exact takeCommand (.zoneFault _ _) ..
  case zoneClear => exact takeCommand (.zoneClear _) ..
  case announce => exact takeCommand (.announce _ _) ..
  case release => exact takeCommand (.release _ _) ..
  case clipWrite => exact takeCommand (.clipWrite _ _) ..
  case clipRead => exact takeCommand (.clipRead _) ..
  case phraseSet => exact takeCommand (.phraseSet _ _ _ _) ..
  case templateSet => exact takeCommand (.templateSet _ _ _ _ _ _) ..
  case time => exact takeCommand (.timeCommand _ _) ..
  case clockSet => exact takeCommand (.clockSet _ _) ..
  case platformSet => exact takeCommand (.platformSet _ _ _) ..
  case planSet => exact takeCommand (.planSet _ _ _ _ _ _) ..
  case callLoad => exact takeCommand (.callLoad _) ..
  case callAmend => exact takeCommand (.callAmend _ _ _ _) ..
  case callCancel => exact takeCommand (.callCancel _) ..
  case callClear => exact takeCommand (.callClear _) ..
  case periodicSet => exact takeCommand (.periodicSet _) ..
  case queryStatus => exact takeCommand (.queryStatus _) ..
  case queryZone => exact takeCommand (.queryZone _) ..
  case queryRequest => exact takeCommand (.queryRequest _) ..
  case queryEngine => exact takeCommand (.queryEngine _) ..
  case queryCall => exact takeCommand (.queryCall _) ..
  case queryCounters => exact takeCommand (.queryCounters _) ..
  case queryPhrase => exact takeCommand (.queryPhrase _) ..
  case identify => exact takeCommand (fun s => .refl s) ..
  case unitReset => exact takeCommand .unitReset ..
  case unknownCommand => exact unknownCommand ..
  all_goals exact refl s

theorem cellEffect (m : CellMeaning) (s : State) : KeepsLegal s (Machine.cellEffect m s) := by
  unfold Machine.cellEffect
  split
  · exact takeCommand (.refuse .badarg) ..
  · split
    · next h => exact cellCommand h
    · exact refl s
    · exact refl s

theorem takeCell (s : State) : KeepsLegal s (Machine.takeCell s) := by
  unfold Machine.takeCell
  split
  · exact refl s
  · exact (cellEffect ..).trans (KeepsRanges.toLegal .of_same)

/-! The end of a frame period (log 1). -/

/-- After the window ends each estimator is as before the start work, so that the next period finds it in range (R40). -/
theorem endPeriod (s : State) :
    KeepsLegal s (advancePeriod (lineTests (clockEvents (engineEvents (heldWakes (windowEnds s)))))) := by
  have later := KeepsRanges.laterEvents (windowEnds s)
  have all := ((KeepsRanges.windowEnds s).trans later).toLegal
  exact {
    lines := all.lines
    mixer := fun m => ⟨(all.mixer m).zones, (all.mixer m).levels⟩
    tracker := fun h => later.estimators false (windowEnds_estimators fun z hz => (h z hz).begun_true)
    lanes := all.lanes }

theorem framePeriod (part : PeriodPart) (s : State) : KeepsLegal s (Machine.framePeriod part s) := by
  cases part with
  | start => exact startPeriod s
  | whole => exact (((startPeriod s).trans (takeCell _)).trans (KeepsRanges.linkEvents _).toLegal).trans (endPeriod _)

/-! The resets (R185). -/

/-- A state as a reset leaves it meets the laws. -/
theorem of_defaults {straps : BitVec 4} (d : ResetDefaults straps t) : KeepsLegal s t where
  lines _ z hz := by
    rw [d.zlc, show tget State.reset.zlc z = defaultZoneLine from tget_replicate _ z hz]
    constructor <;> simp [defaultZoneLine]
  mixer _ := by
    refine (mixerLegal_iff t).mpr ⟨fun z hz => ?_, KeepsRanges.levels_resetZar d.zar⟩
    rw [d.zmx, show tget State.reset.zmx z = defaultMixZone from tget_replicate _ z hz]
    exact .default
  tracker _ z hz := by
    rw [d.amt, show tget State.reset.amt z = defaultAmbientZone from tget_replicate _ z hz]
    exact .default _
  lanes _ i j z hi _ ri := by
    rw [d.itp, show tget State.reset.itp.roles i = .unused from tget_replicate _ i hi] at ri
    cases ri

/-- Every row keeps the laws of zone lines, mixer, tracker and ambient lanes. -/
theorem exec {c : Instr} (h : Machine.exec c s = .next t) : KeepsLegal s t := by
  have command : Machine.cellCommand c s = .next t → KeepsLegal s t := cellCommand
  cases c
  case powerOn => cases h; exact of_defaults (powerOn_defaults ..)
  case pinReset => cases h; exact of_defaults (pinReset_defaults ..)
  case framePeriod => cases h; exact framePeriod ..
  case ingressGoodFrame => cases h; exact ((KeepsRanges.chooseCell s).trans (.ingressFrame ..)).toLegal
  case ingressBadFrame => cases h; exact ((KeepsRanges.chooseCell s).trans (.ingressFrame ..)).toLegal
  case ingressMissingFrame => cases h; exact ((KeepsRanges.chooseCell s).trans (.missingFrame _)).toLegal
  case linkLost => cases h; exact begun (.linkLost _)
  case linkRecovered => cases h; exact begun (.linkRecovered _)
  case egressCellPeriod => cases h; exact (KeepsRanges.chooseCell s).toLegal
  case windowEnd => cases h; exact begun (.windowEnd ..)
  case releaseHoldEnd => cases h; exact (KeepsRanges.releaseHoldEnd ..).toLegal
  case wakeEnd => cases h; exact begun (.holdWake ..)
  case hangEnd => cases h; exact begun (.holdHang ..)
  case tickEnd => cases h; exact begun (.tickEnd _)
  case talkTimeout => cases h; exact begun (.talkTimeout ..)
  case holdoverEntry => cases h; exact begun (.holdoverEntry _)
  case prerollExit => cases h; exact begun (.leavePreroll ..)
  case fragmentBoundary => cases h; exact begun (.boundary ..)
  case fadeEnd => cases h; exact begun (.endFade ..)
  all_goals exact command h

/-- Every step keeps the laws of zone lines, mixer, tracker and ambient lanes. -/
theorem step (h : Machine.step s = .next t) : KeepsLegal s t := by
  unfold Machine.step at h
  split at h
  · cases h
    exact refl s
  · next rest _ => exact (KeepsRanges.toLegal (s := s) (t := s.setPending rest) .of_same).trans (exec h)

end KeepsLegal

/-- Settles O7: every row is a sequence of operations that each carry the laws on, and the window ends of a frame period bring the estimators back to where the next start work finds them. -/
theorem everyStepKeepsLinesMixerAndTrackerLegal : Obligations.EveryStepKeepsLinesMixerAndTrackerLegal :=
  ⟨fun _ _ hs h => (KeepsLegal.step h).lines hs, fun _ _ hs h => (KeepsLegal.step h).mixer hs,
    fun _ _ hs h => (KeepsLegal.step h).tracker hs, fun _ _ hs h => (KeepsLegal.step h).lanes hs⟩

end Sys2Proof.Machine
end

section
/-! The rows WAKE_END and HANG_END, and what a wake end and a hang end do where the end of the frame period finds them due (R53, R56, R58, R64, R65, R79). -/

namespace Sys2Proof.Machine

variable {s : State} {z : Nat}

/-! ### The rows (R53, log 8) -/

theorem exec_wakeEnd (hs : s.period.started = true) (z : Nat) : exec (.wakeEnd z) s = .next (holdWake z s) := by
  show Host.Outcome.next (holdWake z (startPeriod s)) = _
  rw [startPeriod_of_started hs]

theorem exec_hangEnd (hs : s.period.started = true) (z : Nat) : exec (.hangEnd z) s = .next (holdHang z s) := by
  show Host.Outcome.next (holdHang z (startPeriod s)) = _
  rw [startPeriod_of_started hs]

theorem hangOver_iff (s : State) (z : Nat) : hangOver s z = true ↔
    lineOf s z = .hang ∧ (tget s.zlc z).hangCount = 0 ∧ s.period.tick ≠ none ∧ zmem s.period.tested z = false := by
  simp [hangOver, untested, lineOf, and_assoc, Option.isSome_iff_ne_none]

theorem holdWake_over (hz : z < 48) (h : wakeOver s z = true) (hn : z ∉ s.period.heldWakes) :
    holdWake z s = s.setPeriod { s.period with heldWakes := s.period.heldWakes ++ [z] } := if_pos ⟨hz, h, hn⟩

theorem holdHang_over (hz : z < 48) (h : hangOver s z = true) (hn : z ∉ s.period.heldHangs) :
    holdHang z s = s.setPeriod { s.period with heldHangs := s.period.heldHangs ++ [z] } := if_pos ⟨hz, h, hn⟩

theorem holdWake_same (h : wakeOver s z = true → z ∈ s.period.heldWakes) : holdWake z s = s :=
  if_neg fun ⟨_, ended, hn⟩ => hn (h ended)

theorem holdHang_same (h : hangOver s z = true → z ∈ s.period.heldHangs) : holdHang z s = s :=
  if_neg fun ⟨_, ended, hn⟩ => hn (h ended)

/-! ### What follows an action, and the tests of R99, where nothing waits -/

theorem not_zmem_of_eq_zero {zs : ZoneSet} (h : zs = 0) (z : Nat) : ¬zmem zs z = true := by
  rw [h, zmem_zero]
  nofun

theorem settle_of_settled (h : Settled s) : settle s = s := by
  simp [settle, settleBound, settleFor, h.walks, h.pass]

theorem testWaiting_of_none (h : ∀ e, e < 6 → zmem (tget s.engines e).waitSet z = false) : testWaiting z s = s := by
  refine foldl_keeps (fun t => t = s) _ (fun t e ht => ?_) _ s rfl
  subst ht
  refine if_neg fun waits => ?_
  by_cases he : e < 6
  · rw [h e he] at waits; cases waits
  · rw [tget_of_le _ e (not_lt.mp he)] at waits; exact not_zmem_of_eq_zero rfl z waits

/-! ### Joins (R79) -/

/-- A join writes the arbiter's records and the event queue. -/
theorem joinLive_spec (h : Nat) (s : State) :
    joinLive h s = (s.setZar (joinLive h s).zar).setCh (joinLive h s).ch := by
  unfold joinLive
  simp only
  split
  · rfl
  · split
    · rw [raiseStarted, pushEvent_spec]; rfl
    · rfl

/-- A join makes JOINED what is PENDING_JOIN in a LIVE zone, and leaves every other claim. -/
theorem claim_joinLive (h : Nat) (s : State) (z : Nat) :
    claim (joinLive h s) z = if zmem (pendingLive s h) z = true then .joined h else claim s z := by
  unfold joinLive
  simp only
  split
  · next none => rw [if_neg (not_zmem_of_eq_zero none z)]
  · split
    · rw [raiseStarted, claim, pushEvent_zar]
      exact claim_writeClaims ..
    · exact claim_writeClaims ..

theorem zmem_pendingLive (hz : z < 48) {k : Nat} (hc : claim s z = .pendingJoin k) (hl : lineOf s z = .live) :
    zmem (pendingLive s k) z = true := by simp [pendingLive, zmem_zwhere, hz, hc, hl]

theorem joinLane_eq {k : Nat} (hlane : (request s k).current = .lane)
    (hstate : (request s k).state = .granted ∨ (request s k).state = .active) : joinLane k s = joinLive k s :=
  if_pos ⟨hlane, hstate⟩

/-! ### The report of an entry to LIVE (R64, R79, R99) -/

section Report

variable (settled : Settled s) (waits : ∀ e, e < 6 → zmem (tget s.engines e).waitSet z = false)
include settled waits

/-- Where no engine waits for the zone, its holder with current source LANE joins, and that is all. -/
theorem reportLive_of_lane {k : Nat} (hc : claim s z = .pendingJoin k) (hlane : (request s k).current = .lane)
    (hstate : (request s k).state = .granted ∨ (request s k).state = .active) : reportLive z s = joinLive k s := by
  have joined := joinLive_spec k s
  rw [reportLive, hc]
  simp only
  rw [joinLane_eq hlane hstate, testWaiting_of_none (by rw [joined]; exact waits),
    settle_of_settled (by rw [joined]; exact ⟨settled.pass, settled.walks⟩)]

/-- A zone without a holder is LIVE and nothing follows. -/
theorem reportLive_of_empty (hc : claim s z = .empty) : reportLive z s = s := by
  rw [reportLive, hc]
  exact (congrArg settle (testWaiting_of_none waits)).trans (settle_of_settled settled)

end Report

/-! ### Wake ends (R56) -/

/-- The state with a zone's line LIVE, which the arbiter is told of. -/
def enteredLive (z : Nat) (s : State) : State := markTested z (modLine z liveEntry s)

theorem wakeEnd_eq (hz : z < 48) (h : wakeOver s z = true) : wakeEnd z s = reportLive z (enteredLive z s) := if_pos ⟨hz, h⟩

@[simp] theorem claim_enteredLive (z y : Nat) (s : State) : claim (enteredLive z s) y = claim s y := rfl

theorem Settled.enteredLive (h : Settled s) (z : Nat) : Settled (enteredLive z s) := ⟨h.pass, h.walks⟩

theorem lineOf_enteredLive (hz : z < 48) : lineOf (enteredLive z s) z = .live :=
  congrArg ZoneLine.line (tget_tset_self s.zlc z _ hz)

/-- A PENDING_JOIN holder with current source LANE joins at the wake end (R79). -/
theorem claim_wakeEnd_of_lane (hz : z < 48) (h : wakeOver s z = true) {k : Nat} (hc : claim s z = .pendingJoin k)
    (hlane : (request s k).current = .lane)
    (hstate : (request s k).state = .granted ∨ (request s k).state = .active) (settled : Settled s)
    (waits : ∀ e, e < 6 → zmem (tget s.engines e).waitSet z = false) : claim (wakeEnd z s) z = .joined k := by
  have report : reportLive z (enteredLive z s) = joinLive k (enteredLive z s) :=
    reportLive_of_lane (s := enteredLive z s) (settled.enteredLive z) waits hc hlane hstate
  have joins : zmem (pendingLive (enteredLive z s) k) z = true := zmem_pendingLive hz hc (lineOf_enteredLive hz)
  rw [wakeEnd_eq hz h, report, claim_joinLive, if_pos joins]

theorem claim_wakeEnd_of_empty (hz : z < 48) (h : wakeOver s z = true) (hc : claim s z = .empty) (settled : Settled s)
    (waits : ∀ e, e < 6 → zmem (tget s.engines e).waitSet z = false) : claim (wakeEnd z s) z = .empty := by
  have report : reportLive z (enteredLive z s) = enteredLive z s :=
    reportLive_of_empty (s := enteredLive z s) (settled.enteredLive z) waits hc
  rw [wakeEnd_eq hz h, report, claim_enteredLive, hc]

/-! ### Hang ends (R58, R65) -/

/-- With room in the queue, a ZONE_STATE raised on the tick-end notice joins its tail with the new T and phase 0, and nothing else is touched (R138, R178). -/
theorem onTick_raiseZoneState {T : Time} (ht : s.period.tick = some T) (room : s.ch.events.length < 32) (z : Nat)
    (old new : LineState) (reason : Nat) (fault : Byte) : onTick (raiseZoneState z old new reason fault) s =
      s.setCh { s.ch with events := s.ch.events ++ [zoneStateEvent z old new reason fault T 0] } := by
  rw [onTick, ht, withTime]
  simp only [raiseZoneState, pushEvent_spec]
  have noted : ((s.setStc { s.stc with time := (some T).getD s.stc.time, phase := 0 }).setPeriod
    { s.period with read := none }).ch.events.length < 32 := room
  rw [if_pos noted]
  rfl

theorem hangEnd_raises {T : Time} (hz : z < 48) (due : hangDue s z = true) (ht : s.period.tick = some T)
    (room : s.ch.events.length < 32) : hangEnd z s = (markTested z (modLine z standbyEntry s)).setCh
      { s.ch with events := s.ch.events ++ [zoneStateEvent z .hang .standby 3 0 T 0] } :=
  (if_pos ⟨hz, due⟩).trans (onTick_raiseZoneState (s := markTested z (modLine z standbyEntry s)) ht room ..)

/-- A zone without a holder that is not programme-awake is not wanted (R54). -/
theorem not_wanted_of_empty (hc : claim s z = .empty)
    (ha : (tget s.zlc z).keepAwake = false ∨ (tget s.zlc z).routeLive = false) : wanted s z = false := by
  rw [wanted, hc, programmeAwake, Bool.and_eq_false_iff.mpr ha]
  rfl

/-- Settles O33: the rows by whether the end is due and held, the wake end by the report to the arbiter, the hang end by its ZONE_STATE on the notice of the tick end. -/
theorem wakeEndsAndHangEnds : Obligations.WakeEndsAndHangEnds := by
  refine ⟨fun s z hs hz hu => ⟨fun hl hc hn => ?_, fun hl hc ht hn => ?_⟩, fun s z hs h => ?_, fun s z hs h => ?_, ?_, ?_⟩
  · rw [exec_wakeEnd hs, holdWake_over hz ((wakeOver_iff s z).mpr ⟨⟨hl, hc⟩, hu⟩) hn]
  · rw [exec_hangEnd hs, holdHang_over hz ((hangOver_iff s z).mpr ⟨hl, hc, ht, hu⟩) hn]
  · rw [exec_wakeEnd hs, holdWake_same fun ended => ?_]
    obtain ⟨⟨hl, hc⟩, hu⟩ := (wakeOver_iff s z).mp ended
    simpa [hl, hu, not_le.mpr (Nat.lt_succ_of_le hc)] using h
  · rw [exec_hangEnd hs, holdHang_same fun ended => ?_]
    obtain ⟨hl, hc, ht, hu⟩ := (hangOver_iff s z).mp ended
    simpa [hl, hc, ht, hu] using h
  · rintro s z l t hz rfl hl hc hu rfl
    have ended := (wakeOver_iff s z).mpr ⟨⟨hl, hc⟩, hu⟩
    refine ⟨?_, fun k held hlane hstate settled waits => claim_wakeEnd_of_lane hz ended held hlane hstate settled waits,
      fun unheld settled waits => claim_wakeEnd_of_empty hz ended unheld settled waits⟩
    rw [wakeEnd_eq hz ended]
    exact .reportLive z (enteredLive z s)
  · rintro s z l T hz rfl hl hc ht unheld asleep hu room
    have due := (hangDue_iff s z).mpr ⟨⟨hl, hc, by rw [ht]; rfl, hu⟩, not_wanted_of_empty unheld asleep⟩
    exact hangEnd_raises hz due ht room

end Sys2Proof.Machine
end

section
/-! What runs on the arbiter's elementary actions, said once for every relation between a state and a later one: a relation that each elementary action brings about is brought about by passes, walks, the events of a frame period, commands and rows. The laws of the waiting queue, the claim table, the engines and the latest starts are such relations. -/

namespace Sys2Proof.Machine
set_option Elab.async false

/-- What a law about station time reads of clock and frame period within the period. -/
structure SameClock (s t : State) : Prop where
  time : t.stc.time = s.stc.time
  phase : t.stc.phase = s.stc.phase
  tickLength : t.stc.tickLength = s.stc.tickLength
  taken : t.period.tickTaken = s.period.tickTaken
  tick : t.period.tick = s.period.tick
  handed : t.period.handed = s.period.handed

namespace SameClock

variable {s t u : State}

theorem refl (s : State) : SameClock s s := ⟨rfl, rfl, rfl, rfl, rfl, rfl⟩

theorem trans (a : SameClock s t) (b : SameClock t u) : SameClock s u :=
  ⟨b.time.trans a.time, b.phase.trans a.phase, b.tickLength.trans a.tickLength, b.taken.trans a.taken,
    b.tick.trans a.tick, b.handed.trans a.handed⟩

theorem of_act (a : ActFrame s t) : SameClock s t where
  time := by rw [a.stc]
  phase := by rw [a.stc]
  tickLength := by rw [a.stc]
  taken := by rw [a.period]
  tick := by rw [a.period]
  handed := by rw [a.period]

theorem lawTime (c : SameClock s t) : Machine.lawTime t = Machine.lawTime s := by
  rw [Machine.lawTime, Machine.lawTime, c.handed, c.time]

end SameClock

/-- A zone leaves its holder, where it has one (R82): what the arbiter does at once when a zone leaves service. -/
def vacate (z : Nat) (cause : RemovalCause) (s : State) : State :=
  match claimHandle (claim s z) with
  | none => s
  | some h => loseZones h (zone1 z) cause none s

theorem zoneLost_eq (z : Nat) (cause : RemovalCause) (s : State) :
    zoneLost z cause s = settle (needPass (vacate z cause s)) := rfl

/-- A request as a new record takes it: no engine, no zones, no ending outcome, and a PLAYOUT source reads its engine (R68, R72). -/
structure NewRequest (r : Request) : Prop where
  engine : r.engine = none
  ending : r.ending = .none
  granted : r.granted = 0
  current : r.live = false → r.current = .engine

/-- A relation between a state and a later one that every elementary action brings about. -/
structure ActionLaw (R : State → State → Prop) : Prop where
  trans : ∀ {s t u}, R s t → R t u → R s u
  /-- Arbiter, engines and line states stand, and so does what a law about station time reads. -/
  same : ∀ {s t}, t.zar = s.zar → t.engines = s.engines → t.zlc = s.zlc → SameClock s t → R s t
  /-- A usable line state becomes no other than a usable one (R52). -/
  lines : ∀ {s x}, (∀ z, z < 48 → usableLine (lineOf s z) = true → usableLine (tget x z).line = true) → R s (s.setZlc x)
  /-- Engines play on, with state and request as they were. -/
  engines : ∀ {s x}, (∀ e, e < 6 → (tget x e).state = (tget s.engines e).state ∧
    (tget x e).handle = (tget s.engines e).handle) → R s (s.setEngines x)
  onTick : ∀ {f s}, R (noticed s) (f (noticed s)) → R s (onTick f s)
  vacate : ∀ z f cause s, z < 48 → R s (vacate z cause (modLine z f s))
  endRequest : ∀ h c s, R s (endRequest h c s)
  enterEnding : ∀ {h o s}, (request s h).state = .granted ∨ (request s h).state = .active →
    (request s h).live = false ∨ (request s h).current = .engine → o ≠ .none → R s (enterEnding h o s)
  walkRequest : ∀ p h, R p.1 (walkRequest p h).1
  lateJoin : ∀ s h, R s (lateJoin s h)
  joinLane : ∀ h s, R s (joinLane h s)
  leavePreroll : ∀ e s, R s (leavePreroll e s)
  boundary : ∀ e s, R s (boundary e s)
  endFade : ∀ e s, R s (endFade e s)
  admitRecord : ∀ {h r s}, freeHandle? s = some h → s.zar.queue.length < 64 → pastLatest s r = false → NewRequest r →
    R s (admitRecord h r s)
  setPendingEnd : ∀ {h s} c, (request s h).state = .granted ∨ (request s h).state = .active →
    R s (setRequest h { request s h with pendingEnd := some c } s)
  setOutcome : ∀ {h s} c, (request s h).state = .ending →
    R s (setRequest h { request s h with ending := .ends c } s)
  countTalk : ∀ s, R s (countTalk s)

/-- Of the records, an end of a live request writes its own (R84, R90). -/
theorem request_endLive (h k : Nat) (c : EndCause) (s : State) (hk : k ≠ h) : request (endLive h c s) k = request s k := by
  have ended : request (endRequest h c s) k = request s k := by
    rw [request, endRequest_requests]
    exact tget_tset_of_ne _ _ (Ne.symm hk)
  have ending : ∀ r, request (setRequest h r s) k = request s k := fun r => by
    rw [request_setRequest, if_neg fun e => hk e.1.symm]
  unfold endLive
  split
  · exact ended
  · unfold enterEnding
    simp only
    split <;> exact ending _

namespace ActionLaw

/-- Two relations that elementary actions bring about are brought about together. -/
theorem and {R Q : State → State → Prop} (a : ActionLaw R) (b : ActionLaw Q) : ActionLaw fun s t => R s t ∧ Q s t where
  trans h k := ⟨a.trans h.1 k.1, b.trans h.2 k.2⟩
  same hz he hl hc := ⟨a.same hz he hl hc, b.same hz he hl hc⟩
  lines h := ⟨a.lines h, b.lines h⟩
  engines h := ⟨a.engines h, b.engines h⟩
  onTick h := ⟨a.onTick h.1, b.onTick h.2⟩
  vacate z f cause s hz := ⟨a.vacate z f cause s hz, b.vacate z f cause s hz⟩
  endRequest h c s := ⟨a.endRequest h c s, b.endRequest h c s⟩
  enterEnding h l o := ⟨a.enterEnding h l o, b.enterEnding h l o⟩
  walkRequest p h := ⟨a.walkRequest p h, b.walkRequest p h⟩
  lateJoin s h := ⟨a.lateJoin s h, b.lateJoin s h⟩
  joinLane h s := ⟨a.joinLane h s, b.joinLane h s⟩
  leavePreroll e s := ⟨a.leavePreroll e s, b.leavePreroll e s⟩
  boundary e s := ⟨a.boundary e s, b.boundary e s⟩
  endFade e s := ⟨a.endFade e s, b.endFade e s⟩
  admitRecord f q p n := ⟨a.admitRecord f q p n, b.admitRecord f q p n⟩
  setPendingEnd c h := ⟨a.setPendingEnd c h, b.setPendingEnd c h⟩
  setOutcome c h := ⟨a.setOutcome c h, b.setOutcome c h⟩
  countTalk s := ⟨a.countTalk s, b.countTalk s⟩

variable {R : State → State → Prop} (a : ActionLaw R) {s t : State}
include a

theorem refl (s : State) : R s s := a.same rfl rfl rfl (.refl s)

/-- Where no law reads what has changed. -/
theorem untouched (hz : t.zar = s.zar := by rfl) (he : t.engines = s.engines := by rfl) (hl : t.zlc = s.zlc := by rfl)
    (hc : SameClock s t := by constructor <;> rfl) : R s t := a.same hz he hl hc

theorem foldl {α : Type} {f : State → α → State} (hf : ∀ s x, R s (f s x)) (l : List α) (s : State) : R s (l.foldl f s) :=
  foldl_keeps (R s) f (fun u x h => a.trans h (hf u x)) l s (a.refl s)

theorem foldl_fst {α β : Type} {f : State × β → α → State × β} (hf : ∀ p x, R p.1 (f p x).1) (l : List α)
    (p : State × β) : R p.1 (l.foldl f p).1 :=
  foldl_keeps (fun q => R p.1 q.1) f (fun q x h => a.trans h (hf q x)) l p (a.refl p.1)

/-! ### Passes, walks and what follows an action -/

theorem pushEvent (kind cause : Byte) (n : Nat) (d : List Field) (s : State) : R s (Machine.pushEvent kind cause n d s) := by
  rw [pushEvent_spec]
  exact a.untouched

theorem pass (s : State) : R s (Machine.pass s) := by
  have walked : R s (lateJoinWalk (waitingWalk (s.setWork { s.work with passesDue := 0 }))) :=
    a.trans (a.trans a.untouched (a.foldl_fst a.walkRequest _ (_, false))) (a.foldl a.lateJoin _ _)
  exact a.trans walked (a.untouched (t := Machine.pass s))

theorem prerollTests (s : State) : R s (Machine.prerollTests s) := a.foldl (fun s e => a.leavePreroll e s) _ s

theorem passWithTests (s : State) : R s (Machine.passWithTests s) := a.trans (a.pass s) (a.prerollTests _)

theorem passes (n : Nat) (s : State) : R s (Machine.passes n s) := by
  induction n generalizing s with
  | zero => exact a.refl s
  | succ n ih =>
    unfold Machine.passes
    split
    · exact a.trans (a.passWithTests s) (ih _)
    · exact a.refl s

theorem schedulerAdmit {r : Request} (new : NewRequest r) {record : Nat → State → State}
    (hr : ∀ h s, R s (record h s)) (s : State) : R s (Machine.schedulerAdmit r record s).1 := by
  unfold Machine.schedulerAdmit
  simp only
  split
  · exact a.refl s
  · split
    · exact a.refl s
    · next hp =>
      split
      · exact a.refl s
      · next hq =>
        split
        · exact a.refl s
        · next h hh =>
          have admitted : R (s.setWork { s.work with passesDue := 0 }) (Machine.admitRecord h { r with
              requested := zdiff r.requested (offZones s), minCoverage := 1, level := 16384 }
              (s.setWork { s.work with passesDue := 0 })) :=
            a.admitRecord hh (not_le.mp hq) (Bool.eq_false_iff.mpr hp) ⟨new.engine, new.ending, new.granted, new.current⟩
          exact a.trans (a.trans (a.trans (a.trans a.untouched admitted) (hr h _)) (a.passes ..)) a.untouched

omit a in
theorem newRequest_fired (cls : AnnClass) (priority : Nat) (preempt resume repeats : Bool) (zones : ZoneSet) (x : Expanded)
    (o : Origin) : NewRequest (firedRequest cls priority preempt resume repeats zones x o) := ⟨rfl, rfl, rfl, fun _ => rfl⟩

theorem missTrigger (k i n : Nat) (s : State) : R s (Machine.missTrigger k i n s) :=
  a.trans (a.untouched (t := dueDrop (.trigger k i) (modTrigger k i (fun t => { t with state := .missed }) s)))
    (a.pushEvent ..)

theorem openCall (k : Nat) (s : State) : R s (Machine.openCall k s) := by
  unfold Machine.openCall
  simp only
  split
  · exact a.trans a.untouched (a.pushEvent ..)
  · exact a.refl s

theorem fireTrigger (k i : Nat) (t : Trigger) (f : Time) (s : State) : R s (Machine.fireTrigger k i t f s).1 := by
  unfold Machine.fireTrigger
  simp only
  split
  · exact a.missTrigger ..
  · next x _ =>
    have admitted := a.schedulerAdmit (r := triggerRequest s k i t x) (newRequest_fired ..)
      (record := recordFired k i) (fun _ _ => a.untouched) s
    split
    · next e => rw [e] at admitted; exact a.trans admitted (a.openCall ..)
    · next e => rw [e] at admitted; exact a.trans admitted (a.missTrigger ..)
    · next e => rw [e] at admitted; exact a.trans admitted (a.missTrigger ..)
    · next e =>
      rw [e] at admitted
      split
      · exact admitted
      · exact a.trans admitted (a.missTrigger ..)

theorem takeTrigger (k i : Nat) (s : State) : R s (Machine.takeTrigger k i s) := by
  unfold Machine.takeTrigger
  simp only
  split
  · exact a.refl s
  · next t _ =>
    have fired := a.fireTrigger k i t (callTrigger (tget s.csc.calls k) i).fire s
    repeat' split
    · exact a.missTrigger ..
    · exact a.refl s
    · next e => rw [e] at fired; exact a.trans fired a.untouched
    · next e => rw [e] at fired; exact fired
    · next e => rw [e] at fired; exact fired

theorem firePeriodic (i : Nat) (s : State) : R s (Machine.firePeriodic i s) := by
  have skips : ∀ u, R u (skipPeriodic i u) := fun _ => a.untouched
  unfold Machine.firePeriodic
  simp only
  split
  · exact skips s
  · split
    · exact skips s
    · next x _ =>
      have admitted := a.schedulerAdmit (r := periodicRequest (tget s.csc.periodics i) x i) (newRequest_fired ..)
        (record := recordPeriodic i) (fun _ _ => a.untouched) s
      split
      · next e => rw [e] at admitted; exact admitted
      all_goals next e => rw [e] at admitted; exact a.trans admitted (skips _)

theorem takeEntry (s : State) (e : DueEntry) : R s (Machine.takeEntry s e) := by
  unfold Machine.takeEntry
  split
  · exact a.takeTrigger ..
  · exact a.trans (a.firePeriodic ..) a.untouched

theorem walk (s : State) : R s (Machine.walk s) := a.foldl a.takeEntry _ s

theorem settleFor (n : Nat) (s : State) : R s (Machine.settleFor n s) := by
  induction n generalizing s with
  | zero => exact a.refl s
  | succ n ih =>
    unfold Machine.settleFor
    split
    · simp only
      split
      · exact a.trans (a.trans a.untouched (a.walk _)) (ih _)
      · exact a.trans a.untouched (ih _)
    · split
      · exact a.trans (a.passWithTests s) (ih _)
      · exact a.refl s

/-- What an action brings about. -/
theorem settle (s : State) : R s (Machine.settle s) := a.settleFor _ s

/-- A pass that is due, and what it brings about. -/
theorem settlePass (s : State) : R s (Machine.settle (needPass s)) := a.trans a.untouched (a.settle _)

/-! ### Ends of several requests (R87 to R89) -/

theorem endAll {f : Nat → State → State} (hf : ∀ h s, R s (f h s)) (hs : List Nat) (s : State) :
    R s (Machine.endAll f hs s) := by
  unfold Machine.endAll
  split
  · exact a.refl s
  · exact a.trans (a.foldl (fun s h => hf h s) hs s) (a.settle _)

theorem expireAll (s : State) : R s (Machine.expireAll s) := a.endAll (fun h s => a.endRequest h .expired s) _ s

theorem endLive {h : Nat} (hl : liveHolder (request s h) = true) (c : EndCause) : R s (Machine.endLive h c s) := by
  simp only [liveHolder, Bool.and_eq_true, Bool.or_eq_true, beq_iff_eq] at hl
  unfold Machine.endLive
  split
  · exact a.endRequest ..
  · next lane =>
    refine a.enterEnding hl.2 (.inr ?_) nofun
    cases hc : (request s h).current
    · rfl
    · exact absurd hc lane

/-- Live requests of a list without repetition are ended one after the other: each end leaves the records of the others. -/
theorem foldl_endLive (c : EndCause) : ∀ (hs : List Nat) (s : State), hs.Nodup →
    (∀ h ∈ hs, liveHolder (request s h) = true) → R s (hs.foldl (fun s h => Machine.endLive h c s) s)
  | [], s, _, _ => a.refl s
  | h :: hs, s, nodup, live => by
    obtain ⟨hn, nodup⟩ := List.nodup_cons.mp nodup
    refine a.trans (a.endLive (live h (.head _)) c) (foldl_endLive c hs _ nodup fun k hk => ?_)
    rw [request_endLive h k c s fun e => hn (e ▸ hk)]
    exact live k (.tail _ hk)

theorem endAllLive (c : EndCause) {hs : List Nat} (nodup : hs.Nodup) (live : ∀ h ∈ hs, liveHolder (request s h) = true) :
    R s (Machine.endAll (fun h => Machine.endLive h c) hs s) := by
  unfold Machine.endAll
  split
  · exact a.refl s
  · exact a.trans (a.foldl_endLive c hs s nodup live) (a.settle _)

theorem loseSources (s : State) : R s (Machine.loseSources s) :=
  a.endAllLive .sourceLost (List.nodup_range.filter _) fun _ hh => (List.mem_filter.mp hh).2

theorem releaseRequest (k : Nat) (hard : Bool) (hf : (request s k).state ≠ .free) (he : (request s k).state ≠ .ending) :
    R s (Machine.releaseRequest k hard s) := by
  unfold Machine.releaseRequest
  simp only
  split
  · exact a.endRequest ..
  · next h =>
    have held : (request s k).state = .granted ∨ (request s k).state = .active := by
      have waiting : (request s k).state ≠ .waiting := fun e => h (.inl e)
      cases hs : (request s k).state <;> simp_all
    split
    · next live =>
      refine a.enterEnding held (.inr ?_) nofun
      cases hc : (request s k).current
      · rfl
      · exact absurd (.inr ⟨live, hc⟩) h
    · next playout =>
      repeat' split
      · exact a.enterEnding held (.inl (by simpa using playout)) nofun
      · exact a.refl s
      · exact a.setPendingEnd _ held

theorem withdraw (h : Nat) (s : State) : R s (Machine.withdraw h s) := by
  unfold Machine.withdraw
  split
  · exact a.endRequest ..
  · exact a.refl s

theorem cancelRequest (h : Nat) (s : State) : R s (Machine.cancelRequest h s) := by
  unfold Machine.cancelRequest
  simp only
  split
  · split
    · exact a.endRequest ..
    · next e => exact a.setPendingEnd _ (.inl e)
    · next e => exact a.setPendingEnd _ (.inr e)
    · next e => exact a.setOutcome _ e
    · exact a.refl s
  · exact a.refl s

/-! ### The scheduler's notices and special triggers (R164, R167) -/

theorem supersede (k : Nat) (p : CallTrigger → Bool) (s : State) : R s (Machine.supersede k p s) := by
  refine a.trans (a.foldl (fun u i => ?_) (List.range (tget s.csc.calls k).triggers.length) s) a.untouched
  split
  · exact a.refl u
  · exact a.untouched

theorem closeCall (s : State) (k : Nat) : R s (Machine.closeCall s k) := by
  unfold Machine.closeCall
  simp only
  split
  · exact a.trans (a.trans (a.supersede ..) a.untouched) (a.pushEvent ..)
  · exact a.refl s

theorem schedulerNotice (s : State) : R s (Machine.schedulerNotice s) := by
  unfold Machine.schedulerNotice
  split
  · exact a.trans (a.trans (a.walk s) (a.settle _)) (a.foldl a.closeCall _ _)
  · exact a.refl s

theorem fireSpecial (k i : Nat) (s : State) : R s (Machine.fireSpecial k i s).1 := by
  unfold Machine.fireSpecial
  simp only
  split
  · exact a.refl s
  · next t _ =>
    have fired := a.fireTrigger k i t (now s).1 s
    repeat' split
    · exact a.refl s
    · exact a.pushEvent ..
    · exact a.missTrigger ..
    all_goals next e => rw [e] at fired; exact a.trans fired (a.settle _)

/-! ### The line controller (R53 to R64) -/

theorem modLine {z : Nat} {f : ZoneLine → ZoneLine}
    (h : usableLine (lineOf s z) = true → usableLine (f (tget s.zlc z)).line = true) : R s (Machine.modLine z f s) := by
  refine a.lines fun y hy hu => ?_
  show usableLine (tget (tmod s.zlc z f) y).line = true
  rw [tget_tmod]
  split
  · next e => exact e.1 ▸ h (e.1 ▸ hu)
  · exact hu

theorem markTested (z : Nat) (s : State) : R s (Machine.markTested z s) := a.untouched

theorem leaveStandby (z : Nat) (old : LineState) (s : State) : R s (Machine.leaveStandby z old s) := by
  rw [leaveStandby_eq]
  exact a.untouched

/-- A zone whose line leaves service is taken from its holder, with what that brings about (R64). -/
theorem leaveService {z : Nat} (hz : z < 48) (f : ZoneLine → ZoneLine) (old : LineState) (cause : RemovalCause) (s : State) :
    R s (zoneLost z cause (Machine.leaveStandby z old (Machine.modLine z f s))) := by
  rw [zoneLost_eq, leaveStandby_eq]
  exact a.trans (a.trans (a.untouched (t := s.setAmt (peakLeft z old (Machine.modLine z f s)))) (a.vacate z f cause _ hz))
    (a.settlePass _)

theorem lineTest {z : Nat} {f : State → State} (h : ∀ u, u.zlc = s.zlc → R u (f u)) : R s (Machine.lineTest z f s) := by
  unfold Machine.lineTest
  split
  · exact a.onTick (h (noticed s) rfl)
  · exact h s rfl

theorem testWaiting (z : Nat) (s : State) : R s (Machine.testWaiting z s) := by
  refine a.foldl (fun s e => ?_) _ s
  split
  · exact a.leavePreroll e s
  · exact a.refl s

theorem reportLive (z : Nat) (s : State) : R s (Machine.reportLive z s) := by
  unfold Machine.reportLive
  simp only
  refine a.trans ?_ (a.trans (a.testWaiting z _) (a.settle _))
  split
  · exact a.joinLane ..
  · exact a.refl s
  · exact a.refl s

theorem enterLive (z : Nat) (s : State) : R s (Machine.enterLive z s) :=
  a.trans (a.trans (a.modLine fun _ => rfl) (a.markTested ..)) (a.reportLive ..)

theorem wakeZone (z : Nat) (s : State) : R s (Machine.wakeZone z s) := by
  have cleared : R s (clearPeak z s) := a.untouched
  unfold Machine.wakeZone
  simp only
  split
  · exact a.trans cleared (a.enterLive ..)
  · exact a.trans cleared (a.trans (a.modLine fun _ => rfl) (a.markTested ..))

theorem testToLive (s : State) (z : Nat) : R s (Machine.testToLive s z) := by
  unfold Machine.testToLive
  simp only
  split
  · split
    · exact a.lineTest fun u _ => a.enterLive z u
    · split
      · exact a.lineTest fun u _ => a.wakeZone z u
      · exact a.refl s
    all_goals exact a.refl s
  · exact a.refl s

theorem liveRounds (n : Nat) (s : State) : R s (Machine.liveRounds n s) :=
  liveRounds_keeps (R s) (fun _ h => a.trans h (a.foldl a.testToLive ..)) n (a.refl s)

theorem idleTest (z : Nat) (s : State) : R s (Machine.idleTest z s) := by
  unfold Machine.idleTest
  simp only
  split
  · exact a.refl s
  · split
    · exact a.trans (a.trans (a.modLine fun _ => rfl) (a.markTested ..)) (a.pushEvent ..)
    · exact a.trans (a.modLine fun _ => rfl) (a.markTested ..)

theorem hangEnd (z : Nat) (s : State) : R s (Machine.hangEnd z s) := by
  unfold Machine.hangEnd
  split
  · exact a.trans (a.trans (a.modLine fun _ => rfl) (a.markTested ..)) (a.onTick (a.pushEvent ..))
  · exact a.refl s

theorem quietTest (s : State) (z : Nat) : R s (Machine.quietTest s z) := by
  unfold Machine.quietTest
  split
  · split
    · split
      · exact a.lineTest fun u _ => a.wakeZone z u
      · exact a.refl s
    · exact a.lineTest fun u _ => a.idleTest z u
    · exact a.hangEnd z s
    all_goals exact a.refl s
  · exact a.refl s

theorem wakeEnd (z : Nat) (s : State) : R s (Machine.wakeEnd z s) := by
  unfold Machine.wakeEnd
  split
  · exact a.enterLive z s
  · exact a.refl s

theorem wakeTest (s : State) (z : Nat) : R s (Machine.wakeTest s z) := by
  unfold Machine.wakeTest
  simp only
  split
  · split
    · exact a.wakeEnd z s
    · exact a.modLine id
  · exact a.refl s

theorem lineTests (s : State) : R s (Machine.lineTests s) :=
  a.trans (a.trans (a.trans (a.foldl a.wakeTest _ s) (a.liveRounds 48 _)) (a.foldl (fun s z => a.hangEnd z s) _ _))
    (a.foldl a.quietTest _ _)

/-! ### Other events of a frame period -/

theorem windowEnd (z : Nat) (s : State) : R s (Machine.windowEnd z s) := by
  unfold Machine.windowEnd
  split
  · exact a.untouched
  · exact a.refl s

theorem linkLost (s : State) : R s (Machine.linkLost s) := by
  unfold Machine.linkLost
  split
  · exact a.trans (a.trans a.untouched (a.pushEvent ..)) (a.loseSources _)
  · exact a.refl s

theorem linkRecovered (s : State) : R s (Machine.linkRecovered s) := by
  unfold Machine.linkRecovered
  split
  · exact a.trans (a.trans a.untouched (a.pushEvent ..)) (a.settlePass _)
  · exact a.refl s

theorem engineEvents (s : State) : R s (Machine.engineEvents s) :=
  a.trans (a.foldl (fun s e => a.trans (a.boundary e s) (a.settle _)) _ s)
    (a.foldl (fun s e => a.trans (a.endFade e s) (a.settle _)) _ _)

theorem countHang (s : State) : R s (Machine.countHang s) := by
  refine a.lines fun z hz hu => ?_
  rw [tget_map _ _ z hz, countHangOf]
  split <;> exact hu

/-- What a tick end brings after the expiry test (R138). -/
theorem afterExpiry (s : State) : R (Machine.expireAll s) (Machine.tickActions s) := by
  rw [Machine.tickActions, countHoldover_eq]
  exact a.trans (a.trans (a.trans (a.countTalk _) (a.countHang _)) (a.schedulerNotice _)) a.untouched

theorem tickActions (s : State) : R s (Machine.tickActions s) := a.trans (a.expireAll s) (a.afterExpiry s)

theorem tickNotice {f : State → State} (h : R (noticed s) (f (noticed s))) : R s (Machine.tickNotice f s) :=
  a.trans (a.onTick h) a.untouched

theorem talkTimeouts {hs : List Nat} (nodup : hs.Nodup) (s : State) : R s (Machine.talkTimeouts hs s) := by
  unfold Machine.talkTimeouts
  split
  · exact a.refl s
  · refine a.tickNotice (a.endAllLive .talkTimeout (nodup.filter _) fun h hh => ?_)
    have due := (List.mem_filter.mp hh).2
    simp only [talkDue, Bool.and_eq_true] at due
    exact due.1.1

theorem talkTimeout (h : Nat) (s : State) : R s (Machine.talkTimeout h s) := by
  unfold Machine.talkTimeout
  split
  · exact a.talkTimeouts (List.nodup_singleton h) s
  · exact a.refl s

theorem enterHoldover (s : State) : R s (Machine.enterHoldover s) := a.trans a.untouched (a.pushEvent ..)

theorem holdoverEntry (s : State) : R s (Machine.holdoverEntry s) := by
  unfold Machine.holdoverEntry
  split
  · exact a.onTick (a.enterHoldover _)
  · exact a.refl s

/-- What a frame period brings after the taking of its cell and before its tick end (log 1). -/
theorem earlierEvents (s : State) : R s (Machine.engineEvents (heldWakes (windowEnds (linkEvents s)))) :=
  a.trans (a.trans (a.trans (a.linkLost s) (a.linkRecovered _)) (a.foldl (fun s z => a.windowEnd z s) _ _))
    (a.trans (a.foldl (fun s z => a.wakeEnd z s) _ _) (a.engineEvents _))

/-- What a frame period brings after its tick end (log 1). -/
theorem laterEvents (s : State) : R s (Machine.lineTests (Machine.holdoverEntry (Machine.talkTimeouts (List.range 96) s))) :=
  a.trans (a.trans (a.talkTimeouts List.nodup_range s) (a.holdoverEntry _)) (a.lineTests _)

/-! ### The start work, cells and ingress frames -/

omit a in
theorem engineStep_state (s : State) (x : Engine) : (engineStep s x).state = x.state ∧ (engineStep s x).handle = x.handle := by
  have passed : ∀ y, (passFragment s y).state = y.state ∧ (passFragment s y).handle = y.handle := fun y => by
    unfold passFragment
    split
    · split <;> exact ⟨rfl, rfl⟩
    · exact ⟨rfl, rfl⟩
  have advanced : ∀ y, (advancePosition s y).state = y.state ∧ (advancePosition s y).handle = y.handle := fun y => by
    unfold advancePosition
    split <;> exact ⟨rfl, rfl⟩
  unfold engineStep
  split
  · exact ⟨rfl, rfl⟩
  · exact ⟨rfl, rfl⟩
  · exact advanced x
  · have p := passed x
    have q := advanced (passFragment s x)
    have r := passed (advancePosition s (passFragment s x))
    exact ⟨r.1.trans (q.1.trans p.1), r.2.trans (q.2.trans p.2)⟩

theorem startPeriod (s : State) : R s (Machine.startPeriod s) := by
  unfold Machine.startPeriod
  split
  · exact a.refl s
  · have chosen : R s (Machine.chooseCell s) := by
      rw [chooseCell_spec]
      exact a.untouched
    have stepped : R (Machine.chooseCell s) ((Machine.chooseCell s).setEngines
        ((Machine.chooseCell s).engines.map (engineStep (Machine.chooseCell s)))) := a.engines fun e he => by
      rw [tget_map _ _ e he]
      exact engineStep_state ..
    exact a.trans chosen (a.trans stepped a.untouched)

theorem chooseCell (s : State) : R s (Machine.chooseCell s) := by
  rw [chooseCell_spec]
  exact a.untouched

theorem discardPartial (s : State) : R s (Machine.discardPartial s) := by
  unfold Machine.discardPartial
  split
  · exact a.refl s
  · exact a.untouched

theorem takeServiceWord (start : Bool) (w : Word) (s : State) : R s (Machine.takeServiceWord start w s) := by
  unfold Machine.takeServiceWord
  split
  · exact a.trans (a.discardPartial s) a.untouched
  · split
    · exact a.refl s
    · split <;> exact a.untouched

theorem goodFrame (f : Frame) (s : State) : R s (Machine.goodFrame f s) := by
  unfold Machine.goodFrame
  simp only
  split
  · exact a.trans (a.trans a.untouched (a.pushEvent ..)) (a.takeServiceWord ..)
  · exact a.trans a.untouched (a.takeServiceWord ..)
  · split
    · exact a.trans a.untouched (a.takeServiceWord ..)
    · exact a.trans a.untouched (a.discardPartial _)

theorem badFrame (s : State) : R s (Machine.badFrame s) := by
  unfold Machine.badFrame
  simp only
  split
  · exact a.untouched
  all_goals exact a.trans a.untouched (a.discardPartial _)

theorem missingFrame (s : State) : R s (Machine.missingFrame s) := by
  unfold Machine.missingFrame
  simp only
  split
  · exact a.refl s
  · exact a.trans a.untouched (a.discardPartial _)
  · split
    · exact a.trans a.untouched (a.discardPartial _)
    · exact a.refl s

theorem ingressFrame (f : Frame) (s : State) : R s (Machine.ingressFrame f s) := by
  unfold Machine.ingressFrame
  split
  · exact a.goodFrame f s
  · split
    · exact a.badFrame s
    · exact a.missingFrame s

theorem releaseHoldEnd (z : Nat) (s : State) : R s (Machine.releaseHoldEnd z s) := by
  unfold Machine.releaseHoldEnd
  simp only
  split
  · exact a.untouched
  · exact a.refl s

theorem holdWake (z : Nat) (s : State) : R s (Machine.holdWake z s) := by
  unfold Machine.holdWake
  split
  · exact a.untouched
  · exact a.refl s

theorem holdHang (z : Nat) (s : State) : R s (Machine.holdHang z s) := by
  unfold Machine.holdHang
  split
  · exact a.untouched
  · exact a.refl s

/-! ### Commands on lanes, mixer, tracker and zone lines (R10, R31, R34, R47, R60 to R63) -/

theorem refuse (st : Status) (s : State) : R s (Machine.refuse st s).after := a.refl s

theorem laneSet (lane role zone : Byte) (s : State) : R s (Machine.laneSet lane role zone s).after := by
  unfold Machine.laneSet
  simp only
  split
  · exact a.refuse ..
  · split
    · exact a.refuse ..
    · exact a.untouched

theorem routeSet (zone route lane : Byte) (coeff : Half) (s : State) :
    R s (Machine.routeSet zone route lane coeff s).after := by
  rw [routeSet_eq]
  split
  · exact a.refuse ..
  · exact a.trans (a.untouched (t := s.setZmx (tset s.zmx zone.toNat (routeWritten s zone route lane coeff))))
      (a.modLine (f := fun l => { l with routeLive := routesLive (routeWritten s zone route lane coeff) }) id)

theorem zoneMixSet (zone : Byte) (trim duckLevel rampStep : Half) (s : State) :
    R s (Machine.zoneMixSet zone trim duckLevel rampStep s).after := by
  unfold Machine.zoneMixSet
  simp only
  split
  · exact a.refuse ..
  · exact a.untouched

theorem ambientSet (zone flags : Byte) (threshold : Word) (slope ambMax stepMax hold : Half) (s : State) :
    R s (Machine.ambientSet zone flags threshold slope ambMax stepMax hold s).after := by
  unfold Machine.ambientSet
  simp only
  split
  · exact a.refuse ..
  · exact a.trans (a.windowEnd _ s) a.untouched

theorem applyEnable {z : Nat} (hz : z < 48) (enable : Bool) (s : State) : R s (Machine.applyEnable z enable s) := by
  by_cases off : (tget s.zlc z).line = .off
  · cases enable with
    | false => rw [applyEnable_same (.inr ⟨rfl, off⟩)]; exact a.refl s
    | true =>
      rw [applyEnable_on off]
      exact a.trans (a.trans (a.trans (a.modLine fun _ => rfl) (a.markTested ..)) (a.settlePass _)) (a.pushEvent ..)
  · cases enable with
    | false =>
      rw [applyEnable_off off]
      exact a.trans (a.leaveService hz ..) (a.pushEvent ..)
    | true => rw [applyEnable_same (.inl ⟨rfl, off⟩)]; exact a.refl s

theorem zoneSet (zone flags : Byte) (preroll hang : Half) (s : State) :
    R s (Machine.zoneSet zone flags preroll hang s).after := by
  unfold Machine.zoneSet
  simp only
  split
  · exact a.refuse ..
  · next ok =>
    split
    · exact a.refuse ..
    · exact a.trans (a.modLine id) (a.applyEnable (by omega) ..)

theorem zoneFault (zone faultCode : Byte) (s : State) : R s (Machine.zoneFault zone faultCode s).after := by
  unfold Machine.zoneFault
  simp only
  split
  · exact a.refuse ..
  · next ok =>
    split
    · exact a.refuse ..
    · split
      · exact a.refl s
      · exact a.trans (a.leaveService (by omega) ..) (a.pushEvent ..)

theorem zoneClear (zone : Byte) (s : State) : R s (Machine.zoneClear zone s).after := by
  unfold Machine.zoneClear
  simp only
  split
  · exact a.refuse ..
  · split
    · exact a.refuse ..
    · dsimp only
      rw [clearZone_eq]
      exact a.trans (a.trans (a.trans (a.modLine fun _ => rfl) (a.markTested ..)) (a.settlePass _)) (a.pushEvent ..)

/-! ### Requests (R71, R91) -/

omit a in
theorem newRequest_announce {f : AnnounceFields} {tag : Byte} {r : Request} (h : announceRequest f tag s = some r) :
    NewRequest r := by
  unfold announceRequest at h
  split at h
  · cases h
    unfold announceLive
    simp only
    split
    · exact ⟨rfl, rfl, rfl, nofun⟩
    · split <;> exact ⟨rfl, rfl, rfl, nofun⟩
  · obtain ⟨x, -, rfl⟩ := Option.map_eq_some_iff.mp h
    exact ⟨rfl, rfl, rfl, fun _ => rfl⟩

theorem announce (f : AnnounceFields) (tag : Byte) (s : State) : R s (Machine.announce f tag s).after := by
  unfold Machine.announce
  simp only
  split
  · exact a.refuse ..
  · split
    · exact a.refuse ..
    · next r hr =>
      split
      · exact a.refuse ..
      · next hstate =>
        split
        · exact a.refuse ..
        · next k hk =>
          split
          · exact a.refuse ..
          · next hq =>
            simp only [announceState, Bool.or_eq_true, not_or, Bool.not_eq_true] at hstate
            have admitted : R s (Machine.admitRecord k r s) :=
              a.admitRecord hk (not_le.mp hq) hstate.2 (newRequest_announce hr)
            have passed := a.trans (a.trans admitted (a.pass _)) (a.prerollTests _)
            dsimp only
            exact a.trans passed (a.settle _)

theorem release (handle mode : Byte) (s : State) : R s (Machine.release handle mode s).after := by
  unfold Machine.release
  simp only
  split
  · exact a.refuse ..
  · split
    · exact a.refuse ..
    · next free =>
      split
      · exact a.refuse ..
      · next ending => exact a.trans (a.releaseRequest _ _ free ending) (a.settle _)

/-! ### Clip memory, phrases, templates, and the tables of the scheduler (R118 to R122, R125, R149, R151, R169) -/

theorem clipWrite (addr : Word) (samples : List ClipSample) (s : State) : R s (Machine.clipWrite addr samples s).after := by
  unfold Machine.clipWrite
  simp only
  repeat' split
  all_goals exact a.untouched

theorem clipRead (addr : Word) (s : State) : R s (Machine.clipRead addr s).after := by
  unfold Machine.clipRead
  simp only
  split <;> exact a.refl s

theorem phraseSet (phrase : Half) (present : Byte) (start length : Word) (s : State) :
    R s (Machine.phraseSet phrase present start length s).after := by
  unfold Machine.phraseSet
  simp only
  split <;> exact a.untouched

theorem templateSet (template wordingCount wordingIndex itemCount firstItem : Byte) (items : List ItemCell) (s : State) :
    R s (Machine.templateSet template wordingCount wordingIndex itemCount firstItem items s).after := by
  unfold Machine.templateSet
  simp only
  repeat' split
  all_goals exact a.untouched

theorem platformSet (platform : Byte) (x y : ZoneSet) (s : State) : R s (Machine.platformSet platform x y s).after := by
  unfold Machine.platformSet
  simp only
  split <;> exact a.untouched

theorem planSet (plan triggerCount : Byte) (closeMargin threshold : Half) (firstTrigger : Byte)
    (triggers : List TriggerCell) (s : State) :
    R s (Machine.planSet plan triggerCount closeMargin threshold firstTrigger triggers s).after := by
  unfold Machine.planSet
  simp only
  repeat' split
  all_goals exact a.untouched

theorem periodicSet (p : PeriodicFields) (s : State) : R s (Machine.periodicSet p s).after := by
  unfold Machine.periodicSet
  simp only
  repeat' split
  all_goals exact a.untouched

theorem clockSet (window : Word) (limit : Half) (s : State) : R s (Machine.clockSet window limit s).after := by
  unfold Machine.clockSet
  simp only
  split
  · exact a.refuse ..
  · split
    · exact a.trans a.untouched (a.enterHoldover _)
    · exact a.untouched

/-! ### Calls (R155 to R168) -/

theorem placeTriggers (slot : Nat) (ts : List CallTrigger) (s : State) : R s (Machine.placeTriggers slot ts s) := by
  refine a.foldl (fun s p => ?_) _ s
  split
  · exact a.untouched
  · exact a.refl s

theorem callLoad (f : CallFields) (s : State) : R s (Machine.callLoad f s).after := by
  unfold Machine.callLoad
  split
  · exact a.refuse ..
  · split
    · exact a.refuse ..
    · simp only
      split
      · exact a.refuse ..
      · next p _ _ =>
        have placed := a.placeTriggers f.slot.toNat (p.triggers.map (loadedTrigger (loadedCall f)))
          (setCall f.slot.toNat { loadedCall f with triggers := p.triggers.map (loadedTrigger (loadedCall f)) } s)
        have stored : R s (setCall f.slot.toNat
          { loadedCall f with triggers := p.triggers.map (loadedTrigger (loadedCall f)) } s) := a.untouched
        exact a.trans (a.trans stored placed) (a.untouched (t := noteLoad ..))

theorem amendTrigger (slot : Nat) (p : State × Withdrawn) (i : Nat) : R p.1 (Machine.amendTrigger slot p i).1 := by
  have replaced : R p.1 (replaceTrigger slot i p.1) := by
    unfold replaceTrigger
    simp only
    split
    · exact a.untouched
    · exact a.refl _
  unfold Machine.amendTrigger
  simp only
  split
  · split
    · exact replaced
    · exact a.refl _
  · split
    · exact a.trans (a.withdraw ..) (a.settle _)
    · exact a.refl _
  · exact a.refl _

theorem amendTriggers (slot : Nat) (s : State) : R s (Machine.amendTriggers slot s).1 := by
  have all := a.foldl_fst (a.amendTrigger slot) (List.range (tget s.csc.calls slot).triggers.length) (s, ⟨0, []⟩)
  unfold Machine.amendTriggers
  simp only
  split
  · exact a.trans all (a.trans (a.walk _) (a.settle _))
  · exact all

theorem amendSpecial (slot : Nat) (role : TriggerRole) (fires : Bool) (s : State) :
    R s (Machine.amendSpecial slot role fires s).1 := by
  unfold Machine.amendSpecial
  split
  · exact a.fireSpecial ..
  · exact a.refl s

theorem noteDelay (slot : Nat) (q : Bool) (o : SpecialOutcome) (d : Int) (s : State) : R s (Machine.noteDelay slot q o d s) := by
  unfold Machine.noteDelay
  split
  · exact a.untouched
  · exact a.refl s

theorem callAmend (slot flags : Byte) (delay : Word) (platform : Byte) (s : State) :
    R s (Machine.callAmend slot flags delay platform s).after := by
  unfold Machine.callAmend
  simp only
  split
  · exact a.refuse ..
  · split
    · exact a.refuse ..
    · exact a.trans (a.trans (a.trans (a.trans a.untouched (a.amendTriggers ..)) (a.amendSpecial ..)) (a.amendSpecial ..))
        (a.noteDelay ..)

theorem cancelTrigger (slot : Nat) (p : State × Nat) (i : Nat) : R p.1 (Machine.cancelTrigger slot p i).1 := by
  unfold Machine.cancelTrigger
  simp only
  split
  · split
    · exact a.trans (a.cancelRequest ..) (a.settle _)
    · exact a.refl _
  · exact a.refl _

theorem cancelSpecial (slot : Nat) (old : CallState) (s : State) : R s (Machine.cancelSpecial slot old s).1 := by
  unfold Machine.cancelSpecial
  split
  · exact a.fireSpecial ..
  · exact a.supersede ..
  · exact a.refl s

theorem callCancel (slot : Byte) (s : State) : R s (Machine.callCancel slot s).after := by
  unfold Machine.callCancel
  simp only
  split
  · exact a.refuse ..
  · exact a.trans (a.trans (a.trans (a.trans (a.supersede ..) (a.foldl_fst (a.cancelTrigger slot.toNat) _ (_, 0)))
      (a.cancelSpecial ..)) a.untouched) (a.pushEvent ..)

theorem callClear (slot : Byte) (s : State) : R s (Machine.callClear slot s).after := by
  unfold Machine.callClear
  simp only
  split
  · exact a.refuse ..
  · exact a.untouched

/-! ### Reporting (R179 to R183) -/

theorem queryAnswer (h : R s t) (kind : Nat) (q : QueryFields) (parts : Nat) (contents : List Field) :
    R s (Machine.queryAnswer kind q parts contents t s).after := by
  unfold Machine.queryAnswer
  split
  · exact a.refuse ..
  · exact h

theorem queryStatus (q : QueryFields) (s : State) : R s (Machine.queryStatus q s).after := by
  unfold Machine.queryStatus
  split
  · exact a.refuse ..
  · split
    · exact a.queryAnswer a.untouched ..
    · exact a.queryAnswer (a.refl s) ..

theorem queryZone (q : QueryFields) (s : State) : R s (Machine.queryZone q s).after := by
  unfold Machine.queryZone
  split
  · exact a.refuse ..
  · exact a.queryAnswer (a.refl s) ..

theorem queryRequest (q : QueryFields) (s : State) : R s (Machine.queryRequest q s).after := by
  unfold Machine.queryRequest
  simp only
  split
  · exact a.refuse ..
  · split
    · exact a.refuse ..
    · exact a.queryAnswer (a.refl s) ..

theorem queryEngine (q : QueryFields) (s : State) : R s (Machine.queryEngine q s).after := by
  unfold Machine.queryEngine
  split
  · exact a.refuse ..
  · exact a.queryAnswer (a.refl s) ..

theorem queryCall (q : QueryFields) (s : State) : R s (Machine.queryCall q s).after := by
  unfold Machine.queryCall
  simp only
  split
  · exact a.refuse ..
  · split
    · exact a.refuse ..
    · exact a.queryAnswer (a.refl s) ..

theorem queryCounters (q : QueryFields) (s : State) : R s (Machine.queryCounters q s).after := by
  unfold Machine.queryCounters
  split
  · exact a.refuse ..
  · refine a.queryAnswer ?_ ..
    split
    · exact a.untouched
    · exact a.refl s

theorem queryPhrase (q : QueryFields) (s : State) : R s (Machine.queryPhrase q s).after := by
  unfold Machine.queryPhrase
  split
  · exact a.refuse ..
  · split
    · exact a.refuse ..
    · exact a.queryAnswer (a.refl s) ..

theorem pushReply (r : Reply) (s : State) : R s (Machine.pushReply r s) := by
  rw [pushReply_spec]
  exact a.untouched

end ActionLaw

/-! ### Rows -/

/-- A relation that the rows bring about: it follows from one that elementary actions bring about, and the operations that move the clock or reset a block bring it about too. -/
structure RowLaw (R Q : State → State → Prop) : Prop where
  action : ActionLaw R
  of_action : ∀ {s t}, R s t → Q s t
  trans : ∀ {s t u}, Q s t → Q t u → Q s u
  tickEnd : ∀ s, Q s (tickEnd s)
  time : ∀ reference flags s, Q s (timeCommand reference flags s).after
  endPeriod : ∀ s, Q s (advancePeriod (lineTests (holdoverEntry (talkTimeouts (List.range 96) (Machine.tickEnd s)))))
  unitReset : ∀ s, Q s (unitReset s).after
  powerOn : ∀ straps s, Q s (powerOn straps s)
  pinReset : ∀ straps s, Q s (pinReset straps s)

namespace RowLaw

variable {R Q : State → State → Prop} (a : RowLaw R Q) {s t : State}
include a

theorem refl (s : State) : Q s s := a.of_action (a.action.refl s)

/-- A command that is taken, when what it carries out brings the relation about. -/
theorem takeCommand {run : State → Answer} (hrun : ∀ s, Q s (run s).after) (h : Header) (code : Byte) (s : State) :
    Q s (Machine.takeCommand h code run s) :=
  takeCommand_keeps (Q s) (fun r _ k => a.trans k (a.of_action (a.action.pushReply r _)))
    (fun _ _ k => a.trans k (a.of_action a.action.untouched)) h code run s (a.refl s)
    (a.trans (a.of_action (a.action.startPeriod s)) (hrun _))

/-- A command whose effect is made of elementary actions. -/
theorem command {run : State → Answer} (hrun : ∀ s, R s (run s).after) (h : Header) (code : Byte) (s : State) :
    Q s (Machine.takeCommand h code run s) := a.takeCommand (fun s => a.of_action (hrun s)) h code s

theorem unknownCommand (h : Header) (code : Byte) (s : State) : Q s (Machine.unknownCommand h code s) := by
  unfold Machine.unknownCommand
  split
  · exact a.refl s
  · exact a.command (a.action.refuse .noent) ..

theorem cellCommand {i : Instr} (h : Machine.cellCommand i s = .next t) : Q s t := by
  have b := a.action
  cases i <;> cases h
  case laneSet => exact a.command (b.laneSet _ _ _) ..
  case routeSet => exact a.command (b.routeSet _ _ _ _) ..
  case zoneMixSet => exact a.command (b.zoneMixSet _ _ _ _) ..
  case ambientSet => exact a.command (b.ambientSet _ _ _ _ _ _ _) ..
  case zoneSet => exact a.command (b.zoneSet _ _ _ _) ..
  case zoneFault => exact a.command (b.zoneFault _ _) ..
  case zoneClear => exact a.command (b.zoneClear _) ..
  case announce => exact a.command (b.announce _ _) ..
  case release => exact a.command (b.release _ _) ..
  case clipWrite => exact a.command (b.clipWrite _ _) ..
  case clipRead => exact a.command (b.clipRead _) ..
  case phraseSet => exact a.command (b.phraseSet _ _ _ _) ..
  case templateSet => exact a.command (b.templateSet _ _ _ _ _ _) ..
  case time => exact a.takeCommand (a.time _ _) ..
  case clockSet => exact a.command (b.clockSet _ _) ..
  case platformSet => exact a.command (b.platformSet _ _ _) ..
  case planSet => exact a.command (b.planSet _ _ _ _ _ _) ..
  case callLoad => exact a.command (b.callLoad _) ..
  case callAmend => exact a.command (b.callAmend _ _ _ _) ..
  case callCancel => exact a.command (b.callCancel _) ..
  case callClear => exact a.command (b.callClear _) ..
  case periodicSet => exact a.command (b.periodicSet _) ..
  case queryStatus => exact a.command (b.queryStatus _) ..
  case queryZone => exact a.command (b.queryZone _) ..
  case queryRequest => exact a.command (b.queryRequest _) ..
  case queryEngine => exact a.command (b.queryEngine _) ..
  case queryCall => exact a.command (b.queryCall _) ..
  case queryCounters => exact a.command (b.queryCounters _) ..
  case queryPhrase => exact a.command (b.queryPhrase _) ..
  case identify => exact a.command (fun s => b.refl s) ..
  case unitReset => exact a.takeCommand a.unitReset ..
  case unknownCommand => exact a.unknownCommand ..
  all_goals exact a.refl s

theorem cellEffect (m : CellMeaning) (s : State) : Q s (Machine.cellEffect m s) := by
  unfold Machine.cellEffect
  split
  · exact a.command (a.action.refuse .badarg) ..
  · split
    · next h => exact a.cellCommand h
    · exact a.refl s
    · exact a.refl s

theorem takeCell (s : State) : Q s (Machine.takeCell s) := by
  unfold Machine.takeCell
  split
  · exact a.refl s
  · exact a.trans (a.cellEffect ..) (a.of_action a.action.untouched)

theorem framePeriod (part : PeriodPart) (s : State) : Q s (Machine.framePeriod part s) := by
  have begun := a.of_action (a.action.startPeriod s)
  cases part with
  | start => exact begun
  | whole =>
    exact a.trans (a.trans (a.trans begun (a.takeCell _)) (a.of_action (a.action.earlierEvents _))) (a.endPeriod _)

/-- What a row does after the start work. -/
theorem begun (h : R (startPeriod s) t) : Q s t := a.of_action (a.action.trans (a.action.startPeriod s) h)

theorem exec {c : Instr} (h : Machine.exec c s = .next t) : Q s t := by
  have b := a.action
  have command : Machine.cellCommand c s = .next t → Q s t := a.cellCommand
  cases c
  case powerOn => cases h; exact a.powerOn ..
  case pinReset => cases h; exact a.pinReset ..
  case framePeriod => cases h; exact a.framePeriod ..
  case ingressGoodFrame => cases h; exact a.of_action (b.trans (b.chooseCell s) (b.ingressFrame ..))
  case ingressBadFrame => cases h; exact a.of_action (b.trans (b.chooseCell s) (b.ingressFrame ..))
  case ingressMissingFrame => cases h; exact a.of_action (b.trans (b.chooseCell s) (b.missingFrame _))
  case linkLost => cases h; exact a.begun (b.linkLost _)
  case linkRecovered => cases h; exact a.begun (b.linkRecovered _)
  case egressCellPeriod => cases h; exact a.of_action (b.chooseCell s)
  case windowEnd => cases h; exact a.begun (b.windowEnd ..)
  case releaseHoldEnd => cases h; exact a.of_action (b.releaseHoldEnd ..)
  case wakeEnd => cases h; exact a.begun (b.holdWake ..)
  case hangEnd => cases h; exact a.begun (b.holdHang ..)
  case tickEnd => cases h; exact a.trans (a.of_action (b.startPeriod s)) (a.tickEnd _)
  case talkTimeout => cases h; exact a.begun (b.talkTimeout ..)
  case holdoverEntry => cases h; exact a.begun (b.holdoverEntry _)
  case prerollExit => cases h; exact a.begun (b.trans (b.leavePreroll ..) (b.settle _))
  case fragmentBoundary => cases h; exact a.begun (b.trans (b.boundary ..) (b.settle _))
  case fadeEnd => cases h; exact a.begun (b.trans (b.endFade ..) (b.settle _))
  all_goals exact command h

theorem step (h : Machine.step s = .next t) : Q s t := by
  unfold Machine.step at h
  split at h
  · cases h
    exact a.refl s
  · next rest _ => exact a.trans (a.of_action (a.action.untouched (t := s.setPending rest))) (a.exec h)

end RowLaw

/-! ### Laws that do not read the clock -/

/-- TIME is refused, applied as a step, or applied as a slew (R141). -/
theorem timeCommand_after (reference : Time) (flags : Byte) (s : State) : (timeCommand reference flags s).after = s ∨
    (∃ n, (timeCommand reference flags s).after = applyStep reference n s) ∨
    (timeCommand reference flags s).after = applySlew reference s := by
  unfold timeCommand
  split
  · exact .inl rfl
  · dsimp only
    split
    · next n _ => exact .inr (.inl ⟨n, rfl⟩)
    · exact .inr (.inr rfl)

/-- An invariant of arbiter, engines and line states that elementary actions keep is kept by every row, when the resets keep it. -/
theorem RowLaw.of_invariant {P : State → Prop} (a : ActionLaw fun s t => P s → P t)
    (same : ∀ {s t : State}, t.zar = s.zar → t.engines = s.engines → t.zlc = s.zlc → P s → P t)
    (unitReset : ∀ s, P s → P (Machine.unitReset s).after) (powerOn : ∀ straps s, P (Machine.powerOn straps s))
    (pinReset : ∀ straps s, P (Machine.pinReset straps s)) : RowLaw (fun s t => P s → P t) fun s t => P s → P t := by
  have ticked : ∀ s, P s → P (Machine.tickEnd s) := fun s h => by
    unfold Machine.tickEnd
    split
    · exact a.tickNotice (a.tickActions _) (same (s := s) rfl rfl rfl h)
    · exact h
  have notice : ∀ s, P s → P (stepNotice s) := fun s h => by
    unfold stepNotice
    split
    · exact a.expireAll _ (a.schedulerNotice s h)
    · exact a.schedulerNotice _ (a.expireAll s h)
  have locked : ∀ old s, P s → P (raiseLocked old s) := fun old s h => by
    unfold raiseLocked
    split
    · exact h
    · exact a.pushEvent _ _ _ _ s h
  have stepped : ∀ reference n s, P s → P (applyStep reference n s) := fun reference n s h => by
    have moved : P (stepState reference s) := same (s := s) rfl rfl rfl h
    have told := notice _ (locked s.stc _ (a.pushEvent 0x08 (BitVec.ofNat 8 n) 0 [f4i (timeDT reference s),
      f2 (captured s).2, fTime s.stc.time, f2 s.stc.phase] _ moved))
    exact same (s := stepNotice _) rfl rfl rfl told
  exact {
    action := a, of_action := id, trans := fun h k => k ∘ h, tickEnd := ticked
    unitReset, powerOn := fun straps s _ => powerOn straps s, pinReset := fun straps s _ => pinReset straps s
    endPeriod := fun s h =>
      same (s := lineTests (holdoverEntry (talkTimeouts (List.range 96) (Machine.tickEnd s)))) rfl rfl rfl
        (a.laterEvents _ (ticked s h))
    time := fun reference flags s h => by
      obtain e | ⟨n, e⟩ | e := timeCommand_after reference flags s <;> rw [e]
      · exact h
      · exact stepped reference n s h
      · exact locked _ _ (same (s := s) rfl rfl rfl h) }

end Sys2Proof.Machine
end

section
/-! What the arbiter's operations write, said once for each: records, queue, claims and engines after an end, an entry to ENDING, a join, a loss of zones, a grant and a return. -/

namespace Sys2Proof.Machine
set_option Elab.async false

variable {s t : State}

/-! ### Records, claims and engines that an operation reads -/

theorem request_of_le {h : Nat} (hh : 96 ≤ h) : request s h = default := tget_of_le _ _ hh

theorem lt_of_state {h : Nat} (hs : (request s h).state ≠ .free) : h < 96 := by
  by_contra hh
  exact hs (by rw [request_of_le (not_lt.mp hh)]; rfl)

theorem request_of_zar (hz : t.zar = s.zar) (k : Nat) : request t k = request s k := by rw [request, request, hz]

theorem claim_of_zar (hz : t.zar = s.zar) (z : Nat) : claim t z = claim s z := by rw [claim, claim, hz]

theorem zmem_claimedZones (h z : Nat) (hz : z < 48) :
    zmem (claimedZones s h) z = true ↔ claimHandle (claim s z) = some h := by simp [claimedZones, zmem_zwhere, hz]

theorem claim_of_le {z : Nat} (hz : 48 ≤ z) : claim s z = .empty := tget_of_le _ _ hz

theorem zmem_claimedZones_iff (h z : Nat) : zmem (claimedZones s h) z = true ↔ claimHandle (claim s z) = some h := by
  by_cases hz : z < 48
  · exact zmem_claimedZones h z hz
  · rw [claim_of_le (not_lt.mp hz)]
    exact ⟨fun m => absurd (zmem_lt m) hz, nofun⟩

/-- An engine as its release leaves it (R95). -/
def idled (x : Engine) : Engine :=
  { x with state := .idle, handle := none, waitSet := 0, fragment := none, position := 0, fade := 0 }

/-- An engine as an entry to STOPPING leaves it (R106). -/
def stopped (x : Engine) : Engine := { x with state := .stopping, waitSet := 0, fade := 64 }

theorem engines_releaseEngine (e : Nat) (s : State) :
    (releaseEngine e s).engines = tset s.engines e (idled (tget s.engines e)) := by
  simp only [releaseEngine]
  split <;> rfl

theorem engine_releaseEngine (e k : Nat) (s : State) : tget (releaseEngine e s).engines k =
    if e = k ∧ e < 6 then idled (tget s.engines e) else tget s.engines k := by
  rw [engines_releaseEngine]
  exact tget_tset ..

/-- What a release leaves of the arbiter: all but the mark of R77. -/
theorem zar_releaseEngine (e : Nat) (s : State) : (releaseEngine e s).zar =
    { s.zar with evacMark := if s.zar.evacMark = some e then none else s.zar.evacMark } := by
  by_cases m : s.zar.evacMark = some e <;> simp [releaseEngine, setEngine, m]

theorem queue_releaseEngine (e : Nat) (s : State) : (releaseEngine e s).zar.queue = s.zar.queue := by
  rw [zar_releaseEngine]

theorem queue_releaseEngine? (e : Option Nat) (s : State) : (releaseEngine? e s).zar.queue = s.zar.queue := by
  cases e
  · rfl
  · exact queue_releaseEngine ..

theorem request_releaseEngine (e k : Nat) (s : State) : request (releaseEngine e s) k = request s k := by
  rw [request, releaseEngine_requests]
  rfl

theorem claim_releaseEngine (e z : Nat) (s : State) : claim (releaseEngine e s) z = claim s z := by
  rw [claim, zar_releaseEngine]
  rfl

theorem engine_releaseEngine? (o : Option Nat) (k : Nat) (s : State) : tget (releaseEngine? o s).engines k =
    if o = some k ∧ k < 6 then idled (tget s.engines k) else tget s.engines k := by
  cases o with
  | none => simp [releaseEngine?]
  | some e =>
    rw [releaseEngine?, engine_releaseEngine]
    by_cases e = k <;> simp_all

/-! ### Ends (R84) -/

/-- The outcome walks that an end makes due: one for a request of the scheduler (R160). -/
def originWalks : Origin → Nat
  | .external _ => 0
  | .call _ _ | .periodic _ => 1

theorem recordCallEnd_spec (slot i h : Nat) (c : EndCause) (s : State) : recordCallEnd slot i h c s =
    (s.setCsc (recordCallEnd slot i h c s).csc).setCh (recordCallEnd slot i h c s).ch := by
  have missed : ∀ u : State, u = raiseMissed slot i 6 (some c) (some h)
      (modTrigger slot i (fun t => { t with state := .missed, handle := none }) s) →
      u = (s.setCsc u.csc).setCh u.ch := by
    rintro _ rfl
    rw [raiseMissed, pushEvent_spec]
    rfl
  cases c with
  | withdrawn =>
    simp only [recordCallEnd, rearmTrigger]
    split <;> rfl
  | complete => rfl
  | cancelled => rfl
  | released => exact missed _ rfl
  | preempted => exact missed _ rfl
  | zoneLost => exact missed _ rfl
  | expired => exact missed _ rfl
  | talkTimeout => exact missed _ rfl
  | sourceLost => exact missed _ rfl

/-- What the scheduler is told writes the scheduler's records and the event queue, and makes a walk due (R160, R161). -/
theorem tellScheduler_spec (o : Origin) (h : Nat) (c : EndCause) (s : State) : tellScheduler o h c s =
    ((s.setCsc (tellScheduler o h c s).csc).setCh (tellScheduler o h c s).ch).setWork
      { s.work with walksDue := s.work.walksDue + originWalks o } := by
  cases o with
  | external tag => rfl
  | periodic i => rfl
  | call slot i =>
    change needWalk (recordCallEnd slot i h c s) = _
    rw [recordCallEnd_spec]
    rfl

theorem request_endRequest (h : Nat) (c : EndCause) (s : State) (k : Nat) :
    request (endRequest h c s) k = if h = k ∧ h < 96 then freeRequest else request s k := by
  rw [request, endRequest_requests]
  exact tget_tset ..

/-- What an end leaves of the arbiter, but for the marks: the records, the queue and the claims. -/
theorem zar_endRequest (h : Nat) (c : EndCause) (s : State) : (endRequest h c s).zar =
    { (releaseEngine? (request s h).engine s).zar with
      requests := tset s.zar.requests h freeRequest
      queue := s.zar.queue.filter (· != h)
      claims := (writeClaims (claimedZones s h) .empty s).zar.claims } := by
  have released : ∀ o, (releaseEngine? o (writeClaims (claimedZones s h) .empty s)).zar =
      { (releaseEngine? o s).zar with claims := (writeClaims (claimedZones s h) .empty s).zar.claims } := fun o => by
    cases o with
    | none => rfl
    | some e => rw [releaseEngine?, releaseEngine?, zar_releaseEngine, zar_releaseEngine]; rfl
  simp only [endRequest, needPass, State.setWork_zar, setRequest, State.setZar_zar, Barred.tellScheduler_zar, unuseBanks,
    State.setCmc_zar, raiseEnded, pushEvent_zar, dequeue, released, releaseEngine?_requests, queue_releaseEngine?]

theorem queue_endRequest (h : Nat) (c : EndCause) (s : State) :
    (endRequest h c s).zar.queue = s.zar.queue.filter (· != h) := by rw [zar_endRequest]

theorem claim_endRequest (h : Nat) (c : EndCause) (s : State) (z : Nat) :
    claim (endRequest h c s) z = if claimHandle (claim s z) = some h then .empty else claim s z := by
  rw [claim, zar_endRequest]
  change claim (writeClaims (claimedZones s h) .empty s) z = _
  rw [claim_writeClaims]
  exact if_congr (zmem_claimedZones_iff h z) rfl rfl

theorem engines_endRequest (h : Nat) (c : EndCause) (s : State) :
    (endRequest h c s).engines = (releaseEngine? (request s h).engine s).engines := by
  have cleared : ∀ o, (releaseEngine? o (writeClaims (claimedZones s h) .empty s)).engines = (releaseEngine? o s).engines :=
    fun o => by
      cases o with
      | none => rfl
      | some e => rw [releaseEngine?, releaseEngine?, engines_releaseEngine, engines_releaseEngine]; rfl
  have told : ∀ o u, (tellScheduler o h c u).engines = u.engines := fun o u => by rw [tellScheduler_spec]; rfl
  simp only [endRequest, needPass, State.setWork_engines, setRequest, State.setZar_engines, told, unuseBanks,
    State.setCmc_engines, raiseEnded, pushEvent_spec, State.setCh_engines, dequeue, cleared]

theorem engine_endRequest (h : Nat) (c : EndCause) (s : State) (k : Nat) : tget (endRequest h c s).engines k =
    if (request s h).engine = some k ∧ k < 6 then idled (tget s.engines k) else tget s.engines k := by
  rw [engines_endRequest]
  exact engine_releaseEngine? ..

/-! ### The entry to ENDING (R83, R106) -/

/-- A request as an entry to ENDING leaves it (R68, R83). -/
def ending (r : Request) (o : EndingOutcome) : Request :=
  { r with state := .ending, ending := o, pendingEnd := none, talkCount := none }

theorem zar_enterEnding (h : Nat) (o : EndingOutcome) (s : State) :
    (enterEnding h o s).zar = (setRequest h (ending (request s h) o) s).zar := by
  unfold enterEnding
  simp only
  split <;> rfl

theorem request_enterEnding (h : Nat) (o : EndingOutcome) (s : State) (k : Nat) :
    request (enterEnding h o s) k = if h = k ∧ h < 96 then ending (request s h) o else request s k :=
  (request_of_zar (zar_enterEnding h o s) k).trans (request_setRequest ..)

theorem queue_enterEnding (h : Nat) (o : EndingOutcome) (s : State) : (enterEnding h o s).zar.queue = s.zar.queue := by
  rw [zar_enterEnding]
  rfl

theorem claim_enterEnding (h : Nat) (o : EndingOutcome) (s : State) (z : Nat) : claim (enterEnding h o s) z = claim s z := by
  rw [claim, zar_enterEnding]
  rfl

theorem engine_enterEnding (h : Nat) (o : EndingOutcome) (s : State) (k : Nat) : tget (enterEnding h o s).engines k =
    if (request s h).engine = some k ∧ k < 6 then stopped (tget s.engines k) else tget s.engines k := by
  unfold enterEnding
  simp only
  cases (request s h).engine with
  | none => simp [setRequest]
  | some e =>
    simp only [stopEngine, setEngine, State.setEngines_engines, tget_tset]
    by_cases e = k <;> simp_all [stopped, setRequest]

/-! ### Joins (R79, R81) -/

/-- A request as its first join leaves it (R79). -/
def started (r : Request) : Request :=
  { r with state := .active, talkCount := if r.live then some (100 * r.talkLimit) else none }

theorem joinLive_of_none {h : Nat} (none : pendingLive s h = 0) : joinLive h s = s := if_pos none

/-- A first join (R79, R81). -/
theorem joinLive_first {h : Nat} (some : pendingLive s h ≠ 0) (granted : (request s h).state = .granted) : joinLive h s =
    raiseStarted h (pendingLive s h) (setRequest h (started (request s h)) (writeClaims (pendingLive s h) (.joined h) s)) := by
  unfold joinLive
  simp only
  rw [if_neg some]
  exact if_pos granted

/-- A further join (R79). -/
theorem joinLive_further {h : Nat} (some : pendingLive s h ≠ 0) (active : (request s h).state ≠ .granted) :
    joinLive h s = writeClaims (pendingLive s h) (.joined h) s := by
  unfold joinLive
  simp only
  rw [if_neg some]
  exact if_neg active

theorem request_joinLive (h : Nat) (s : State) (k : Nat) : request (joinLive h s) k =
    if (h = k ∧ h < 96) ∧ pendingLive s h ≠ 0 ∧ (request s h).state = .granted then started (request s h)
    else request s k := by
  by_cases none : pendingLive s h = 0
  · rw [joinLive_of_none none, if_neg fun c => c.2.1 none]
  · by_cases granted : (request s h).state = .granted
    · rw [joinLive_first none granted, request_of_zar (t := raiseStarted ..) (pushEvent_zar ..), request_setRequest]
      exact if_congr ⟨fun e => ⟨e, none, granted⟩, fun c => c.1⟩ rfl rfl
    · rw [joinLive_further none granted, if_neg fun c => granted c.2.2]
      rfl

theorem queue_joinLive (h : Nat) (s : State) : (joinLive h s).zar.queue = s.zar.queue := by
  by_cases none : pendingLive s h = 0
  · rw [joinLive_of_none none]
  · by_cases granted : (request s h).state = .granted
    · rw [joinLive_first none granted, raiseStarted, pushEvent_zar]; rfl
    · rw [joinLive_further none granted]; rfl

theorem engines_joinLive (h : Nat) (s : State) : (joinLive h s).engines = s.engines := by
  rw [joinLive_spec]; rfl

/-- A join leaves every zone with its holder. -/
theorem claimHandle_joinLive (h : Nat) (s : State) (z : Nat) :
    claimHandle (claim (joinLive h s) z) = claimHandle (claim s z) := by
  rw [claim_joinLive]
  split
  · next m =>
    have hc : claim s z = .pendingJoin h := by
      rw [pendingLive, zmem_zwhere] at m
      simp only [Bool.and_eq_true, beq_iff_eq] at m
      exact m.2.1
    rw [hc]; rfl
  · rfl

/-- A request joins by its lane, or nothing happens. -/
theorem joinLane_cases (h : Nat) (s : State) : joinLane h s = joinLive h s ∨ joinLane h s = s := by
  unfold joinLane
  simp only
  split
  · exact .inl rfl
  · exact .inr rfl

/-! ### The exit from PREROLL (R99) -/

/-- An engine as it begins its list (R99). -/
def begun (x : Engine) : Engine := { x with state := .playing, waitSet := 0, fragment := some 0, position := 0 }

/-- What the test of R99 can do: nothing, an end by a pending end, or the beginning of the list with a join. -/
theorem leavePreroll_cases (e : Nat) (s : State) : leavePreroll e s = s ∨
    ∃ h, (tget s.engines e).state = .preroll ∧ (tget s.engines e).handle = some h ∧
      ((∃ c, (request s h).pendingEnd = some c ∧ leavePreroll e s = endRequest h c s) ∨
       ((request s h).pendingEnd = none ∧
        leavePreroll e s = joinLive h (setEngine e (begun (tget s.engines e)) s))) := by
  unfold leavePreroll
  simp only
  split
  · next ready =>
    have preroll : (tget s.engines e).state = .preroll := by
      simp only [prerollReady, Bool.and_eq_true, beq_iff_eq] at ready
      exact ready.1
    split
    · exact .inl rfl
    · next h bound =>
      refine .inr ⟨h, preroll, bound, ?_⟩
      split
      · next c hc => exact .inl ⟨c, hc, rfl⟩
      · next hc => exact .inr ⟨hc, rfl⟩
  · exact .inl rfl

/-! ### The loss of zones (R82, R83) -/

/-- A record whose granted set loses zones (R68, R82). -/
def less (r : Request) (zs : ZoneSet) : Request := withPartial { r with granted := zdiff r.granted zs }

/-- The state at a loss of zones when claims, granted set and wait set have shrunk. -/
def shrunk (h : Nat) (zs : ZoneSet) (s : State) : State :=
  unwait (request s h).engine zs (setRequest h (less (request s h) zs) (writeClaims zs .empty s))

/-- The same with ZONES_LOST raised (R82). -/
def shrink (h : Nat) (zs : ZoneSet) (cause : RemovalCause) (taker : Option Nat) (s : State) : State :=
  pushEvent 0x05 (BitVec.ofNat 8 (removalCode cause)) h [f1? taker, fZones zs, fZones (less (request s h) zs).granted]
    (shrunk h zs s)

theorem loseZones_eq (h : Nat) (zs : ZoneSet) (cause : RemovalCause) (taker : Option Nat) (s : State) :
    loseZones h zs cause taker s =
      if zdiff (request s h).granted zs = 0 ∧ ((request s h).state = .granted ∨ (request s h).state = .active) then
        displace h cause (shrink h zs cause taker s)
      else testEngine (request s h).engine (shrink h zs cause taker s) := rfl

theorem zar_unwait (o : Option Nat) (zs : ZoneSet) (s : State) : (unwait o zs s).zar = s.zar := by
  cases o with
  | none => rfl
  | some e => simp only [unwait]; split <;> rfl

/-- Of an engine, a shrinking wait set changes no more than the wait set. -/
theorem engine_unwait (o : Option Nat) (zs : ZoneSet) (s : State) (k : Nat) : tget (unwait o zs s).engines k =
    if o = some k ∧ k < 6 ∧ (tget s.engines k).state = .preroll then
      { tget s.engines k with waitSet := zdiff (tget s.engines k).waitSet zs } else tget s.engines k := by
  cases o with
  | none => simp [unwait]
  | some e =>
    simp only [unwait]
    by_cases preroll : (tget s.engines e).state = .preroll
    · rw [if_pos preroll, setEngine, State.setEngines_engines, tget_tset]
      by_cases e = k <;> simp_all
    · rw [if_neg preroll, if_neg]
      rintro ⟨same, -, p⟩
      exact preroll (Option.some.inj same ▸ p)

theorem zar_shrink (h : Nat) (zs : ZoneSet) (cause : RemovalCause) (taker : Option Nat) (s : State) :
    (shrink h zs cause taker s).zar = (setRequest h (less (request s h) zs) (writeClaims zs .empty s)).zar := by
  rw [shrink, pushEvent_zar, shrunk, zar_unwait]

theorem request_shrink (h : Nat) (zs : ZoneSet) (cause : RemovalCause) (taker : Option Nat) (s : State) (k : Nat) :
    request (shrink h zs cause taker s) k = if h = k ∧ h < 96 then less (request s h) zs else request s k :=
  (request_of_zar (zar_shrink ..) k).trans (request_setRequest ..)

theorem claim_shrink (h : Nat) (zs : ZoneSet) (cause : RemovalCause) (taker : Option Nat) (s : State) (z : Nat) :
    claim (shrink h zs cause taker s) z = if zmem zs z = true then .empty else claim s z :=
  (claim_of_zar (zar_shrink ..) z).trans (claim_writeClaims ..)

theorem queue_shrink (h : Nat) (zs : ZoneSet) (cause : RemovalCause) (taker : Option Nat) (s : State) :
    (shrink h zs cause taker s).zar.queue = s.zar.queue := by rw [zar_shrink]; rfl

theorem engine_shrink (h : Nat) (zs : ZoneSet) (cause : RemovalCause) (taker : Option Nat) (s : State) (k : Nat) :
    tget (shrink h zs cause taker s).engines k =
      if (request s h).engine = some k ∧ k < 6 ∧ (tget s.engines k).state = .preroll then
        { tget s.engines k with waitSet := zdiff (tget s.engines k).waitSet zs } else tget s.engines k := by
  rw [shrink, pushEvent_spec]
  exact engine_unwait ..

/-- The way out of a displacement: ENDING, or an end (R83). -/
theorem displace_cases (h : Nat) (cause : RemovalCause) (s : State) :
    ((request s h).live = false ∧ ∃ o, o ≠ .none ∧ displace h cause s = enterEnding h o s) ∨
      ∃ c, displace h cause s = endRequest h c s := by
  unfold displace
  simp only
  split
  · next playout =>
    refine .inl ⟨playout.1, _, ?_, rfl⟩
    split <;> nofun
  · exact .inr ⟨_, rfl⟩

/-! ### Grants (R76, R97) -/

/-- The record of a grant: GRANTED with its zones, and its lane as current source where no engine plays its chime (R76, R112). -/
def grantedRecord (r : Request) (zs : ZoneSet) (bind : Bool) : Request :=
  let chimeless := r.live && r.current == .engine && !bind
  let r := withPartial { r with state := .granted, granted := zs, current := if chimeless then .lane else r.current }
  { r with flags := { r.flags with nochime := r.flags.nochime || chimeless } }

/-- The state at a grant before its zones are taken: out of the queue, GRANTED. -/
def granting (h : Nat) (zs : ZoneSet) (bind : Bool) (s : State) : State :=
  setRequest h (grantedRecord (request s h) zs bind) (dequeue h s)

/-- The holders of the zones lose them to a grant (R76, R82). -/
def takeZones (h : Nat) (zs : ZoneSet) (s : State) : State :=
  (holdersOf s zs).foldl (fun s k => loseZones k.1 k.2 .preemption (some h) s) s

/-- An engine is bound to a request at a grant, where one is to be bound and one is idle (R97). -/
def bindIdle (h : Nat) (zs : ZoneSet) (bind : Bool) (s : State) : State :=
  match bind, idleEngine? s with
  | true, some e => bindEngine e h zs (setRequest h { request s h with engine := some e } s)
  | _, _ => s

theorem grant_eq (h : Nat) (zs : ZoneSet) (bind : Bool) (s : State) : grant h zs bind s =
    joinLane h (bindIdle h zs bind (writeClaims zs (.pendingJoin h) (takeZones h zs (granting h zs bind s)))) := rfl

theorem request_granting (h : Nat) (zs : ZoneSet) (bind : Bool) (s : State) (k : Nat) :
    request (granting h zs bind s) k = if h = k ∧ h < 96 then grantedRecord (request s h) zs bind else request s k :=
  request_setRequest ..

/-- A grant with its engine (R97). -/
def bound (h : Nat) (zs : ZoneSet) (e : Nat) (s : State) : State :=
  bindEngine e h zs (setRequest h { request s h with engine := some e } s)

theorem request_bound (h : Nat) (zs : ZoneSet) (e : Nat) (s : State) (k : Nat) : request (bound h zs e s) k =
    if h = k ∧ h < 96 then { request s h with engine := some e } else request s k := request_setRequest ..

theorem queue_bound (h : Nat) (zs : ZoneSet) (e : Nat) (s : State) : (bound h zs e s).zar.queue = s.zar.queue := rfl

theorem claim_bound (h : Nat) (zs : ZoneSet) (e : Nat) (s : State) (z : Nat) : claim (bound h zs e s) z = claim s z := rfl

theorem bindIdle_cases (h : Nat) (zs : ZoneSet) (bind : Bool) (s : State) :
    (bindIdle h zs bind s = s ∧ (bind = false ∨ idleEngine? s = none)) ∨
    ∃ e, bind = true ∧ idleEngine? s = some e ∧
      bindIdle h zs bind s = bound h zs e s := by
  cases bind with
  | false => exact .inl ⟨rfl, .inl rfl⟩
  | true =>
    cases idle : idleEngine? s with
    | none => exact .inl ⟨by simp only [bindIdle, idle], .inr rfl⟩
    | some e => exact .inr ⟨e, rfl, rfl, by simp only [bindIdle, idle]; rfl⟩

/-- What the waiting walk does with one request: nothing, a grant, or the stop of R77; a PLAYOUT request is granted with an engine alone (R76). -/
theorem walkRequest_cases (p : State × Bool) (h : Nat) : (walkRequest p h).1 = p.1 ∨
    ((request p.1 h).state = .waiting ∧ obtainable p.1 (request p.1 h) ≠ 0 ∧ ∃ bind,
      ((request p.1 h).live = false → bind = true) ∧
      (bind = true → wantsEngine (request p.1 h) = true ∧ (idleEngine? p.1).isSome = true) ∧
      (walkRequest p h).1 = grant h (obtainable p.1 (request p.1 h)) bind p.1) ∨
    (walkRequest p h).1 = stopVictim p.1 := by
  unfold walkRequest
  dsimp only
  by_cases waits : (request p.1 h).state = .waiting
  · rw [if_neg (not_not.mpr waits)]
    generalize (if (request p.1 h).cls = .evac then 1 else (request p.1 h).minCoverage) = need
    split
    · exact .inl rfl
    · next may =>
      split
      · next takes =>
        refine .inr (.inl ⟨waits, fun none => may (.inr (.inl none)), _, fun playout => ?_, fun bind => ?_, rfl⟩)
        · rw [playout, Bool.false_or] at takes
          rw [takes, wantsEngine, playout]; rfl
        · simp only [Bool.and_eq_true] at bind
          exact ⟨bind.1, bind.2.2⟩
      · split
        · exact .inr (.inr rfl)
        · exact .inl rfl
  · rw [if_pos waits]
    exact .inl rfl

/-! ### Late joins (R78, R98) -/

theorem zar_addWait (o : Option Nat) (zs : ZoneSet) (s : State) : (addWait o zs s).zar = s.zar := by
  cases o with
  | none => rfl
  | some e => simp only [addWait]; split <;> rfl

theorem engine_addWait (o : Option Nat) (zs : ZoneSet) (s : State) (k : Nat) : tget (addWait o zs s).engines k =
    if o = some k ∧ k < 6 ∧ (tget s.engines k).state = .preroll then
      { tget s.engines k with waitSet := (tget s.engines k).waitSet ||| zs } else tget s.engines k := by
  cases o with
  | none => simp [addWait]
  | some e =>
    simp only [addWait]
    by_cases preroll : (tget s.engines e).state = .preroll
    · rw [if_pos preroll, setEngine, State.setEngines_engines, tget_tset]
      by_cases e = k <;> simp_all
    · rw [if_neg preroll, if_neg]
      rintro ⟨same, -, p⟩
      exact preroll (Option.some.inj same ▸ p)

/-- A request takes zones by late join, before it joins in them (R78, R98). -/
def takeLate (h : Nat) (zs : ZoneSet) (s : State) : State :=
  addWait (request s h).engine zs (setRequest h (withPartial { request s h with granted := (request s h).granted ||| zs })
    (writeClaims zs (.pendingJoin h) s))

theorem lateJoin_cases (s : State) (h : Nat) : lateJoin s h = s ∨
    (((request s h).state = .granted ∨ (request s h).state = .active) ∧
      lateJoin s h = joinLane h (takeLate h (lateZones s (request s h)) s)) := by
  unfold lateJoin
  simp only
  split
  · exact .inl rfl
  · next held =>
    have held : (request s h).state = .granted ∨ (request s h).state = .active := by
      by_contra c
      rw [not_or] at c
      exact held c
    split
    · exact .inl rfl
    · exact .inr ⟨held, rfl⟩

theorem request_takeLate (h : Nat) (zs : ZoneSet) (s : State) (k : Nat) : request (takeLate h zs s) k =
    if h = k ∧ h < 96 then withPartial { request s h with granted := (request s h).granted ||| zs } else request s k :=
  (request_of_zar (zar_addWait ..) k).trans (request_setRequest ..)

theorem claim_takeLate (h : Nat) (zs : ZoneSet) (s : State) (z : Nat) :
    claim (takeLate h zs s) z = if zmem zs z = true then .pendingJoin h else claim s z :=
  (claim_of_zar (zar_addWait ..) z).trans (claim_writeClaims ..)

theorem queue_takeLate (h : Nat) (zs : ZoneSet) (s : State) : (takeLate h zs s).zar.queue = s.zar.queue := by
  rw [takeLate, zar_addWait]; rfl

/-! ### Returns and admissions (R72, R86) -/

/-- A request as its return to the queue leaves it (R86). -/
def returned (r : Request) : Request :=
  withPartial { r with state := .waiting, granted := 0, engine := none, ending := .none, restarts := r.restarts + 1 }

/-- The order of insertion reads the records alone. -/
theorem insertHandle_congr {s t : State} (hr : t.zar.requests = s.zar.requests) (h : Nat) (l : List Nat) :
    insertHandle t h l = insertHandle s h l := by
  have same : ∀ k, request t k = request s k := fun k => by rw [request, request, hr]
  induction l with
  | nil => rfl
  | cons k l ih => rw [insertHandle, insertHandle, ih, same, same]

/-- What a return leaves of the arbiter, but for the mark (R86). -/
theorem zar_requeue (h : Nat) (s : State) : (requeue h s).zar =
    { (releaseEngine? (request s h).engine s).zar with
      requests := tset s.zar.requests h (returned (request s h))
      queue := insertHandle (setRequest h (returned (request s h)) s) h s.zar.queue
      claims := (writeClaims (claimedZones s h) .empty s).zar.claims } := by
  have released : ∀ o, (releaseEngine? o (writeClaims (claimedZones s h) .empty s)).zar =
      { (releaseEngine? o s).zar with claims := (writeClaims (claimedZones s h) .empty s).zar.claims } := fun o => by
    cases o with
    | none => rfl
    | some e => rw [releaseEngine?, releaseEngine?, zar_releaseEngine, zar_releaseEngine]; rfl
  have order := insertHandle_congr (s := setRequest h (returned (request s h)) s)
    (t := setRequest h (returned (request s h))
      (releaseEngine? (request s h).engine (writeClaims (claimedZones s h) .empty s)))
    (by simp only [setRequest, State.setZar_zar, releaseEngine?_requests]; rfl) h s.zar.queue
  unfold requeue
  simp only [needPass, State.setWork_zar, pushEvent_zar, enqueue, State.setZar_zar]
  change ({ (setRequest h (returned (request s h)) (releaseEngine? (request s h).engine
    (writeClaims (claimedZones s h) .empty s))).zar with
      queue := insertHandle (setRequest h (returned (request s h)) (releaseEngine? (request s h).engine
        (writeClaims (claimedZones s h) .empty s))) h (releaseEngine? (request s h).engine
          (writeClaims (claimedZones s h) .empty s)).zar.queue } : Zar) = _
  rw [queue_releaseEngine?]
  change ({ (setRequest h (returned (request s h)) (releaseEngine? (request s h).engine
    (writeClaims (claimedZones s h) .empty s))).zar with
      queue := insertHandle (setRequest h (returned (request s h)) (releaseEngine? (request s h).engine
        (writeClaims (claimedZones s h) .empty s))) h s.zar.queue } : Zar) = _
  rw [order]
  simp only [setRequest, State.setZar_zar, released, releaseEngine?_requests]

theorem request_requeue (h : Nat) (s : State) (k : Nat) :
    request (requeue h s) k = if h = k ∧ h < 96 then returned (request s h) else request s k := by
  rw [request, zar_requeue]
  exact tget_tset ..

theorem claim_requeue (h : Nat) (s : State) (z : Nat) :
    claim (requeue h s) z = if claimHandle (claim s z) = some h then .empty else claim s z := by
  rw [claim, zar_requeue]
  change claim (writeClaims (claimedZones s h) .empty s) z = _
  rw [claim_writeClaims]
  exact if_congr (zmem_claimedZones_iff h z) rfl rfl

theorem engine_requeue (h : Nat) (s : State) (k : Nat) : tget (requeue h s).engines k =
    if (request s h).engine = some k ∧ k < 6 then idled (tget s.engines k) else tget s.engines k := by
  have same : (requeue h s).engines = (releaseEngine? (request s h).engine
      (writeClaims (claimedZones s h) .empty s)).engines := by
    unfold requeue
    simp only [needPass, State.setWork_engines, pushEvent_spec, State.setCh_engines]
    rfl
  rw [same]
  exact engine_releaseEngine? ..

/-- A request as its admission leaves it, before the pass (R72). -/
def admitted (r : Request) (s : State) : Request := { r with state := .waiting, order := s.zar.nextOrder }

theorem zar_admitRecord (h : Nat) (r : Request) (s : State) : (admitRecord h r s).zar =
    { (setRequest h (admitted r s) s).zar with
      nextOrder := s.zar.nextOrder + 1
      queue := insertHandle (setRequest h (admitted r s) s) h s.zar.queue } := by
  rw [← insertHandle_congr (s := setRequest h (admitted r s) s)
    (t := useBanks (admitted r s).fragments ((setRequest h (admitted r s) s).setZar
      { (setRequest h (admitted r s) s).zar with nextOrder := s.zar.nextOrder + 1 })) rfl]
  rfl

theorem engines_admitRecord (h : Nat) (r : Request) (s : State) : (admitRecord h r s).engines = s.engines := by
  simp only [admitRecord, needPass, State.setWork_engines, enqueue, State.setZar_engines, useBanks, State.setCmc_engines,
    setRequest]

theorem request_admitRecord (h : Nat) (r : Request) (s : State) (k : Nat) :
    request (admitRecord h r s) k = if h = k ∧ h < 96 then admitted r s else request s k := by
  rw [request, zar_admitRecord]
  exact request_setRequest ..

/-- The outcomes of an ENDING request whose engine has become IDLE (R86). -/
theorem takeOutcome_cases (h : Nat) (s : State) : (∃ c, (request s h).ending ≠ .none ∧ takeOutcome h s = endRequest h c s) ∨
    ((request s h).ending = .returns ∧ pastLatest s (request s h) = false ∧ s.zar.queue.length < 64 ∧
      takeOutcome h s = requeue h s) ∨ (request s h).ending = .none ∧ takeOutcome h s = s := by
  unfold takeOutcome
  dsimp only
  cases (request s h).ending with
  | none => exact .inr (.inr ⟨rfl, rfl⟩)
  | ends c => exact .inl ⟨c, nofun, rfl⟩
  | returns =>
    dsimp only
    split
    · exact .inl ⟨_, nofun, rfl⟩
    · next late =>
      split
      · exact .inl ⟨_, nofun, rfl⟩
      · next full => exact .inr (.inl ⟨rfl, Bool.eq_false_iff.mpr late, not_le.mp full, rfl⟩)

/-! ### Boundaries (R80, R104) -/

theorem handOver_eq (e h : Nat) (s : State) : handOver e h s =
    needPass (releaseEngine e (setRequest h { request s h with engine := none, current := .lane } s)) := rfl

/-- Past a boundary an engine plays on: no record, claim or queue is touched, and of the engines its own place in the list alone. -/
theorem continueList_cases (e h i : Nat) (s : State) : ∃ x, x.state = (tget s.engines e).state ∧
    x.handle = (tget s.engines e).handle ∧ (continueList e h i s).zar = s.zar ∧
    (continueList e h i s).engines = tset s.engines e x := by
  unfold continueList
  simp only
  split
  · exact ⟨{ tget s.engines e with fragment := some (i + 1), position := 0 }, rfl, rfl, rfl, rfl⟩
  · refine ⟨{ tget s.engines e with fragment := some 0, position := 0, loops := countUp (tget s.engines e).loops 1 },
      rfl, rfl, ?_, ?_⟩
    · rw [raiseLoop, pushEvent_zar]; rfl
    · rw [raiseLoop, pushEvent_spec]; rfl

theorem boundary_cases (e : Nat) (s : State) : boundary e s = s ∨
    ∃ h i, boundaryDue s (tget s.engines e) = true ∧ (tget s.engines e).handle = some h ∧
      (tget s.engines e).fragment = some i ∧ boundary e s = takeBoundary e h i s := by
  unfold boundary
  simp only
  split
  · next h i due bound place => exact .inr ⟨h, i, due, bound, place, rfl⟩
  · exact .inl rfl

theorem endFade_cases (e : Nat) (s : State) : endFade e s = s ∨
    ((tget s.engines e).handle = none ∧ endFade e s = needPass (releaseEngine e s)) ∨
    ∃ h, fadeDue (tget s.engines e) = true ∧ (tget s.engines e).handle = some h ∧
      endFade e s = needPass (releaseEngine e (takeOutcome h s)) := by
  unfold endFade
  simp only
  split
  · next due =>
    split
    · next h bound => exact .inr (.inr ⟨h, due, bound, rfl⟩)
    · next free => exact .inr (.inl ⟨free, rfl⟩)
  · exact .inl rfl

theorem freeHandle?_spec {h : Nat} (hf : freeHandle? s = some h) : h < 96 ∧ (request s h).state = .free := by
  have free := List.find?_some hf
  exact ⟨List.mem_range.mp (List.mem_of_find?_eq_some hf), beq_iff_eq.mp free⟩

end Sys2Proof.Machine
end

section
/-! The waiting queue (R68, R69): but for admissions and returns, nothing that the arbiter does brings a request to wait, and everything it does keeps the laws of the queue. -/

namespace Sys2Proof.Machine
set_option Elab.async false

/-! ### Who waits -/

/-- Whoever waits waited before, for the same latest start. -/
structure NoNewWaiter (s t : State) : Prop where
  waited : ∀ k, (request t k).state = .waiting →
    (request s k).state = .waiting ∧ (request t k).latestStart = (request s k).latestStart

namespace NoNewWaiter

variable {s t u : State}

theorem refl (s : State) : NoNewWaiter s s := ⟨fun _ w => ⟨w, rfl⟩⟩

theorem trans (a : NoNewWaiter s t) (b : NoNewWaiter t u) : NoNewWaiter s u := ⟨fun k w => by
  obtain ⟨w, l⟩ := b.waited k w
  obtain ⟨w, m⟩ := a.waited k w
  exact ⟨w, l.trans m⟩⟩

theorem foldl {α : Type} {f : State → α → State} (hf : ∀ s x, NoNewWaiter s (f s x)) (l : List α) (s : State) :
    NoNewWaiter s (l.foldl f s) := foldl_keeps (NoNewWaiter s) f (fun u x h => h.trans (hf u x)) l s (refl s)

/-- One record is written, and waits no more than it did. -/
theorem of_record {h : Nat} {r : Request} (hr : ∀ k, request t k = if h = k ∧ h < 96 then r else request s k)
    (waits : r.state = .waiting → (request s h).state = .waiting ∧ r.latestStart = (request s h).latestStart) :
    NoNewWaiter s t := ⟨fun k => by
  rw [hr]
  split
  · next e => exact e.1 ▸ waits
  · exact fun w => ⟨w, rfl⟩⟩

theorem of_request (hr : ∀ k, request t k = request s k) : NoNewWaiter s t := ⟨fun k w => by
  rw [hr] at w ⊢
  exact ⟨w, rfl⟩⟩

theorem of_zar (hz : t.zar = s.zar) : NoNewWaiter s t := of_request (request_of_zar hz)

theorem setRequest {h : Nat} {r : Request}
    (waits : r.state = .waiting → (request s h).state = .waiting ∧ r.latestStart = (request s h).latestStart) :
    NoNewWaiter s (Machine.setRequest h r s) := of_record (request_setRequest h r s) waits

theorem endRequest (h : Nat) (c : EndCause) (s : State) : NoNewWaiter s (Machine.endRequest h c s) :=
  of_record (request_endRequest h c s) nofun

theorem enterEnding (h : Nat) (o : EndingOutcome) (s : State) : NoNewWaiter s (Machine.enterEnding h o s) :=
  of_record (request_enterEnding h o s) nofun

theorem joinLive (h : Nat) (s : State) : NoNewWaiter s (Machine.joinLive h s) := ⟨fun k => by
  rw [request_joinLive]
  split
  · nofun
  · exact fun w => ⟨w, rfl⟩⟩

theorem joinLane (h : Nat) (s : State) : NoNewWaiter s (Machine.joinLane h s) := by
  obtain e | e := joinLane_cases h s <;> rw [e]
  · exact joinLive ..
  · exact refl s

theorem setEngine (e : Nat) (x : Engine) (s : State) : NoNewWaiter s (Machine.setEngine e x s) := of_zar rfl

theorem leavePreroll (e : Nat) (s : State) : NoNewWaiter s (Machine.leavePreroll e s) := by
  obtain e | ⟨h, -, -, ⟨c, -, e⟩ | ⟨-, e⟩⟩ := leavePreroll_cases e s <;> rw [e]
  · exact refl s
  · exact endRequest ..
  · exact (setEngine ..).trans (joinLive ..)

theorem testEngine (o : Option Nat) (s : State) : NoNewWaiter s (Machine.testEngine o s) := by
  cases o with
  | none => exact refl s
  | some e => exact leavePreroll e s

theorem displace (h : Nat) (cause : RemovalCause) (s : State) : NoNewWaiter s (Machine.displace h cause s) := by
  obtain ⟨-, o, -, e⟩ | ⟨c, e⟩ := displace_cases h cause s <;> rw [e]
  · exact enterEnding ..
  · exact endRequest ..

theorem shrink (h : Nat) (zs : ZoneSet) (cause : RemovalCause) (taker : Option Nat) (s : State) :
    NoNewWaiter s (Machine.shrink h zs cause taker s) := of_record (request_shrink h zs cause taker s) fun w => ⟨w, rfl⟩

theorem loseZones (h : Nat) (zs : ZoneSet) (cause : RemovalCause) (taker : Option Nat) (s : State) :
    NoNewWaiter s (Machine.loseZones h zs cause taker s) := by
  rw [loseZones_eq]
  split
  · exact (shrink ..).trans (displace ..)
  · exact (shrink ..).trans (testEngine ..)

theorem takeZones (h : Nat) (zs : ZoneSet) (s : State) : NoNewWaiter s (Machine.takeZones h zs s) :=
  foldl_keeps (NoNewWaiter s) _ (fun u k w => w.trans (loseZones k.1 k.2 .preemption (some h) u)) _ s (refl s)

theorem granting (h : Nat) (zs : ZoneSet) (bind : Bool) (s : State) : NoNewWaiter s (Machine.granting h zs bind s) :=
  of_record (request_granting h zs bind s) nofun

theorem bindIdle (h : Nat) (zs : ZoneSet) (bind : Bool) (s : State) : NoNewWaiter s (Machine.bindIdle h zs bind s) := by
  obtain ⟨e, -⟩ | ⟨e, -, -, eq⟩ := bindIdle_cases h zs bind s
  · rw [e]; exact refl s
  · rw [eq]; exact of_record (request_bound h zs e s) fun w => ⟨w, rfl⟩

theorem grant (h : Nat) (zs : ZoneSet) (bind : Bool) (s : State) : NoNewWaiter s (Machine.grant h zs bind s) := by
  rw [grant_eq]
  have claimed : NoNewWaiter s (writeClaims zs (.pendingJoin h) (Machine.takeZones h zs (Machine.granting h zs bind s))) :=
    ((granting h zs bind s).trans (takeZones h zs _)).trans (of_request fun _ => rfl)
  exact (claimed.trans (bindIdle h zs bind _)).trans (joinLane h _)

theorem stopVictim (s : State) : NoNewWaiter s (Machine.stopVictim s) := by
  unfold Machine.stopVictim
  split
  · exact refl s
  · split
    · exact refl s
    · exact (enterEnding ..).trans (of_request fun _ => rfl)

theorem walkRequest (p : State × Bool) (h : Nat) : NoNewWaiter p.1 (Machine.walkRequest p h).1 := by
  obtain e | ⟨-, -, bind, -, -, e⟩ | e := walkRequest_cases p h <;> rw [e]
  · exact refl p.1
  · exact grant ..
  · exact stopVictim p.1

theorem lateJoin (s : State) (h : Nat) : NoNewWaiter s (Machine.lateJoin s h) := by
  obtain e | ⟨-, e⟩ := lateJoin_cases s h <;> rw [e]
  · exact refl s
  · exact (of_record (request_takeLate h _ s) fun w => ⟨w, rfl⟩).trans (joinLane ..)

theorem handOver (e h : Nat) (s : State) : NoNewWaiter s (Machine.handOver e h s) := by
  have bared : NoNewWaiter s (Machine.setRequest h { request s h with engine := none, current := .lane } s) :=
    setRequest fun w => ⟨w, rfl⟩
  rw [handOver_eq]
  exact bared.trans (of_request (request_releaseEngine e · _))

theorem takeBoundary (e h i : Nat) (s : State) : NoNewWaiter s (Machine.takeBoundary e h i s) := by
  unfold Machine.takeBoundary
  split
  · exact endRequest ..
  · dsimp only
    split
    · exact (joinLive ..).trans (handOver ..)
    · split
      · exact (joinLive ..).trans (endRequest ..)
      · obtain ⟨-, -, -, zar, -⟩ := continueList_cases e h i (Machine.joinLive h s)
        exact (joinLive ..).trans (of_zar zar)

theorem boundary (e : Nat) (s : State) : NoNewWaiter s (Machine.boundary e s) := by
  obtain e | ⟨h, i, -, -, -, e⟩ := boundary_cases e s <;> rw [e]
  · exact refl s
  · exact takeBoundary ..

theorem countTalk (s : State) : NoNewWaiter s (Machine.countTalk s) := ⟨fun k => by
  by_cases hk : k < 96
  · have counted : request (Machine.countTalk s) k = countTalkOf (request s k) := tget_map _ _ k hk
    have same : (countTalkOf (request s k)).state = (request s k).state ∧
        (countTalkOf (request s k)).latestStart = (request s k).latestStart := by
      unfold countTalkOf
      repeat' split
      all_goals exact ⟨rfl, rfl⟩
    rw [counted, same.1]
    exact fun w => ⟨w, same.2⟩
  · rw [request_of_le (not_lt.mp hk)]
    nofun⟩

theorem vacate (z : Nat) (f : ZoneLine → ZoneLine) (cause : RemovalCause) (s : State) :
    NoNewWaiter s (Machine.vacate z cause (modLine z f s)) := by
  unfold Machine.vacate
  have lined : NoNewWaiter s (modLine z f s) := of_zar rfl
  split
  · exact lined
  · exact lined.trans (loseZones ..)

end NoNewWaiter

/-! ### The place of a request in the queue (R69) -/

variable {s t : State}

theorem mem_insertHandle (s : State) (h k : Nat) (l : List Nat) : k ∈ insertHandle s h l ↔ k = h ∨ k ∈ l := by
  induction l with
  | nil => simp [insertHandle]
  | cons x l ih =>
    unfold insertHandle
    split
    · exact List.mem_cons
    · rw [List.mem_cons, ih, List.mem_cons]
      exact or_left_comm

theorem nodup_insertHandle {h : Nat} {l : List Nat} (fresh : h ∉ l) (nodup : l.Nodup) : (insertHandle s h l).Nodup := by
  induction l with
  | nil => exact List.nodup_singleton h
  | cons x l ih =>
    obtain ⟨hx, nodup⟩ := List.nodup_cons.mp nodup
    obtain ⟨ne, fresh⟩ := not_or.mp (mt List.mem_cons.mpr fresh)
    unfold insertHandle
    split
    · exact List.nodup_cons.mpr ⟨mt List.mem_cons.mp (not_or.mpr ⟨ne, fresh⟩), List.nodup_cons.mpr ⟨hx, nodup⟩⟩
    · refine List.nodup_cons.mpr ⟨?_, ih fresh nodup⟩
      rw [mem_insertHandle]
      exact not_or.mpr ⟨Ne.symm ne, hx⟩

theorem standsBefore_asymm {a b : Request} (h : standsBefore a b = true) : standsBefore b a = false := by
  rw [standsBefore_iff] at h
  rw [not_standsBefore_iff]
  omega

/-- Whatever a request does not stand before, a request that it stands before does not stand before either. -/
theorem not_standsBefore_trans {a b c : Request} (hab : standsBefore a b = true) (hcb : standsBefore c b = false) :
    standsBefore c a = false := by
  rw [standsBefore_iff] at hab
  rw [not_standsBefore_iff] at hcb ⊢
  omega

/-- A handle put at its place leaves the list in the order of standing. -/
theorem sorted_insertHandle {h : Nat} {l : List Nat}
    (sorted : l.Pairwise fun a b => standsBefore (request s b) (request s a) = false) :
    (insertHandle s h l).Pairwise fun a b => standsBefore (request s b) (request s a) = false := by
  induction l with
  | nil => exact List.pairwise_singleton ..
  | cons x l ih =>
    obtain ⟨hx, sorted⟩ := List.pairwise_cons.mp sorted
    unfold insertHandle
    split
    · next before =>
      refine List.pairwise_cons.mpr ⟨fun b hb => ?_, List.pairwise_cons.mpr ⟨hx, sorted⟩⟩
      obtain rfl | hb := List.mem_cons.mp hb
      · exact standsBefore_asymm before
      · exact not_standsBefore_trans before (hx b hb)
    · next after =>
      refine List.pairwise_cons.mpr ⟨fun b hb => ?_, ih sorted⟩
      obtain rfl | hb := (mem_insertHandle s h b l).mp hb
      · exact Bool.eq_false_iff.mpr after
      · exact hx b hb

/-! ### The victim of R77 -/

/-- The one of two candidates of R77 that is chosen, as the search for the victim goes on. -/
def worse (s : State) (best : Option (Nat × Nat)) (h : Nat) : Option (Nat × Nat) :=
  match victimEngine s h, best with
  | none, _ => best
  | some e, none => some (h, e)
  | some e, some (k, f) => if standsBefore (request s k) (request s h) then some (h, e) else some (k, f)

/-- What the search for the victim has found among the first records: none where there is no candidate, or a candidate that stands before none of them. -/
structure Victim (s : State) (n : Nat) (best : Option (Nat × Nat)) : Prop where
  none : best = none → ∀ j, j < n → victimEngine s j = none
  some : ∀ k e, best = some (k, e) → k < n ∧ victimEngine s k = some e ∧
    ∀ j, j < n → victimEngine s j ≠ Option.none → standsBefore (request s k) (request s j) = false

theorem Victim.next {n : Nat} {best : Option (Nat × Nat)} (v : Victim s n best) : Victim s (n + 1) (worse s best n) := by
  unfold worse
  split
  · next no => exact {
      none := fun e j hj => by
        obtain hj | rfl := Nat.lt_succ_iff_lt_or_eq.mp hj
        · exact v.none e j hj
        · exact no
      some := fun k e hk => by
        obtain ⟨lt, own, least⟩ := v.some k e hk
        refine ⟨lt.trans (Nat.lt_succ_self n), own, fun j hj cand => ?_⟩
        obtain hj | rfl := Nat.lt_succ_iff_lt_or_eq.mp hj
        · exact least j hj cand
        · exact absurd no cand }
  · next e yes => exact {
      none := nofun
      some := fun k f hk => by
        cases hk
        refine ⟨Nat.lt_succ_self n, yes, fun j hj cand => ?_⟩
        obtain hj | rfl := Nat.lt_succ_iff_lt_or_eq.mp hj
        · exact absurd (v.none rfl j hj) cand
        · exact standsBefore_irrefl _ }
  · next e k f yes =>
    obtain ⟨lt, own, least⟩ := v.some k f rfl
    split
    · next before => exact {
        none := nofun
        some := fun i g hi => by
          cases hi
          refine ⟨Nat.lt_succ_self n, yes, fun j hj cand => ?_⟩
          obtain hj | rfl := Nat.lt_succ_iff_lt_or_eq.mp hj
          · have := least j hj cand
            rw [standsBefore_iff] at before
            rw [not_standsBefore_iff] at this ⊢
            omega
          · exact standsBefore_irrefl _ }
    · next after => exact {
        none := nofun
        some := fun i g hi => by
          cases hi
          refine ⟨lt.trans (Nat.lt_succ_self n), own, fun j hj cand => ?_⟩
          obtain hj | rfl := Nat.lt_succ_iff_lt_or_eq.mp hj
          · exact least j hj cand
          · exact Bool.eq_false_iff.mpr after }

/-- The victim is a candidate of R77 that stands before no other. -/
theorem victim_spec (s : State) : Victim s 96 (victim s) := by
  have found : ∀ n, Victim s n ((List.range n).foldl (worse s) none) := fun n => by
    induction n with
    | zero => exact ⟨fun _ j hj => absurd hj (Nat.not_lt_zero j), nofun⟩
    | succ n ih =>
      rw [List.range_succ, List.foldl_append]
      exact ih.next
  exact found 96

theorem victim_engine {h e : Nat} (hv : victim s = some (h, e)) : victimEngine s h = some e :=
  ((victim_spec s).some h e hv).2.1

/-! ### What keeps the laws of the queue -/

/-- A record as the queue's laws see it unchanged: it waits as before with its key, and keeps what R68 says of engine and ending outcome. -/
structure StandsAs (r r' : Request) : Prop where
  waiting : r'.state = .waiting ↔ r.state = .waiting
  cls : r'.cls = r.cls
  priority : r'.priority = r.priority
  order : r'.order = r.order
  engine : r'.state = .waiting → r.engine = none → r'.engine = none
  ending : (r.ending ≠ .none → r.state = .ending) → r'.ending ≠ .none → r'.state = .ending

namespace StandsAs

theorem refl (r : Request) : StandsAs r r := ⟨.rfl, rfl, rfl, rfl, fun _ h => h, id⟩

theorem standsBefore {a a' b b' : Request} (ha : StandsAs a a') (hb : StandsAs b b') :
    Machine.standsBefore a' b' = Machine.standsBefore a b := by
  simp only [Machine.standsBefore, ha.cls, ha.priority, ha.order, hb.cls, hb.priority, hb.order]

end StandsAs

namespace WaitingQueueLaw

/-- The queue stands, and every record stands as it did. -/
theorem of_standsAs (w : WaitingQueueLaw s) (hq : t.zar.queue = s.zar.queue)
    (hr : ∀ k, StandsAs (request s k) (request t k)) : WaitingQueueLaw t where
  bound := hq ▸ w.bound
  handles := hq ▸ w.handles
  lists k hk := by rw [hq, w.lists k hk, (hr k).waiting]
  once := hq ▸ w.once
  sorted := by
    rw [hq]
    exact w.sorted.imp fun {a b} h => by rw [(hr b).standsBefore (hr a)]; exact h
  engine k hk waits := (hr k).engine waits (w.engine k hk ((hr k).waiting.mp waits))
  outcome k hk := (hr k).ending (w.outcome k hk)

theorem of_zar (w : WaitingQueueLaw s) (hz : t.zar = s.zar) : WaitingQueueLaw t :=
  w.of_standsAs (by rw [hz]) fun k => request_of_zar hz k ▸ .refl _

/-- The queue stands, and the one record that is written stands as it did. -/
theorem of_record (w : WaitingQueueLaw s) {h : Nat} {r : Request} (hq : t.zar.queue = s.zar.queue)
    (hr : ∀ k, request t k = if h = k ∧ h < 96 then r else request s k) (stands : StandsAs (request s h) r) :
    WaitingQueueLaw t := w.of_standsAs hq fun k => by
  rw [hr]
  split
  · next e => exact e.1 ▸ stands
  · exact .refl _

theorem setRequest (w : WaitingQueueLaw s) {h : Nat} {r : Request} (stands : StandsAs (request s h) r) :
    WaitingQueueLaw (Machine.setRequest h r s) := w.of_record rfl (request_setRequest h r s) stands

/-- A request leaves the queue, and waits no longer. -/
theorem leave (w : WaitingQueueLaw s) {h : Nat} {r : Request} (hq : t.zar.queue = s.zar.queue.filter (· != h))
    (hr : ∀ k, request t k = if h = k ∧ h < 96 then r else request s k) (left : r.state ≠ .waiting)
    (ending : r.ending ≠ .none → r.state = .ending) : WaitingQueueLaw t := by
  have other : ∀ k, k ≠ h → request t k = request s k := fun k hk => by rw [hr, if_neg fun e => hk e.1.symm]
  have own : h < 96 → request t h = r := fun hh => by rw [hr, if_pos ⟨rfl, hh⟩]
  have mem : ∀ k, k ∈ t.zar.queue ↔ k ∈ s.zar.queue ∧ k ≠ h := fun k => by rw [hq, List.mem_filter, bne_iff_ne]
  exact {
    bound := by rw [hq]; exact (List.length_filter_le ..).trans w.bound
    handles := fun k hk => w.handles k ((mem k).mp hk).1
    lists := fun k hk => by
      rw [mem]
      by_cases e : k = h
      · subst e
        rw [own hk]
        exact ⟨fun c => absurd rfl c.2, fun c => absurd c left⟩
      · rw [other k e, w.lists k hk]
        exact ⟨fun c => c.1, fun c => ⟨c, e⟩⟩
    once := hq ▸ w.once.filter _
    sorted := by
      rw [hq]
      refine (w.sorted.filter (· != h)).imp_of_mem fun {a b} ha hb before => ?_
      rw [other a (bne_iff_ne.mp (List.mem_filter.mp ha).2), other b (bne_iff_ne.mp (List.mem_filter.mp hb).2)]
      exact before
    engine := fun k hk waits => by
      by_cases e : k = h
      · subst e; exact absurd (own hk ▸ waits) left
      · rw [other k e] at waits ⊢
        exact w.engine k hk waits
    outcome := fun k hk => by
      by_cases e : k = h
      · subst e; rw [own hk]; exact ending
      · rw [other k e]; exact w.outcome k hk }

/-- A request that does not wait comes to wait at its place in a queue with room. -/
theorem join (w : WaitingQueueLaw s) {h : Nat} {r : Request} (hh : h < 96) (idle : (request s h).state ≠ .waiting)
    (room : s.zar.queue.length < 64) (hq : t.zar.queue = insertHandle t h s.zar.queue)
    (hr : ∀ k, request t k = if h = k ∧ h < 96 then r else request s k) (waits : r.state = .waiting)
    (engine : r.engine = none) (ending : r.ending = .none) : WaitingQueueLaw t := by
  have other : ∀ k, k ≠ h → request t k = request s k := fun k hk => by rw [hr, if_neg fun e => hk e.1.symm]
  have own : request t h = r := by rw [hr, if_pos ⟨rfl, hh⟩]
  have fresh : h ∉ s.zar.queue := mt (w.lists h hh).mp idle
  have sorted : s.zar.queue.Pairwise fun a b => standsBefore (request t b) (request t a) = false :=
    w.sorted.imp_of_mem fun {a b} ha hb before => by
      rw [other a fun e => fresh (e ▸ ha), other b fun e => fresh (e ▸ hb)]
      exact before
  exact {
    bound := by rw [hq, ActFrame.insertHandle_length]; exact room
    handles := fun k hk => by
      rw [hq, mem_insertHandle] at hk
      obtain rfl | hk := hk
      · exact hh
      · exact w.handles k hk
    lists := fun k hk => by
      rw [hq, mem_insertHandle]
      by_cases e : k = h
      · subst e; rw [own]; exact ⟨fun _ => waits, fun _ => .inl rfl⟩
      · rw [other k e, ← w.lists k hk]; exact ⟨fun c => c.resolve_left e, .inr⟩
    once := hq ▸ nodup_insertHandle fresh w.once
    sorted := by rw [hq]; exact sorted_insertHandle sorted
    engine := fun k hk c => by
      by_cases e : k = h
      · subst e; rw [own]; exact engine
      · rw [other k e] at c ⊢; exact w.engine k hk c
    outcome := fun k hk => by
      by_cases e : k = h
      · subst e; rw [own]; exact fun c => absurd ending c
      · rw [other k e]; exact w.outcome k hk }

/-! ### The arbiter's actions -/

theorem not_waiting_of_held {h : Nat} (held : (request s h).state = .granted ∨ (request s h).state = .active) :
    (request s h).state ≠ .waiting := by
  obtain e | e := held <;> rw [e] <;> nofun

theorem endRequest (w : WaitingQueueLaw s) (h : Nat) (c : EndCause) : WaitingQueueLaw (Machine.endRequest h c s) :=
  w.leave (queue_endRequest h c s) (request_endRequest h c s) nofun fun e => absurd rfl e

theorem enterEnding (w : WaitingQueueLaw s) {h : Nat} (idle : (request s h).state ≠ .waiting) (o : EndingOutcome) :
    WaitingQueueLaw (Machine.enterEnding h o s) := by
  refine w.of_record (queue_enterEnding h o s) (request_enterEnding h o s)
    ⟨⟨nofun, fun e => absurd e idle⟩, rfl, rfl, rfl, fun _ e => e, fun _ _ => rfl⟩

theorem joinLive (w : WaitingQueueLaw s) (h : Nat) : WaitingQueueLaw (Machine.joinLive h s) := by
  refine w.of_standsAs (queue_joinLive h s) fun k => ?_
  rw [request_joinLive]
  split
  · next first =>
    obtain ⟨⟨rfl, -⟩, -, granted⟩ := first
    refine ⟨⟨nofun, fun e => ?_⟩, rfl, rfl, rfl, fun _ e => e, fun law outcome => ?_⟩
    · rw [granted] at e; cases e
    · have := law outcome
      rw [granted] at this; cases this
  · exact .refl _

theorem joinLane (w : WaitingQueueLaw s) (h : Nat) : WaitingQueueLaw (Machine.joinLane h s) := by
  obtain e | e := joinLane_cases h s <;> rw [e]
  · exact w.joinLive h
  · exact w

theorem leavePreroll (w : WaitingQueueLaw s) (e : Nat) : WaitingQueueLaw (Machine.leavePreroll e s) := by
  obtain e | ⟨h, -, -, ⟨c, -, e⟩ | ⟨-, e⟩⟩ := leavePreroll_cases e s <;> rw [e]
  · exact w
  · exact w.endRequest ..
  · exact (w.of_zar (t := setEngine ..) rfl).joinLive h

theorem testEngine (w : WaitingQueueLaw s) (o : Option Nat) : WaitingQueueLaw (Machine.testEngine o s) := by
  cases o with
  | none => exact w
  | some e => exact w.leavePreroll e

theorem loseZones (w : WaitingQueueLaw s) (h : Nat) (zs : ZoneSet) (cause : RemovalCause) (taker : Option Nat) :
    WaitingQueueLaw (Machine.loseZones h zs cause taker s) := by
  have shrunk : WaitingQueueLaw (shrink h zs cause taker s) :=
    w.of_record (queue_shrink h zs cause taker s) (request_shrink h zs cause taker s)
      ⟨.rfl, rfl, rfl, rfl, fun _ e => e, id⟩
  rw [loseZones_eq]
  split
  · next emptied =>
    have idle : (request (shrink h zs cause taker s) h).state ≠ .waiting := by
      rw [request_shrink]
      split
      · exact not_waiting_of_held emptied.2
      · exact not_waiting_of_held emptied.2
    obtain ⟨-, o, -, e⟩ | ⟨c, e⟩ := displace_cases h cause (shrink h zs cause taker s) <;> rw [e]
    · exact shrunk.enterEnding idle o
    · exact shrunk.endRequest h c
  · exact shrunk.testEngine _

/-- A grant takes its request out of the queue; what it takes from others keeps the laws, and nobody comes to wait by it. -/
theorem grant (w : WaitingQueueLaw s) {h : Nat} (waits : (request s h).state = .waiting) (zs : ZoneSet) (bind : Bool) :
    WaitingQueueLaw (Machine.grant h zs bind s) := by
  have hh : h < 96 := lt_of_state (by rw [waits]; nofun)
  have outcome : (request s h).ending = .none := by
    by_contra e
    have := w.outcome h hh e
    rw [waits] at this; cases this
  have begun : WaitingQueueLaw (granting h zs bind s) :=
    w.leave rfl (request_granting h zs bind s) nofun fun e => absurd outcome e
  have taken : WaitingQueueLaw (takeZones h zs (granting h zs bind s)) :=
    foldl_keeps WaitingQueueLaw _ (fun s k w => w.loseZones k.1 k.2 .preemption (some h)) _ _ begun
  have claimed : WaitingQueueLaw (writeClaims zs (.pendingJoin h) (takeZones h zs (granting h zs bind s))) :=
    taken.of_standsAs rfl fun k => .refl _
  have idle : (request (writeClaims zs (.pendingJoin h) (takeZones h zs (granting h zs bind s))) h).state ≠ .waiting :=
    fun c => by
      have := ((NoNewWaiter.takeZones h zs (granting h zs bind s)).waited h c).1
      rw [request_granting, if_pos ⟨rfl, hh⟩] at this
      cases this
  rw [grant_eq]
  refine joinLane ?_ h
  obtain ⟨e, -⟩ | ⟨e, -, -, eq⟩ :=
    bindIdle_cases h zs bind (writeClaims zs (.pendingJoin h) (takeZones h zs (granting h zs bind s)))
  · rw [e]; exact claimed
  · rw [eq]
    exact claimed.of_record (queue_bound ..) (request_bound h zs e _) ⟨.rfl, rfl, rfl, rfl, fun c => absurd c idle, id⟩

theorem stopVictim (w : WaitingQueueLaw s) : WaitingQueueLaw (Machine.stopVictim s) := by
  unfold Machine.stopVictim
  split
  · exact w
  · split
    · exact w
    · next h e hv =>
      have idle : (request s h).state ≠ .waiting := fun waits => by
        have none := w.engine h (lt_of_state (by rw [waits]; nofun)) waits
        have some := (victimEngine_iff s h e).mp (victim_engine hv)
        rw [none] at some
        cases some.2.2.1
      exact (w.enterEnding idle _).of_standsAs rfl fun k => .refl _

end WaitingQueueLaw
end Sys2Proof.Machine
end

section
/-! Every step keeps the laws of the waiting queue (R69). -/

namespace Sys2Proof.Machine
set_option Elab.async false

variable {s t : State}

theorem request_resetZar (hz : t.zar = resetZar) {k : Nat} (hk : k < 96) : request t k = freeRequest := by
  rw [request, hz]
  exact tget_replicate _ k hk

theorem claim_resetZar (hz : t.zar = resetZar) {z : Nat} (lt : z < 48) : claim t z = .empty := by
  rw [claim, hz]
  exact tget_replicate _ z lt

/-- Of the records, a tick end counts down talk counts (R88). -/
theorem request_countTalk (s : State) {k : Nat} (hk : k < 96) : request (countTalk s) k = countTalkOf (request s k) :=
  tget_map _ _ k hk

theorem countTalkOf_cases (r : Request) : ∃ n, countTalkOf r = { r with talkCount := n } := by
  unfold countTalkOf
  split
  · exact ⟨_, rfl⟩
  · exact ⟨r.talkCount, rfl⟩

namespace WaitingQueueLaw

theorem takeBoundary (w : WaitingQueueLaw s) (e h i : Nat) : WaitingQueueLaw (Machine.takeBoundary e h i s) := by
  have joined := w.joinLive h
  unfold Machine.takeBoundary
  split
  · exact w.endRequest ..
  · dsimp only
    split
    · have bared : WaitingQueueLaw (Machine.setRequest h
          { request (Machine.joinLive h s) h with engine := none, current := .lane } (Machine.joinLive h s)) :=
        joined.setRequest ⟨.rfl, rfl, rfl, rfl, fun _ _ => rfl, id⟩
      exact bared.of_standsAs (queue_releaseEngine e _) fun k => by
        rw [handOver_eq]
        exact request_releaseEngine e k _ ▸ .refl _
    · split
      · exact joined.endRequest ..
      · obtain ⟨-, -, -, zar, -⟩ := continueList_cases e h i (Machine.joinLive h s)
        exact joined.of_zar zar

theorem requeue (w : WaitingQueueLaw s) {h : Nat} (returns : (request s h).ending = .returns)
    (room : s.zar.queue.length < 64) : WaitingQueueLaw (Machine.requeue h s) := by
  have hh : h < 96 := by
    by_contra le
    rw [request_of_le (not_lt.mp le)] at returns
    cases returns
  have ending := w.outcome h hh (by rw [returns]; nofun)
  refine w.join hh (by rw [ending]; nofun) room ?_ (request_requeue h s) rfl rfl rfl
  rw [zar_requeue]
  exact insertHandle_congr (by rw [zar_requeue]; rfl) ..

theorem admitRecord (w : WaitingQueueLaw s) {h : Nat} {r : Request} (free : freeHandle? s = some h)
    (room : s.zar.queue.length < 64) (new : NewRequest r) : WaitingQueueLaw (Machine.admitRecord h r s) := by
  obtain ⟨hh, idle⟩ := freeHandle?_spec free
  refine w.join hh (by rw [idle]; nofun) room ?_ (request_admitRecord h r s) rfl new.engine new.ending
  rw [zar_admitRecord]
  exact insertHandle_congr (by rw [zar_admitRecord]) ..

theorem endFade (w : WaitingQueueLaw s) (e : Nat) : WaitingQueueLaw (Machine.endFade e s) := by
  have released : ∀ {t}, WaitingQueueLaw t → WaitingQueueLaw (needPass (releaseEngine e t)) := fun {t} w =>
    w.of_standsAs (queue_releaseEngine e t) fun k => (request_releaseEngine e k t).symm ▸ .refl _
  obtain e | ⟨-, e⟩ | ⟨h, -, -, e⟩ := endFade_cases e s <;> rw [e]
  · exact w
  · exact released w
  · refine released ?_
    obtain ⟨c, -, e⟩ | ⟨returns, -, room, e⟩ | ⟨-, e⟩ := takeOutcome_cases h s <;> rw [e]
    · exact w.endRequest h c
    · exact w.requeue returns room
    · exact w

/-- Every elementary action keeps the laws of the queue. -/
theorem actions : ActionLaw fun s t => WaitingQueueLaw s → WaitingQueueLaw t where
  trans a b := b ∘ a
  same hz _ _ _ w := w.of_zar hz
  lines _ w := w.of_zar rfl
  engines _ w := w.of_zar rfl
  onTick a w := (a (w.of_zar rfl)).of_zar rfl
  vacate z f cause s _ w := by
    have lined : WaitingQueueLaw (modLine z f s) := w.of_zar rfl
    unfold vacate
    split
    · exact lined
    · exact lined.loseZones ..
  endRequest h c s w := w.endRequest h c
  enterEnding held _ _ w := w.enterEnding (not_waiting_of_held held) _
  walkRequest p h w := by
    obtain e | ⟨waits, -, bind, -, -, e⟩ | e := walkRequest_cases p h <;> rw [e]
    · exact w
    · exact w.grant waits ..
    · exact w.stopVictim
  lateJoin s h w := by
    obtain e | ⟨-, e⟩ := lateJoin_cases s h <;> rw [e]
    · exact w
    · exact (w.of_record (queue_takeLate h _ s) (request_takeLate h _ s) ⟨.rfl, rfl, rfl, rfl, fun _ e => e, id⟩).joinLane h
  joinLane h s w := w.joinLane h
  leavePreroll e s w := w.leavePreroll e
  boundary e s w := by
    obtain e | ⟨h, i, -, -, -, e⟩ := boundary_cases e s <;> rw [e]
    · exact w
    · exact w.takeBoundary ..
  endFade e s w := w.endFade e
  admitRecord free room _ new w := w.admitRecord free room new
  setPendingEnd _ _ w := w.setRequest ⟨.rfl, rfl, rfl, rfl, fun _ e => e, id⟩
  setOutcome _ ending w := w.setRequest ⟨.rfl, rfl, rfl, rfl, fun _ e => e, fun _ _ => ending⟩
  countTalk s w := w.of_standsAs rfl fun k => by
    by_cases hk : k < 96
    · obtain ⟨n, e⟩ := countTalkOf_cases (request s k)
      rw [request_countTalk s hk, e]
      exact ⟨.rfl, rfl, rfl, rfl, fun _ e => e, id⟩
    · rw [request_of_le (not_lt.mp hk), request_of_le (not_lt.mp hk)]
      exact .refl _

theorem reset (hz : t.zar = resetZar) : WaitingQueueLaw t := by
  have free : ∀ k, k < 96 → request t k = freeRequest := fun k hk => request_resetZar hz hk
  exact {
    bound := by rw [hz]; exact Nat.zero_le _
    handles := by rw [hz]; nofun
    lists := fun k hk => by rw [free k hk, hz]; exact ⟨nofun, nofun⟩
    once := by rw [hz]; exact List.nodup_nil
    sorted := by rw [hz]; exact .nil
    engine := fun k hk waits => by rw [free k hk] at waits; cases waits
    outcome := fun k hk ending => by rw [free k hk] at ending; exact absurd rfl ending }

/-- Every row keeps the laws of the queue. -/
theorem rows : RowLaw (fun s t => WaitingQueueLaw s → WaitingQueueLaw t) fun s t => WaitingQueueLaw s → WaitingQueueLaw t :=
  .of_invariant actions (fun hz _ _ w => w.of_zar hz) (fun s _ => reset (by rw [unitReset_after]; rfl))
    (fun straps s => reset (powerOn_defaults straps s).zar) fun straps s => reset (pinReset_defaults straps s).zar

end WaitingQueueLaw

/-- Settles O8: the laws of the queue are an invariant by themselves. A request leaves the queue by a grant or an end, and comes to wait by an admission or a return alone, which put it at its place in a queue with room. -/
theorem everyStepKeepsTheWaitingQueueLaw : Obligations.EveryStepKeepsTheWaitingQueueLaw :=
  fun _ _ w h => WaitingQueueLaw.rows.step h w

end Sys2Proof.Machine
end

section
/-! The law of R87: no WAITING request has a latest start earlier than the T that the last notice of the frame period has handed on. Actions bring nobody to wait past it, and the notices that hand on a T end whoever is past it. -/

namespace Sys2Proof.Machine
set_option Elab.async false

variable {s t u : State}

/-- What an action does for the law of R87: it leaves what the law reads of clock and period, and whoever comes to wait by it is not late. -/
structure KeepsOnTime (s t : State) : Prop where
  clock : SameClock s t
  waits : (s.period.tick.isSome = true → s.period.handed.isSome = true) → ∀ k, (request t k).state = .waiting →
    ((request s k).state = .waiting ∧ (request t k).latestStart = (request s k).latestStart) ∨
      ∀ l, (request t k).latestStart = some l → earlier l (lawTime s) = false

namespace KeepsOnTime

theorem trans (a : KeepsOnTime s t) (b : KeepsOnTime t u) : KeepsOnTime s u where
  clock := a.clock.trans b.clock
  waits handed k w := by
    have handed' : t.period.tick.isSome = true → t.period.handed.isSome = true := by
      rw [a.clock.tick, a.clock.handed]
      exact handed
    obtain ⟨w, l⟩ | late := b.waits handed' k w
    · obtain ⟨w, m⟩ | late := a.waits handed k w
      · exact .inl ⟨w, l.trans m⟩
      · exact .inr fun x hx => late x (l ▸ hx)
    · exact .inr fun l hl => a.clock.lawTime ▸ late l hl

/-- Where nobody comes to wait. -/
theorem of_noNewWaiter (clock : SameClock s t) (n : NoNewWaiter s t) : KeepsOnTime s t :=
  ⟨clock, fun _ k w => .inl (n.waited k w)⟩

theorem of_act (f : ActFrame s t) (n : NoNewWaiter s t) : KeepsOnTime s t := .of_noNewWaiter (.of_act f) n

/-- Where one request comes to wait, and is not late. -/
theorem of_record {h : Nat} {r : Request} (clock : SameClock s t)
    (hr : ∀ k, request t k = if h = k ∧ h < 96 then r else request s k) (late : pastLatest s r = false) :
    KeepsOnTime s t where
  clock := clock
  waits _ k w := by
    rw [hr] at w ⊢
    by_cases own : h = k ∧ h < 96
    · rw [if_pos own]
      refine .inr fun l hl => ?_
      rw [pastLatest, hl] at late
      exact (Bool.or_eq_false_iff.mp late).2
    · rw [if_neg own] at w ⊢
      exact .inl ⟨w, rfl⟩

/-- The T that an action on the tick-end notice reads is no other than the one of the law. -/
theorem lawTime_noticed (handed : s.period.tick.isSome = true → s.period.handed.isSome = true) :
    lawTime (noticed s) = lawTime s := by
  change s.period.handed.getD (s.period.tick.getD s.stc.time) = s.period.handed.getD s.stc.time
  cases hh : s.period.handed with
  | some x => rfl
  | none =>
    cases ht : s.period.tick with
    | none => rfl
    | some x =>
      have := handed (by rw [ht]; rfl)
      rw [hh] at this; cases this

theorem requeue (h : Nat) (late : pastLatest s (request s h) = false) (room : s.zar.queue.length < 64) :
    KeepsOnTime s (Machine.requeue h s) := .of_record (.of_act (.requeue room)) (request_requeue h s) late

theorem endFade (e : Nat) (s : State) : KeepsOnTime s (Machine.endFade e s) := by
  have released : ∀ t, KeepsOnTime t (needPass (releaseEngine e t)) := fun t =>
    .of_act ((ActFrame.releaseEngine e t).trans (.needPass _)) (.of_request (request_releaseEngine e · t))
  obtain e | ⟨-, e⟩ | ⟨h, -, -, e⟩ := endFade_cases e s <;> rw [e]
  · exact of_noNewWaiter (.refl s) (.refl s)
  · exact released s
  · refine trans ?_ (released _)
    obtain ⟨c, -, e⟩ | ⟨-, late, room, e⟩ | ⟨-, e⟩ := takeOutcome_cases h s <;> rw [e]
    · exact of_act (.endRequest h c s) (.endRequest h c s)
    · exact requeue h late room
    · exact of_noNewWaiter (.refl s) (.refl s)

theorem actions : ActionLaw KeepsOnTime where
  trans := trans
  same hz _ _ hc := .of_noNewWaiter hc (.of_zar hz)
  lines _ := .of_noNewWaiter (by constructor <;> rfl) (.of_zar rfl)
  engines _ := .of_noNewWaiter (by constructor <;> rfl) (.of_zar rfl)
  onTick a := ⟨⟨rfl, rfl, a.clock.tickLength, a.clock.taken, a.clock.tick, a.clock.handed⟩, fun handed k w => by
    rw [← lawTime_noticed handed]
    exact a.waits handed k w⟩
  vacate z f cause s _ := by
    refine .of_noNewWaiter ?_ (.vacate z f cause s)
    have lined : SameClock s (modLine z f s) := by constructor <;> rfl
    unfold vacate
    split
    · exact lined
    · exact lined.trans (.of_act (.loseZones ..))
  endRequest h c s := .of_act (.endRequest h c s) (.endRequest h c s)
  enterEnding _ _ _ := .of_act (.enterEnding ..) (.enterEnding ..)
  walkRequest p h := .of_act (.walkRequest p h) (.walkRequest p h)
  lateJoin s h := .of_act (.lateJoin s h) (.lateJoin s h)
  joinLane h s := .of_act (.joinLane h s) (.joinLane h s)
  leavePreroll e s := .of_act (.leavePreroll e s) (.leavePreroll e s)
  boundary e s := .of_act (.boundary e s) (.boundary e s)
  endFade := endFade
  admitRecord free room late _ := .of_record (.of_act (.admitRecord room)) (request_admitRecord _ _ _) late
  setPendingEnd _ _ := .of_act (.setRequest ..) (.setRequest fun w => ⟨w, rfl⟩)
  setOutcome _ _ := .of_act (.setRequest ..) (.setRequest fun w => ⟨w, rfl⟩)
  countTalk s := .of_act (.countTalk s) (.countTalk s)

/-- Whoever waits after an action is not late, where nobody was before it. -/
theorem noneLate (a : KeepsOnTime s t) (handed : s.period.tick.isSome = true → s.period.handed.isSome = true)
    (none : NoneLate (lawTime s) s) : NoneLate (lawTime s) t := fun k hk w l hl => by
  obtain ⟨w, same⟩ | late := a.waits handed k w
  · exact none k hk w l (same ▸ hl)
  · exact late l hl

theorem expiryLaw (a : KeepsOnTime s t) (x : ExpiryLaw s) : ExpiryLaw t where
  none := a.clock.lawTime ▸ a.noneLate x.tick x.none
  taken h := by
    rw [a.clock.tickLength, a.clock.phase, a.clock.handed, a.clock.time]
    exact x.taken (a.clock.taken ▸ h)
  untaken h := by
    rw [a.clock.handed, a.clock.time]
    exact x.untaken (a.clock.taken ▸ h)
  tick h := by
    rw [a.clock.handed]
    exact x.tick (a.clock.tick ▸ h)

end KeepsOnTime

/-! ### The expiry test (R87) -/

/-- After their ends, none of the requests of a list waits. -/
theorem foldl_endRequest_not_waiting (c : EndCause) : ∀ (hs : List Nat) (s : State),
    NoNewWaiter s (hs.foldl (fun s h => endRequest h c s) s) ∧
      ∀ h ∈ hs, (request (hs.foldl (fun s h => endRequest h c s) s) h).state ≠ .waiting
  | [], s => ⟨.refl s, nofun⟩
  | h :: hs, s => by
    obtain ⟨rest, ended⟩ := foldl_endRequest_not_waiting c hs (endRequest h c s)
    refine ⟨(NoNewWaiter.endRequest h c s).trans rest, fun k hk => ?_⟩
    obtain rfl | hk := List.mem_cons.mp hk
    · intro waits
      have := (rest.waited k waits).1
      rw [request_endRequest, if_pos ⟨rfl, lt_of_state (by rw [waits]; nofun)⟩] at this
      cases this
    · exact ended k hk

/-- The expiry test leaves nobody late: the queue lists whoever waits, and each that is late ends. -/
theorem noneLate_expireAll (w : WaitingQueueLaw s)
    (handed : s.period.tick.isSome = true → s.period.handed.isSome = true) : NoneLate (lawTime s) (expireAll s) := by
  have onTime : ∀ k, k < 96 → (request s k).state = .waiting → k ∉ expiring s →
      ∀ l, (request s k).latestStart = some l → earlier l (lawTime s) = false := fun k hk waits stays l hl => by
    have kept : pastLatest s (request s k) = false := by
      by_contra late
      refine stays (List.mem_filter.mpr ⟨(w.lists k hk).mpr waits, ?_⟩)
      rw [waits, Bool.not_eq_false _ |>.mp late]; rfl
    rw [pastLatest, hl] at kept
    exact (Bool.or_eq_false_iff.mp kept).2
  unfold expireAll endAll
  split
  · next none => exact fun k hk waits => onTime k hk waits (by rw [none]; nofun)
  · obtain ⟨rest, ended⟩ := foldl_endRequest_not_waiting .expired (expiring s) s
    have frame : ActFrame s ((expiring s).foldl (fun s h => endRequest h .expired s) s) :=
      .foldl (fun s h => .endRequest h .expired s) _ s
    have clock : SameClock s ((expiring s).foldl (fun s h => endRequest h .expired s) s) := .of_act frame
    rw [← clock.lawTime]
    refine (KeepsOnTime.actions.settle _).noneLate (by rw [clock.tick, clock.handed]; exact handed) ?_
    intro k hk waits l hl
    obtain ⟨waited, same⟩ := rest.waited k waits
    rw [clock.lawTime]
    exact onTime k hk waited (fun m => ended k m waits) l (same ▸ hl)

/-! ### Notices that hand on a T (R138, R142) -/

theorem noneLate_of_zar {x : Time} (hz : t.zar = s.zar) (n : NoneLate x s) : NoneLate x t := fun k hk => by
  rw [request_of_zar hz k]
  exact n k hk

/-- What follows the expiry test of a tick end brings nobody to wait late. -/
theorem noneLate_tickActions (w : WaitingQueueLaw s)
    (handed : s.period.tick.isSome = true → s.period.handed.isSome = true) : NoneLate (lawTime s) (tickActions s) := by
  have clock := (KeepsOnTime.actions.expireAll s).clock
  have after := (KeepsOnTime.actions.afterExpiry s).noneLate (by rw [clock.tick, clock.handed]; exact handed)
    (by rw [clock.lawTime]; exact noneLate_expireAll w handed)
  rw [clock.lawTime] at after
  exact after

/-- A tick end that is due leaves nobody late for the new T. -/
theorem noneLate_tickEnd (w : WaitingQueueLaw s) (untaken : s.period.tickTaken = false)
    (due : s.stc.tickLength ≤ s.stc.phase + 1) : NoneLate (s.stc.time + 1) (tickEnd s) := by
  obtain ⟨u, zones, hu, e, -⟩ := tickEnd_spec untaken due
  have shown : WaitingQueueLaw (tickShown s) := w.of_zar rfl
  have late := noneLate_tickActions shown (fun _ => rfl)
  rw [lawTime_of_handed (t := s.stc.time + 1) rfl, ← hu] at late
  rw [e]
  exact noneLate_of_zar (s := u) rfl late

/-- The clock and the period's notes after a tick end, as the law of R87 reads them. -/
theorem expiryLaw_tickEnd (w : WaitingQueueLaw s) (x : ExpiryLaw s) : ExpiryLaw (tickEnd s) := by
  by_cases taken : s.period.tickTaken = true
  · rw [tickEnd_not_due (.inl taken)]; exact x
  · by_cases due : s.stc.tickLength ≤ s.stc.phase + 1
    · have untaken := Bool.eq_false_iff.mpr taken
      have none := noneLate_tickEnd w untaken due
      obtain ⟨u, zones, -, e, -⟩ := tickEnd_spec untaken due
      rw [e] at none ⊢
      exact { none := none, taken := fun _ => ⟨due, rfl⟩, untaken := nofun, tick := fun _ => rfl }
    · rw [tickEnd_not_due (.inr (not_le.mp due))]; exact x

/-- A step leaves nobody late for its T, in either order of arbiter and scheduler (R142, log 11). -/
theorem noneLate_stepNotice (w : WaitingQueueLaw s)
    (handed : s.period.tick.isSome = true → s.period.handed.isSome = true) : NoneLate (lawTime s) (stepNotice s) := by
  have a := KeepsOnTime.actions
  unfold stepNotice
  split
  · have notified := a.schedulerNotice s
    have expired := noneLate_expireAll (WaitingQueueLaw.actions.schedulerNotice s w)
      (by rw [notified.clock.tick, notified.clock.handed]; exact handed)
    rw [notified.clock.lawTime] at expired
    exact expired
  · have tested := (a.expireAll s).clock
    have expired := noneLate_expireAll w handed
    rw [← tested.lawTime] at expired ⊢
    exact (a.schedulerNotice (expireAll s)).noneLate (by rw [tested.tick, tested.handed]; exact handed) expired

theorem keepsOnTime_stepNotice (s : State) : KeepsOnTime s (stepNotice s) := by
  have a := KeepsOnTime.actions
  unfold stepNotice
  split
  · exact a.trans (a.schedulerNotice s) (a.expireAll _)
  · exact a.trans (a.expireAll s) (a.schedulerNotice _)

theorem keepsOnTime_raiseLocked (old : Stc) (s : State) : KeepsOnTime s (raiseLocked old s) := by
  unfold raiseLocked
  split
  · exact KeepsOnTime.actions.refl s
  · exact KeepsOnTime.actions.pushEvent ..

theorem expiryLaw_applyStep (reference : Time) (n : Nat) (w : WaitingQueueLaw s) : ExpiryLaw (applyStep reference n s) := by
  have a := KeepsOnTime.actions
  let v := raiseLocked s.stc (raiseTimeStep reference n s (stepState reference s))
  have clock : SameClock (stepState reference s) v :=
    ((a.pushEvent ..).trans (keepsOnTime_raiseLocked s.stc (raiseTimeStep reference n s (stepState reference s)))).clock
  have waiting : WaitingQueueLaw v := by
    have q := WaitingQueueLaw.actions
    have raised := q.pushEvent 0x08 (BitVec.ofNat 8 n) 0 [f4i (timeDT reference s), f2 (captured s).2, fTime s.stc.time,
      f2 s.stc.phase] (stepState reference s) (w.of_zar rfl)
    change WaitingQueueLaw (raiseLocked s.stc _)
    unfold raiseLocked
    split
    · exact raised
    · exact q.pushEvent _ _ _ _ _ raised
  have told := (keepsOnTime_stepNotice v).clock
  have law : lawTime v = (stepState reference s).stc.time := clock.lawTime
  have late := noneLate_stepNotice waiting fun _ => by rw [clock.handed]; rfl
  have same := clock.trans told
  have handed : (stepNotice v).period.handed = some (stepNotice v).stc.time := by
    rw [same.handed, same.time]; rfl
  exact {
    none := by
      rw [show lawTime (applyStep reference n s) = lawTime v by rw [law, ← same.time]; exact lawTime_of_handed handed]
      exact noneLate_of_zar rfl late
    taken := fun h => by
      have : (stepNotice v).period.tickTaken = true := h
      rw [same.taken] at this; cases this
    untaken := fun _ => .inr handed
    tick := fun _ => by
      rw [show (applyStep reference n s).period.handed = (stepNotice v).period.handed from rfl, handed]; rfl }

/-! ### The end of a frame period (R136) -/

/-- What the law needs at the end of a frame period: a tick end that is due has been taken. -/
theorem expiryLaw_advancePeriod (x : ExpiryLaw s) (closed : s.period.tickTaken = true ∨ s.stc.phase + 1 < s.stc.tickLength) :
    ExpiryLaw (advancePeriod s) := by
  have law : lawTime s = (advanceClock s.stc).time := by
    unfold advanceClock
    by_cases goes : s.stc.phase + 1 < s.stc.tickLength
    · rw [if_pos goes]
      have untaken : s.period.tickTaken = false := by
        by_contra taken
        exact absurd (x.taken (Bool.not_eq_false _ |>.mp taken)).1 (not_le.mpr goes)
      obtain none | own := x.untaken untaken
      · exact lawTime_of_none none
      · exact lawTime_of_handed own
    · rw [if_neg goes]
      exact lawTime_of_handed (x.taken (closed.resolve_right goes)).2
  exact {
    none := by
      rw [show lawTime (advancePeriod s) = lawTime s from law.symm]
      exact noneLate_of_zar rfl x.none
    taken := nofun
    untaken := fun _ => .inl rfl
    tick := nofun }

theorem tickEnd_closed (s : State) : (tickEnd s).period.tickTaken = true ∨ (tickEnd s).stc.phase + 1 < (tickEnd s).stc.tickLength := by
  by_cases taken : s.period.tickTaken = true
  · rw [tickEnd_not_due (.inl taken)]; exact .inl taken
  · by_cases due : s.stc.tickLength ≤ s.stc.phase + 1
    · obtain ⟨u, zones, -, e, -⟩ := tickEnd_spec (Bool.eq_false_iff.mpr taken) due
      rw [e]; exact .inl rfl
    · rw [tickEnd_not_due (.inr (not_le.mp due))]; exact .inr (not_le.mp due)

/-- Where nobody waits in a period without notices. -/
theorem expiryLaw_reset (hz : t.zar = resetZar) (hp : t.period = newPeriod) : ExpiryLaw t where
  none k hk waits := by rw [request_resetZar hz hk] at waits; cases waits
  taken := by rw [hp]; nofun
  untaken _ := by rw [hp]; exact .inl rfl
  tick := by rw [hp]; nofun

/-- Every row keeps the law of R87, and the laws of the queue with it. -/
theorem expiryRows : RowLaw
    (fun s t => KeepsOnTime s t ∧ (WaitingQueueLaw s → WaitingQueueLaw t))
    fun s t => WaitingQueueLaw s → WaitingQueueLaw t ∧ (ExpiryLaw s → ExpiryLaw t) where
  action := KeepsOnTime.actions.and WaitingQueueLaw.actions
  of_action a w := ⟨a.2 w, a.1.expiryLaw⟩
  trans a b w := ⟨(b (a w).1).1, fun x => (b (a w).1).2 ((a w).2 x)⟩
  tickEnd s w := ⟨WaitingQueueLaw.rows.tickEnd s w, expiryLaw_tickEnd w⟩
  time reference flags s w := by
    refine ⟨WaitingQueueLaw.rows.time reference flags s w, fun x => ?_⟩
    obtain e | ⟨n, e⟩ | e := timeCommand_after reference flags s <;> rw [e]
    · exact x
    · exact expiryLaw_applyStep reference n w
    · have slewed : KeepsOnTime s (s.setStc (lockClock { s.stc with slew := timeOffset reference s })) :=
        KeepsOnTime.actions.untouched
      exact (slewed.trans (keepsOnTime_raiseLocked ..)).expiryLaw x
  endPeriod s w := by
    refine ⟨WaitingQueueLaw.rows.endPeriod s w, fun x => ?_⟩
    have later := KeepsOnTime.actions.laterEvents (tickEnd s)
    refine expiryLaw_advancePeriod (later.expiryLaw (expiryLaw_tickEnd w x)) ?_
    rw [later.clock.taken, later.clock.phase, later.clock.tickLength]
    exact tickEnd_closed s
  unitReset s w := by
    refine ⟨WaitingQueueLaw.rows.unitReset s w, fun x => ?_⟩
    have zar : (unitReset s).after.zar = resetZar := by rw [unitReset_after]; rfl
    have clock : SameClock s (unitReset s).after := by rw [unitReset_after]; constructor <;> rfl
    have nobody : NoNewWaiter s (unitReset s).after := ⟨fun k waits => by
      rw [request_resetZar zar (lt_of_state (by rw [waits]; nofun))] at waits
      cases waits⟩
    exact (KeepsOnTime.of_noNewWaiter clock nobody).expiryLaw x
  powerOn straps s w := ⟨WaitingQueueLaw.rows.powerOn straps s w, fun _ =>
    expiryLaw_reset (powerOn_defaults straps s).zar (powerOn_defaults straps s).period⟩
  pinReset straps s w := ⟨WaitingQueueLaw.rows.pinReset straps s w, fun _ =>
    expiryLaw_reset (pinReset_defaults straps s).zar (pinReset_defaults straps s).period⟩

/-- Settles O13: whoever comes to wait is tested against the T handed on, and a tick end or step that hands on a T ends whoever is late for it before anything else reads it; the end of the period advances to that very T. -/
theorem everyStepKeepsTheExpiryLaw : Obligations.EveryStepKeepsTheExpiryLaw := by
  refine ⟨fun s t w x h => (expiryRows.step h w).2 x, fun s t w untaken due h => ?_⟩
  cases h
  have untaken' : (startPeriod s).period.tickTaken = false := by rw [startPeriod_spec]; exact untaken
  have late := noneLate_tickEnd (s := startPeriod s) (w.of_zar (startPeriod_zar s)) untaken'
    (by rw [startPeriod_stc]; exact due)
  rw [startPeriod_stc] at late
  exact late

end Sys2Proof.Machine
end

section
/-! Claims and engines (R70, R76, R95, R106): who holds a zone, and which request an engine is bound to. Both laws are kept together, record by record: an operation of the arbiter is about one request, and leaves every other with its record, its zones and its engine. -/

namespace Sys2Proof.Machine
set_option Elab.async false

variable {s t u : State} {x y : Option Nat} {h : Nat}

/-! ### The two laws as one, record by record -/

/-- What the laws of claims and engines say of one request. While a grant takes its zones, its request `x` names no zone in the claim table yet, and has not got its engine. -/
structure OwnLaw (x : Option Nat) (s : State) (h : Nat) : Prop where
  named : ∀ z, z < 48 → (claimHandle (claim s z) = some h ↔ x ≠ some h ∧ zmem (request s h).granted z = true)
  within : ∀ z, z < 48 → zmem (request s h).granted z = true → zmem (request s h).requested z = true
  unheld : (request s h).state = .waiting ∨ (request s h).state = .free → (request s h).granted = 0
  owned : ∀ e, (request s h).engine = some e → e < 6 ∧ (tget s.engines e).handle = some h
  held : ∀ e, (request s h).engine = some e →
    (request s h).state = .granted ∨ (request s h).state = .active ∨ (request s h).state = .ending
  stopping : ∀ e, (request s h).engine = some e → ((tget s.engines e).state = .stopping ↔ (request s h).state = .ending)
  ending : (request s h).state = .ending → (request s h).engine ≠ none ∧ (request s h).ending ≠ .none
  source : x ≠ some h → (request s h).state = .granted ∨ (request s h).state = .active →
    ((request s h).engine = none ↔ (request s h).current = .lane)
  lane : (request s h).live = false → (request s h).current = .engine

/-- The laws of claims and engines, but for what a grant of request `x` still owes. -/
structure HoldersAgree (x : Option Nat) (s : State) : Prop where
  own : ∀ h, h < 96 → OwnLaw x s h
  bound : ∀ e, e < 6 → ∀ h, (tget s.engines e).handle = some h → h < 96 ∧ (request s h).engine = some e
  idle : ∀ e, e < 6 → ((tget s.engines e).state = .idle ↔ (tget s.engines e).handle = none)
  zone : ∀ z, z < 48 → ∀ h, claimHandle (claim s z) = some h → h < 96 ∧ usableLine (lineOf s z) = true

theorem holdersAgree_iff : HoldersAgree none s ↔ ClaimsAgree s ∧ EnginesAgree s := by
  constructor
  · intro a
    exact ⟨{
      named := fun z hz h hh => ((a.own h hh).named z hz).trans ⟨fun c => c.2, fun c => ⟨nofun, c⟩⟩
      handles := fun z hz h c => (a.zone z hz h c).1
      within := fun z hz h hh => (a.own h hh).within z hz
      usable := fun z hz h c => (a.zone z hz h c).2
      unheld := fun h hh => (a.own h hh).unheld }, {
      bound := a.bound
      owned := fun h hh => (a.own h hh).owned
      idle := a.idle
      held := fun h hh => (a.own h hh).held
      stopping := fun h hh => (a.own h hh).stopping
      ending := fun h hh => (a.own h hh).ending
      source := fun h hh => (a.own h hh).source nofun
      lane := fun h hh => (a.own h hh).lane }⟩
  · rintro ⟨c, g⟩
    exact {
      own := fun h hh => {
        named := fun z hz => (c.named z hz h hh).trans ⟨fun m => ⟨nofun, m⟩, fun m => m.2⟩
        within := fun z hz => c.within z hz h hh
        unheld := c.unheld h hh
        owned := g.owned h hh
        held := g.held h hh
        stopping := g.stopping h hh
        ending := g.ending h hh
        source := fun _ => g.source h hh
        lane := g.lane h hh }
      bound := g.bound
      idle := g.idle
      zone := fun z hz h n => ⟨c.handles z hz h n, c.usable z hz h n⟩ }

/-! ### What an operation leaves -/

/-- An engine as the law of the engines sees it unchanged. -/
structure SameBinding (a b : Engine) : Prop where
  handle : b.handle = a.handle
  idle : b.state = .idle ↔ a.state = .idle
  stopping : b.state = .stopping ↔ a.state = .stopping

theorem SameBinding.refl (a : Engine) : SameBinding a a := ⟨rfl, .rfl, .rfl⟩

/-- A record as the laws of claims and engines see it unchanged. -/
structure SameHold (a b : Request) : Prop where
  granted : b.granted = a.granted
  requested : b.requested = a.requested
  engine : b.engine = a.engine
  current : b.current = a.current
  live : b.live = a.live
  waits : b.state = .waiting ∨ b.state = .free ↔ a.state = .waiting ∨ a.state = .free
  runs : b.state = .granted ∨ b.state = .active ↔ a.state = .granted ∨ a.state = .active
  ends : b.state = .ending ↔ a.state = .ending
  outcome : a.ending ≠ .none → b.ending ≠ .none

theorem SameHold.refl (a : Request) : SameHold a a := ⟨rfl, rfl, rfl, rfl, rfl, .rfl, .rfl, .rfl, id⟩

/-- The law of a request reads its record, the zones that it is named in, and its own engine. -/
theorem OwnLaw.of_same (o : OwnLaw x s h) (hx : y = some h ↔ x = some h) (hr : SameHold (request s h) (request t h))
    (hc : ∀ z, z < 48 → (claimHandle (claim t z) = some h ↔ claimHandle (claim s z) = some h))
    (he : ∀ e, e < 6 → (tget s.engines e).handle = some h → SameBinding (tget s.engines e) (tget t.engines e)) :
    OwnLaw y t h where
  named z hz := by rw [hc z hz, o.named z hz, hr.granted, Ne, Ne, hx]
  within z hz := by rw [hr.granted, hr.requested]; exact o.within z hz
  unheld w := hr.granted.trans (o.unheld (hr.waits.mp w))
  owned e g := by
    obtain ⟨lt, own⟩ := o.owned e (hr.engine ▸ g)
    exact ⟨lt, (he e lt own).handle.trans own⟩
  held e g := by
    have := o.held e (hr.engine ▸ g)
    rw [← or_assoc] at this ⊢
    rw [hr.runs, hr.ends]
    exact this
  stopping e g := by
    obtain ⟨lt, own⟩ := o.owned e (hr.engine ▸ g)
    rw [(he e lt own).stopping, hr.ends]
    exact o.stopping e (hr.engine ▸ g)
  ending g := by
    rw [hr.engine]
    exact (o.ending (hr.ends.mp g)).imp id hr.outcome
  source n g := by
    rw [hr.engine, hr.current]
    exact o.source (mt hx.mpr n) (hr.runs.mp g)
  lane n := hr.current.trans (o.lane (hr.live ▸ n))

/-- What an operation about request `h` leaves of the others: their records, zones and engines. -/
structure Alters (h : Nat) (s t : State) : Prop where
  request : ∀ k, k ≠ h → request t k = request s k
  claims : ∀ z, z < 48 → ∀ k, k ≠ h → (claimHandle (claim t z) = some k ↔ claimHandle (claim s z) = some k)
  engines : ∀ e, e < 6 → SameBinding (tget s.engines e) (tget t.engines e) ∨
    (((tget s.engines e).handle = some h ∨ (tget s.engines e).handle = none) ∧
      ((tget t.engines e).handle = some h ∧ (tget t.engines e).state ≠ .idle ∨
        (tget t.engines e).handle = none ∧ (tget t.engines e).state = .idle))
  lines : ∀ z, z < 48 → usableLine (lineOf s z) = true → usableLine (lineOf t z) = true

namespace HoldersAgree

theorem lt_of_engine {e : Nat} (g : (request s h).engine = some e) : h < 96 := by
  by_contra hh
  rw [request_of_le (not_lt.mp hh)] at g
  cases g

/-- An operation about one request keeps the laws, when that request meets them afterwards. -/
theorem alter (a : HoldersAgree x s) (c : Alters h s t) (hx : ∀ k, k ≠ h → (y = some k ↔ x = some k))
    (own : h < 96 → OwnLaw y t h)
    (bound : ∀ e, e < 6 → (tget t.engines e).handle = some h → h < 96 ∧ (request t h).engine = some e)
    (zone : ∀ z, z < 48 → claimHandle (claim t z) = some h → h < 96 ∧ usableLine (lineOf t z) = true) :
    HoldersAgree y t where
  own k hk := by
    by_cases e : k = h
    · exact e ▸ own (e ▸ hk)
    · refine (a.own k hk).of_same (hx k e) (c.request k e ▸ .refl _) (fun z hz => c.claims z hz k e) fun g hg mine => ?_
      obtain same | ⟨other | none, -⟩ := c.engines g hg
      · exact same
      · rw [other] at mine; exact absurd (Option.some.inj mine).symm e
      · rw [none] at mine; cases mine
  bound g hg k mine := by
    by_cases e : k = h
    · exact e ▸ bound g hg (e ▸ mine)
    · rw [c.request k e]
      obtain same | ⟨-, ⟨other, -⟩ | ⟨none, -⟩⟩ := c.engines g hg
      · exact a.bound g hg k (same.handle ▸ mine)
      · rw [other] at mine; exact absurd (Option.some.inj mine).symm e
      · rw [none] at mine; cases mine
  idle g hg := by
    obtain same | ⟨-, ⟨other, busy⟩ | ⟨none, free⟩⟩ := c.engines g hg
    · rw [same.handle, same.idle]; exact a.idle g hg
    · rw [other]; exact ⟨fun i => absurd i busy, nofun⟩
    · rw [none, free]; exact ⟨fun _ => rfl, fun _ => rfl⟩
  zone z hz k mine := by
    by_cases e : k = h
    · exact e ▸ zone z hz (e ▸ mine)
    · exact (a.zone z hz k ((c.claims z hz k e).mp mine)).imp id (c.lines z hz)

/-- Where no record, claim or engine changes for the laws, and held zones stay usable. -/
theorem of_same (a : HoldersAgree x s) (hr : ∀ k, SameHold (request s k) (request t k))
    (hc : ∀ z, z < 48 → claimHandle (claim t z) = claimHandle (claim s z))
    (he : ∀ e, e < 6 → SameBinding (tget s.engines e) (tget t.engines e))
    (hl : ∀ z, z < 48 → claimHandle (claim s z) ≠ none → usableLine (lineOf s z) = true → usableLine (lineOf t z) = true) :
    HoldersAgree x t where
  own k hk := (a.own k hk).of_same .rfl (hr k) (fun z hz => by rw [hc z hz]) fun e lt _ => he e lt
  bound e lt k mine := by
    rw [(hr k).engine]
    exact a.bound e lt k ((he e lt).handle ▸ mine)
  idle e lt := by rw [(he e lt).handle, (he e lt).idle]; exact a.idle e lt
  zone z hz k mine := by
    rw [hc z hz] at mine
    exact (a.zone z hz k mine).imp id (hl z hz (by rw [mine]; nofun))

/-- Where arbiter, engines and line states stand. -/
theorem untouched (a : HoldersAgree x s) (hz : t.zar = s.zar) (he : t.engines = s.engines) (hl : t.zlc = s.zlc) :
    HoldersAgree x t :=
  a.of_same (fun k => request_of_zar hz k ▸ .refl _) (fun z _ => by rw [claim_of_zar hz])
    (fun e _ => he ▸ .refl _) fun z _ _ c => by rw [lineOf, hl]; exact c

/-- Where one record is written, and nothing of what the laws read. -/
theorem setRequest (a : HoldersAgree x s) {r : Request} (same : SameHold (request s h) r) :
    HoldersAgree x (Machine.setRequest h r s) :=
  a.of_same (fun k => by
    rw [request_setRequest]
    split
    · next e => exact e.1 ▸ same
    · exact .refl _) (fun _ _ => rfl) (fun _ _ => .refl _) fun _ _ _ c => c

/-- Where one engine goes on, bound as it was. -/
theorem setEngine (a : HoldersAgree x s) {e : Nat} {g : Engine} (same : e < 6 → SameBinding (tget s.engines e) g) :
    HoldersAgree x (Machine.setEngine e g s) :=
  a.of_same (fun _ => .refl _) (fun _ _ => rfl) (fun k _ => by
    change SameBinding _ (tget (tset s.engines e g) k)
    rw [tget_tset]
    split
    · next c => exact c.1 ▸ same c.2
    · exact .refl _) fun _ _ _ c => c

/-! ### Ends and entries to ENDING (R84, R106) -/

/-- The engine of a request is released: it is free, and the others are bound as they were. -/
theorem engines_released (a : HoldersAgree x s)
    (he : ∀ e, e < 6 → tget t.engines e =
      if (request s h).engine = some e ∧ e < 6 then idled (tget s.engines e) else tget s.engines e) (e : Nat) (lt : e < 6) :
    SameBinding (tget s.engines e) (tget t.engines e) ∨
      (((tget s.engines e).handle = some h ∨ (tget s.engines e).handle = none) ∧
        ((tget t.engines e).handle = some h ∧ (tget t.engines e).state ≠ .idle ∨
          (tget t.engines e).handle = none ∧ (tget t.engines e).state = .idle)) := by
  rw [he e lt]
  by_cases own : (request s h).engine = some e ∧ e < 6
  · rw [if_pos own]
    exact .inr ⟨.inl ((a.own h (lt_of_engine own.1)).owned e own.1).2, .inr ⟨rfl, rfl⟩⟩
  · rw [if_neg own]
    exact .inl (.refl _)

theorem not_bound_of_released (a : HoldersAgree x s)
    (he : ∀ e, e < 6 → tget t.engines e =
      if (request s h).engine = some e ∧ e < 6 then idled (tget s.engines e) else tget s.engines e) (e : Nat) (lt : e < 6) :
    (tget t.engines e).handle ≠ some h := fun mine => by
  rw [he e lt] at mine
  by_cases own : (request s h).engine = some e ∧ e < 6
  · rw [if_pos own] at mine; cases mine
  · rw [if_neg own] at mine
    exact own ⟨(a.bound e lt h mine).2, lt⟩

/-- The claims of a request are emptied: no zone names it, and the others hold theirs. -/
theorem claims_emptied (hc : ∀ z, claim t z = if claimHandle (claim s z) = some h then .empty else claim s z) (z k : Nat) :
    claimHandle (claim t z) = some k ↔ k ≠ h ∧ claimHandle (claim s z) = some k := by
  rw [hc]
  by_cases own : claimHandle (claim s z) = some h
  · rw [if_pos own, own]
    exact ⟨nofun, fun c => absurd (Option.some.inj c.2).symm c.1⟩
  · rw [if_neg own]
    exact ⟨fun c => ⟨fun e => own (e ▸ c), c⟩, fun c => c.2⟩

/-- An end leaves its request FREE, without zones and engine. -/
theorem endRequest (a : HoldersAgree x s) (h : Nat) (c : EndCause) : HoldersAgree x (Machine.endRequest h c s) := by
  have emptied := claims_emptied (claim_endRequest h c s)
  have frame := ActFrame.endRequest h c s
  have released := a.not_bound_of_released fun e _ => engine_endRequest h c s e
  refine a.alter (h := h) ⟨fun k hk => ?_, fun z _ k hk => ?_, a.engines_released fun e _ => engine_endRequest h c s e,
    fun z _ u => by rw [lineOf, frame.zlc]; exact u⟩ (fun _ _ => .rfl) (fun hh => ?_)
    (fun e lt mine => absurd mine (released e lt)) fun z _ mine => absurd rfl ((emptied z h).mp mine).1
  · rw [request_endRequest, if_neg fun e => hk e.1.symm]
  · rw [emptied]
    exact ⟨fun c => c.2, fun c => ⟨hk, c⟩⟩
  · have free : request (Machine.endRequest h c s) h = freeRequest := by rw [request_endRequest, if_pos ⟨rfl, hh⟩]
    exact {
      named := fun z _ => by
        rw [emptied, free]
        exact ⟨fun c => absurd rfl c.1, fun c => absurd c.2 (by rw [show freeRequest.granted = 0 from rfl, zmem_zero]; nofun)⟩
      within := fun z _ m => by rw [free, show freeRequest.granted = 0 from rfl, zmem_zero] at m; cases m
      unheld := fun _ => by rw [free]; rfl
      owned := by rw [free]; nofun
      held := by rw [free]; nofun
      stopping := by rw [free]; nofun
      ending := by rw [free]; nofun
      source := by rw [free]; nofun
      lane := by rw [free]; exact fun _ => rfl }

/-- A holder with an engine enters ENDING, and its engine STOPPING. -/
theorem enterEnding (a : HoldersAgree x s) (hx : x ≠ some h) {o : EndingOutcome}
    (held : (request s h).state = .granted ∨ (request s h).state = .active)
    (plays : (request s h).live = false ∨ (request s h).current = .engine) (out : o ≠ .none) :
    HoldersAgree x (Machine.enterEnding h o s) := by
  have hh : h < 96 := lt_of_state (by obtain e | e := held <;> rw [e] <;> nofun)
  have own := a.own h hh
  have engine : (request s h).engine ≠ none := fun none => by
    have lane := (own.source hx held).mp none
    have : (request s h).current = .engine := plays.elim own.lane id
    rw [lane] at this; cases this
  have written : request (Machine.enterEnding h o s) h = ending (request s h) o := by
    rw [request_enterEnding, if_pos ⟨rfl, hh⟩]
  have stops : ∀ e, e < 6 → (request s h).engine = some e →
      tget (Machine.enterEnding h o s).engines e = stopped (tget s.engines e) := fun e lt g => by
    rw [engine_enterEnding, if_pos ⟨g, lt⟩]
  have frame := ActFrame.enterEnding h o s
  refine a.alter (h := h) ⟨fun k hk => ?_, fun z _ k _ => by rw [claim_enterEnding], fun e lt => ?_,
    fun z _ u => by rw [lineOf, frame.zlc]; exact u⟩ (fun _ _ => .rfl) (fun _ => ?_) (fun e lt mine => ⟨hh, ?_⟩)
    fun z lt mine => ?_
  · rw [request_enterEnding, if_neg fun e => hk e.1.symm]
  · by_cases g : (request s h).engine = some e
    · have mine := (own.owned e g).2
      rw [stops e lt g]
      exact .inr ⟨.inl mine, .inl ⟨mine, nofun⟩⟩
    · rw [engine_enterEnding, if_neg fun c => g c.1]
      exact .inl (.refl _)
  · exact {
      named := fun z lt => by rw [claim_enterEnding, written]; exact own.named z lt
      within := fun z lt => by rw [written]; exact own.within z lt
      unheld := by rw [written]; rintro (w | w) <;> cases w
      owned := fun e g => by
        rw [written] at g
        obtain ⟨lt, mine⟩ := own.owned e g
        rw [stops e lt g]
        exact ⟨lt, mine⟩
      held := fun e g => by rw [written]; exact .inr (.inr rfl)
      stopping := fun e g => by
        rw [written] at g ⊢
        rw [stops e (own.owned e g).1 g]
        exact ⟨fun _ => rfl, fun _ => rfl⟩
      ending := fun _ => by rw [written]; exact ⟨engine, out⟩
      source := fun _ c => by rw [written] at c; rcases c with c | c <;> cases c
      lane := by rw [written]; exact own.lane }
  · rw [written]
    by_cases g : (request s h).engine = some e
    · exact g
    · rw [engine_enterEnding, if_neg fun c => g c.1] at mine
      exact (a.bound e lt h mine).2
  · rw [claim_enterEnding] at mine
    obtain ⟨_, usable⟩ := a.zone z lt h mine
    exact ⟨hh, by rw [lineOf, frame.zlc]; exact usable⟩

/-! ### Joins and the exit from PREROLL (R79, R99) -/

/-- A join leaves every zone with its holder, and a GRANTED request ACTIVE at most. -/
theorem joinLive (a : HoldersAgree x s) (h : Nat) : HoldersAgree x (Machine.joinLive h s) := by
  have frame := ActFrame.joinLive h s
  refine a.of_same (fun k => ?_) (fun z _ => claimHandle_joinLive h s z) (fun e _ => by rw [engines_joinLive]; exact .refl _)
    fun z _ _ u => by rw [lineOf, frame.zlc]; exact u
  rw [request_joinLive]
  split
  · next first =>
    obtain ⟨⟨rfl, -⟩, -, granted⟩ := first
    refine ⟨rfl, rfl, rfl, rfl, rfl, ?_, ?_, ?_, id⟩ <;> rw [granted] <;> simp [started]
  · exact .refl _

theorem joinLane (a : HoldersAgree x s) (h : Nat) : HoldersAgree x (Machine.joinLane h s) := by
  obtain e | e := joinLane_cases h s <;> rw [e]
  · exact a.joinLive h
  · exact a

theorem leavePreroll (a : HoldersAgree x s) (e : Nat) : HoldersAgree x (Machine.leavePreroll e s) := by
  obtain done | ⟨h, preroll, -, ⟨c, -, done⟩ | ⟨-, done⟩⟩ := leavePreroll_cases e s <;> rw [done]
  · exact a
  · exact a.endRequest ..
  · have begins : SameBinding (tget s.engines e) (begun (tget s.engines e)) :=
      ⟨rfl, by rw [preroll]; exact ⟨nofun, nofun⟩, by rw [preroll]; exact ⟨nofun, nofun⟩⟩
    exact (a.setEngine fun _ => begins).joinLive h

/-! ### The loss of zones (R82, R83) -/

theorem zlc_shrink (h : Nat) (zs : ZoneSet) (cause : RemovalCause) (taker : Option Nat) (s : State) :
    (Machine.shrink h zs cause taker s).zlc = s.zlc := by
  rw [Machine.shrink, pushEvent_spec]
  exact (ActFrame.unwait ..).zlc

/-- The holder of zones loses them: they are free, and its granted set is what is left. -/
theorem shrink (a : HoldersAgree x s) {zs : ZoneSet}
    (mine : ∀ z, z < 48 → zmem zs z = true → claimHandle (claim s z) = some h ∨ claimHandle (claim s z) = none)
    (cause : RemovalCause) (taker : Option Nat) : HoldersAgree x (Machine.shrink h zs cause taker s) := by
  have claims : ∀ z, z < 48 → ∀ k, (claimHandle (claim (Machine.shrink h zs cause taker s) z) = some k ↔
      zmem zs z = false ∧ claimHandle (claim s z) = some k) := fun z lt k => by
    rw [claim_shrink]
    by_cases m : zmem zs z = true
    · rw [if_pos m, m]; exact ⟨nofun, nofun⟩
    · rw [if_neg m, Bool.not_eq_true _ |>.mp m]; exact ⟨fun c => ⟨rfl, c⟩, fun c => c.2⟩
  have same : ∀ e, e < 6 → SameBinding (tget s.engines e) (tget (Machine.shrink h zs cause taker s).engines e) :=
    fun e lt => by
      rw [engine_shrink]
      split
      · exact ⟨rfl, .rfl, .rfl⟩
      · exact .refl _
  have frame := zlc_shrink h zs cause taker s
  refine a.alter (h := h) ⟨fun k hk => ?_, fun z lt k hk => ?_, fun e lt => .inl (same e lt),
    fun z _ u => by rw [lineOf, frame]; exact u⟩ (fun _ _ => .rfl) (fun hh => ?_) (fun e lt b => ?_) fun z lt m => ?_
  · rw [request_shrink, if_neg fun e => hk e.1.symm]
  · rw [claims z lt]
    refine ⟨fun c => c.2, fun c => ⟨Bool.eq_false_iff.mpr fun m => ?_, c⟩⟩
    obtain own | none := mine z lt m
    · rw [own] at c; exact hk (Option.some.inj c).symm
    · rw [none] at c; cases c
  · have own := a.own h hh
    have written : request (Machine.shrink h zs cause taker s) h =
        less (request s h) zs := by rw [request_shrink, if_pos ⟨rfl, hh⟩]
    have less : ∀ z, z < 48 → (zmem (request (Machine.shrink h zs cause taker s) h).granted z = true ↔
        zmem zs z = false ∧ zmem (request s h).granted z = true) := fun z lt => by
      rw [written]
      change zmem (zdiff (request s h).granted zs) z = true ↔ _
      rw [zmem_zdiff _ _ _ lt, Bool.and_eq_true, Bool.not_eq_true', and_comm]
    exact {
      named := fun z lt => by rw [claims z lt, less z lt, own.named z lt, and_left_comm]
      within := fun z lt m => by
        rw [less z lt] at m
        rw [written]
        exact own.within z lt m.2
      unheld := fun w => zset_eq_zero fun z lt => by
        by_contra m
        have held := ((less z lt).mp (Bool.not_eq_false _ |>.mp m)).2
        rw [written] at w
        rw [own.unheld w, zmem_zero] at held
        cases held
      owned := fun e g => by
        rw [written] at g
        obtain ⟨lt, b⟩ := own.owned e g
        exact ⟨lt, (same e lt).handle.trans b⟩
      held := fun e g => by rw [written] at g ⊢; exact own.held e g
      stopping := fun e g => by
        rw [written] at g ⊢
        rw [(same e (own.owned e g).1).stopping]
        exact own.stopping e g
      ending := by rw [written]; exact own.ending
      source := fun hx c => by rw [written] at c ⊢; exact own.source hx c
      lane := by rw [written]; exact own.lane }
  · rw [(same e lt).handle] at b
    obtain ⟨hh, g⟩ := a.bound e lt h b
    refine ⟨hh, ?_⟩
    rw [request_shrink, if_pos ⟨rfl, hh⟩]
    exact g
  · rw [lineOf, frame]
    exact a.zone z lt h ((claims z lt h).mp m).2

/-- What follows a loss: an emptied holder is displaced, another makes the test of R99. -/
theorem afterShrink (a : HoldersAgree x t) (hx : x ≠ some h) {r : Request} {zs : ZoneSet} (cause : RemovalCause)
    (hr : request t h = less r zs) :
    HoldersAgree x (if zdiff r.granted zs = 0 ∧ (r.state = .granted ∨ r.state = .active) then displace h cause t
      else testEngine r.engine t) := by
  split
  · next emptied =>
    obtain ⟨playout, o, out, e⟩ | ⟨c, e⟩ := displace_cases h cause t <;> rw [e]
    · exact a.enterEnding hx (by rw [hr]; exact emptied.2) (.inl playout) out
    · exact a.endRequest h c
  · cases r.engine with
    | none => exact a
    | some e => exact a.leavePreroll e

theorem loseZones (a : HoldersAgree x s) (hx : x ≠ some h) (hh : h < 96) {zs : ZoneSet}
    (mine : ∀ z, z < 48 → zmem zs z = true → claimHandle (claim s z) = some h ∨ claimHandle (claim s z) = none)
    (cause : RemovalCause) (taker : Option Nat) : HoldersAgree x (Machine.loseZones h zs cause taker s) := by
  rw [loseZones_eq]
  exact (a.shrink mine cause taker).afterShrink hx cause (by rw [request_shrink, if_pos ⟨rfl, hh⟩])

theorem unwait_setZlc (o : Option Nat) (zs : ZoneSet) (s : State) (l : Vector ZoneLine 48) :
    unwait o zs (s.setZlc l) = (unwait o zs s).setZlc l := by
  cases o with
  | none => rfl
  | some e => exact (apply_ite (fun u => State.setZlc u l) ((tget s.engines e).state = .preroll)
      (Machine.setEngine e { tget s.engines e with waitSet := zdiff (tget s.engines e).waitSet zs } s) s).symm

theorem pushEvent_setZlc (kind cause : Byte) (n : Nat) (d : List Field) (s : State) (l : Vector ZoneLine 48) :
    pushEvent kind cause n d (s.setZlc l) = (pushEvent kind cause n d s).setZlc l := by
  rw [pushEvent_spec, pushEvent_spec]; rfl

/-- What a loss writes does not depend on the zone table. -/
theorem shrink_modLine (h z : Nat) (zs : ZoneSet) (cause : RemovalCause) (taker : Option Nat) (f : ZoneLine → ZoneLine)
    (s : State) : Machine.shrink h zs cause taker (modLine z f s) = modLine z f (Machine.shrink h zs cause taker s) := by
  have before : modLine z f s = s.setZlc (tmod s.zlc z f) := rfl
  have after : modLine z f (Machine.shrink h zs cause taker s) =
      (Machine.shrink h zs cause taker s).setZlc (tmod s.zlc z f) := by
    rw [← zlc_shrink h zs cause taker s]; rfl
  have lost : shrunk h zs (s.setZlc (tmod s.zlc z f)) = (shrunk h zs s).setZlc (tmod s.zlc z f) :=
    unwait_setZlc (request s h).engine zs (Machine.setRequest h (less (request s h) zs) (writeClaims zs .empty s)) _
  rw [after, before, Machine.shrink, Machine.shrink, lost, pushEvent_setZlc]
  rfl

/-- A zone that nobody holds may change its line. -/
theorem modLine (a : HoldersAgree x s) {z : Nat} (free : claimHandle (claim s z) = none) (f : ZoneLine → ZoneLine) :
    HoldersAgree x (Machine.modLine z f s) :=
  a.of_same (fun _ => .refl _) (fun _ _ => rfl) (fun _ _ => .refl _) fun y _ held c => by
    have other : z ≠ y := fun e => held (e ▸ free)
    change usableLine (tget (tmod s.zlc z f) y).line = true
    rw [tget_tmod, if_neg fun e => other e.1]
    exact c

/-- A zone that leaves service leaves its holder too. -/
theorem vacate (a : HoldersAgree none s) {z : Nat} (lt : z < 48) (f : ZoneLine → ZoneLine) (cause : RemovalCause) :
    HoldersAgree none (Machine.vacate z cause (Machine.modLine z f s)) := by
  have same : claim (Machine.modLine z f s) z = claim s z := rfl
  unfold Machine.vacate
  rw [same]
  split
  · next free => exact a.modLine free f
  · next h held =>
    have hh := (a.zone z lt h held).1
    have shrunk : HoldersAgree none (Machine.shrink h (zone1 z) cause none s) :=
      a.shrink (fun y hy m => .inl (by
        rw [zmem_zone1 z y hy, decide_eq_true_eq] at m
        exact m ▸ held)) cause none
    have free : claimHandle (claim (Machine.shrink h (zone1 z) cause none s) z) = none := by
      rw [claim_shrink, if_pos (by rw [zmem_zone1 z z lt, decide_eq_true_eq])]; rfl
    rw [loseZones_eq, shrink_modLine]
    refine (shrunk.modLine free f).afterShrink nofun cause ?_
    change request (Machine.shrink h (zone1 z) cause none s) h = _
    rw [request_shrink, if_pos ⟨rfl, hh⟩]
    rfl

end HoldersAgree
end Sys2Proof.Machine
end

section
/-! Grants, late joins, admissions and returns keep the laws of claims and engines; so does every row (R70, R76, R95, R106). -/

namespace Sys2Proof.Machine
set_option Elab.async false

variable {s t u : State} {x : Option Nat} {h : Nat}

/-! ### What a grant takes from the holders (R76, R82) -/

/-- What the taking of zones from others leaves for request `h`: its record, zones that nobody comes to hold by it, and idle engines. -/
structure Taken (h : Nat) (s t : State) : Prop where
  own : request t h = request s h
  claims : ∀ z, claimHandle (claim t z) = claimHandle (claim s z) ∨ claimHandle (claim t z) = none
  idle : ∀ e, e < 6 → (tget s.engines e).state = .idle → (tget t.engines e).state = .idle

namespace Taken

theorem refl (h : Nat) (s : State) : Taken h s s := ⟨rfl, fun _ => .inl rfl, fun _ _ i => i⟩

theorem trans (a : Taken h s t) (b : Taken h t u) : Taken h s u where
  own := b.own.trans a.own
  claims z := by
    obtain e | e := b.claims z
    · rw [e]; exact a.claims z
    · exact .inr e
  idle e lt i := b.idle e lt (a.idle e lt i)

theorem free (a : Taken h s t) {z : Nat} (none : claimHandle (claim s z) = none) : claimHandle (claim t z) = Option.none :=
  (a.claims z).elim (·.trans none) id

variable {k : Nat}

theorem endRequest (other : h ≠ k) (c : EndCause) (s : State) : Taken h s (Machine.endRequest k c s) where
  own := by rw [request_endRequest, if_neg fun e => other e.1.symm]
  claims z := by
    rw [claim_endRequest]
    split
    · exact .inr rfl
    · exact .inl rfl
  idle e lt i := by
    rw [engine_endRequest]
    split
    · rfl
    · exact i

theorem enterEnding (a : HoldersAgree x s) (other : h ≠ k) (hk : k < 96) (o : EndingOutcome) :
    Taken h s (Machine.enterEnding k o s) where
  own := by rw [request_enterEnding, if_neg fun e => other e.1.symm]
  claims z := .inl (by rw [claim_enterEnding])
  idle e lt i := by
    rw [engine_enterEnding]
    split
    · next own =>
      have bound := ((a.own k hk).owned e own.1).2
      rw [(a.idle e lt).mp i] at bound
      cases bound
    · exact i

theorem joinLive (other : h ≠ k) (s : State) : Taken h s (Machine.joinLive k s) where
  own := by rw [request_joinLive, if_neg fun e => other e.1.1.symm]
  claims z := .inl (claimHandle_joinLive k s z)
  idle e _ i := by rw [engines_joinLive]; exact i

theorem leavePreroll {e : Nat} (other : ∀ k, (tget s.engines e).handle = some k → h ≠ k) :
    Taken h s (Machine.leavePreroll e s) := by
  obtain done | ⟨k, preroll, own, ⟨c, -, done⟩ | ⟨-, done⟩⟩ := leavePreroll_cases e s <;> rw [done]
  · exact refl h s
  · exact endRequest (other k own) c s
  · have begins : Taken h s (Machine.setEngine e (begun (tget s.engines e)) s) := {
      own := rfl
      claims := fun _ => .inl rfl
      idle := fun g lt i => by
        have ne : e ≠ g := fun eq => by rw [← eq, preroll] at i; cases i
        change (tget (tset s.engines e _) g).state = _
        rw [tget_tset_of_ne _ _ ne]
        exact i }
    exact begins.trans (joinLive (other k own) _)

/-- A loss of zones: those it names are free afterwards. -/
theorem loseZones (a : HoldersAgree x s) (other : h ≠ k) (hk : k < 96) {zs : ZoneSet}
    (mine : ∀ z, z < 48 → zmem zs z = true → claimHandle (claim s z) = some k ∨ claimHandle (claim s z) = none)
    (cause : RemovalCause) (taker : Option Nat) : Taken h s (Machine.loseZones k zs cause taker s) ∧
      ∀ z, zmem zs z = true → claimHandle (claim (Machine.loseZones k zs cause taker s) z) = none := by
  have shrinks := a.shrink mine cause taker
  have written : request (shrink k zs cause taker s) k = less (request s k) zs := by rw [request_shrink, if_pos ⟨rfl, hk⟩]
  have lost : Taken h s (shrink k zs cause taker s) := {
    own := by rw [request_shrink, if_neg fun e => other e.1.symm]
    claims := fun z => by
      rw [claim_shrink]
      split
      · exact .inr rfl
      · exact .inl rfl
    idle := fun e lt i => by
      rw [engine_shrink]
      split
      · exact i
      · exact i }
  have after : Taken h (shrink k zs cause taker s) (Machine.loseZones k zs cause taker s) := by
    rw [loseZones_eq]
    split
    · obtain ⟨-, o, -, e⟩ | ⟨c, e⟩ := displace_cases k cause (shrink k zs cause taker s) <;> rw [e]
      · exact enterEnding shrinks other hk o
      · exact endRequest other c _
    · cases engine : (request s k).engine with
      | none => exact refl ..
      | some e =>
        have bound := ((shrinks.own k hk).owned e (by rw [written]; exact engine)).2
        refine leavePreroll fun j own => ?_
        rw [bound] at own
        exact Option.some.inj own ▸ other
  refine ⟨lost.trans after, fun z m => after.free ?_⟩
  rw [claim_shrink, if_pos m]
  rfl

end Taken

/-- The holders of a list lose zones to a grant, one after the other. -/
theorem foldl_loseZones : ∀ (l : List (Nat × ZoneSet)) (s : State), HoldersAgree (some h) s →
    (∀ p ∈ l, h ≠ p.1 ∧ p.1 < 96 ∧ ∀ z, z < 48 → zmem p.2 z = true →
      claimHandle (claim s z) = some p.1 ∨ claimHandle (claim s z) = none) →
    HoldersAgree (some h) (l.foldl (fun s k => loseZones k.1 k.2 .preemption (some h) s) s) ∧
      Taken h s (l.foldl (fun s k => loseZones k.1 k.2 .preemption (some h) s) s) ∧
      ∀ p ∈ l, ∀ z, zmem p.2 z = true →
        claimHandle (claim (l.foldl (fun s k => loseZones k.1 k.2 .preemption (some h) s) s) z) = none
  | [], s, a, _ => ⟨a, .refl h s, nofun⟩
  | p :: l, s, a, mine => by
    obtain ⟨other, lt, own⟩ := mine p (.head _)
    have hx : some h ≠ some p.1 := fun e => other (Option.some.inj e)
    obtain ⟨lost, freed⟩ := Taken.loseZones a other lt own .preemption (some h)
    obtain ⟨b, rest, empty⟩ := foldl_loseZones l _ (a.loseZones hx lt own .preemption (some h)) fun q hq => by
      obtain ⟨other, lt, own⟩ := mine q (.tail _ hq)
      refine ⟨other, lt, fun z hz m => ?_⟩
      obtain same | none := lost.claims z
      · rw [same]; exact own z hz m
      · exact .inr none
    refine ⟨b, lost.trans rest, fun q hq z m => ?_⟩
    obtain rfl | hq := List.mem_cons.mp hq
    · exact rest.free (freed z m)
    · exact empty q hq z m

theorem mem_holdersOf (s : State) (zs : ZoneSet) (p : Nat × ZoneSet) :
    p ∈ holdersOf s zs ↔ p.1 < 96 ∧ p.2 = zs &&& claimedZones s p.1 ∧ zs &&& claimedZones s p.1 ≠ 0 := by
  unfold holdersOf
  rw [List.mem_filterMap]
  constructor
  · rintro ⟨k, hk, e⟩
    dsimp only at e
    split at e
    · cases e
    · next some =>
      cases e
      exact ⟨List.mem_range.mp hk, rfl, some⟩
  · rintro ⟨lt, e, some⟩
    refine ⟨p.1, List.mem_range.mpr lt, ?_⟩
    dsimp only
    rw [if_neg some, ← e]

theorem zmem_obtainable (r : Request) (z : Nat) : zmem (obtainable s r) z = true ↔
    z < 48 ∧ zmem r.requested z = true ∧ usableLine (lineOf s z) = true ∧ takeable s r z = true := by
  rw [obtainable, zmem_zwhere, Bool.and_eq_true, Bool.and_eq_true, Bool.and_eq_true, decide_eq_true_eq, and_assoc]

theorem zmem_lateZones (r : Request) (z : Nat) : zmem (lateZones s r) z = true ↔
    z < 48 ∧ zmem r.requested z = true ∧ usableLine (lineOf s z) = true ∧ claim s z = .empty := by
  rw [lateZones, zmem_zwhere, Bool.and_eq_true, Bool.and_eq_true, Bool.and_eq_true, decide_eq_true_eq, beq_iff_eq, and_assoc]

/-- The lowest-numbered engine that is found is idle, and the lower ones are not (R76). -/
theorem idleEngine?_spec {e : Nat} (i : idleEngine? s = some e) : e < 6 ∧ (tget s.engines e).state = .idle := by
  have idle := List.find?_some i
  exact ⟨List.mem_range.mp (List.mem_of_find?_eq_some i), beq_iff_eq.mp idle⟩

theorem idleEngine?_isSome {e : Nat} (lt : e < 6) (i : (tget s.engines e).state = .idle) : (idleEngine? s).isSome = true := by
  rw [idleEngine?, List.find?_isSome]
  exact ⟨e, List.mem_range.mpr lt, beq_iff_eq.mpr i⟩

theorem zlc_takeZones (h : Nat) (zs : ZoneSet) (s : State) : (takeZones h zs s).zlc = s.zlc := by
  have frame : ActFrame s (takeZones h zs s) :=
    ActFrame.foldl (fun s (k : Nat × ZoneSet) => ActFrame.loseZones k.1 k.2 .preemption (some h) s) (holdersOf s zs) s
  exact frame.zlc

namespace HoldersAgree

/-- A grant before its zones are taken: the request is GRANTED, and named nowhere yet. -/
theorem granting (a : HoldersAgree none s) (waits : (request s h).state = .waiting) {zs : ZoneSet} {bind : Bool}
    (within : ∀ z, z < 48 → zmem zs z = true → zmem (request s h).requested z = true) :
    HoldersAgree (some h) (Machine.granting h zs bind s) := by
  have hh : h < 96 := lt_of_state (by rw [waits]; nofun)
  have own := a.own h hh
  have nowhere : ∀ z, z < 48 → claimHandle (claim s z) ≠ some h := fun z lt c => by
    have held := ((own.named z lt).mp c).2
    rw [own.unheld (.inl waits), zmem_zero] at held
    cases held
  have unbound : ∀ e, (request s h).engine ≠ some e := fun e g => by
    have := own.held e g
    rw [waits] at this
    obtain c | c | c := this <;> cases c
  have written : request (Machine.granting h zs bind s) h = grantedRecord (request s h) zs bind := by
    rw [request_granting, if_pos ⟨rfl, hh⟩]
  refine a.alter (h := h) ⟨fun k hk => ?_, fun _ _ _ _ => .rfl, fun _ _ => .inl (.refl _), fun _ _ c => c⟩
    (fun k hk => ⟨fun e => absurd (Option.some.inj e).symm hk, nofun⟩) (fun _ => ?_)
    (fun e lt mine => absurd (a.bound e lt h mine).2 (unbound e)) fun z lt mine => absurd mine (nowhere z lt)
  · rw [request_granting, if_neg fun e => hk e.1.symm]
  · exact {
      named := fun z lt => ⟨fun c => absurd c (nowhere z lt), fun c => absurd rfl c.1⟩
      within := by rw [written]; exact within
      unheld := by rw [written]; rintro (c | c) <;> cases c
      owned := fun e g => absurd (by rw [written] at g; exact g) (unbound e)
      held := fun e g => absurd (by rw [written] at g; exact g) (unbound e)
      stopping := fun e g => absurd (by rw [written] at g; exact g) (unbound e)
      ending := by rw [written]; nofun
      source := fun c => absurd rfl c
      lane := fun playout => by
        rw [written] at playout ⊢
        change (request s h).live = false at playout
        change (if ((request s h).live && (request s h).current == .engine && !bind) = true then CurrentSource.lane
          else (request s h).current) = .engine
        rw [playout]
        exact own.lane playout }

/-- The end of a grant: its zones become its own, with an engine that was idle where it is to have one. -/
theorem granted (a : HoldersAgree (some h) s) (hh : h < 96) {r : Request} {zs : ZoneSet} (own : request t h = r)
    (others : ∀ k, k ≠ h → request t k = request s k) (state : r.state = .granted) (gets : r.granted = zs)
    (within : ∀ z, z < 48 → zmem zs z = true → zmem r.requested z = true)
    (source : r.engine = none ↔ r.current = .lane) (lane : r.live = false → r.current = .engine)
    (claims : ∀ z, claim t z = if zmem zs z = true then .pendingJoin h else claim s z)
    (free : ∀ z, zmem zs z = true → claimHandle (claim s z) = none)
    (usable : ∀ z, zmem zs z = true → usableLine (lineOf s z) = true) (lines : t.zlc = s.zlc)
    (unbound : (request s h).engine = none)
    (bound : ∀ e, r.engine = some e → e < 6 ∧ (tget s.engines e).state = .idle ∧ (tget t.engines e).handle = some h ∧
      (tget t.engines e).state = .preroll)
    (rest : ∀ e, e < 6 → r.engine ≠ some e → tget t.engines e = tget s.engines e) : HoldersAgree none t := by
  have nowhere : ∀ z, z < 48 → claimHandle (claim s z) ≠ some h := fun z lt c =>
    absurd rfl (((a.own h hh).named z lt).mp c).1
  have named : ∀ z, z < 48 → (claimHandle (claim t z) = some h ↔ zmem zs z = true) := fun z lt => by
    rw [claims]
    by_cases m : zmem zs z = true
    · rw [if_pos m]; exact ⟨fun _ => m, fun _ => rfl⟩
    · rw [if_neg m]; exact ⟨fun c => absurd c (nowhere z lt), fun c => absurd c m⟩
  refine a.alter (h := h) ⟨others, fun z lt k hk => ?_, fun e lt => ?_, fun z _ c => by rw [lineOf, lines]; exact c⟩
    (fun k hk => ⟨nofun, fun e => absurd (Option.some.inj e).symm hk⟩) (fun _ => ?_) (fun e lt mine => ⟨hh, ?_⟩)
    fun z lt mine => ⟨hh, ?_⟩
  · rw [claims]
    by_cases m : zmem zs z = true
    · rw [if_pos m, free z m]; exact ⟨fun c => absurd (Option.some.inj c).symm hk, nofun⟩
    · rw [if_neg m]
  · by_cases g : r.engine = some e
    · obtain ⟨-, idle, mine, preroll⟩ := bound e g
      exact .inr ⟨.inr ((a.idle e lt).mp idle), .inl ⟨mine, by rw [preroll]; nofun⟩⟩
    · rw [rest e lt g]; exact .inl (.refl _)
  · exact {
      named := fun z lt => by rw [named z lt, own, gets]; exact ⟨fun m => ⟨nofun, m⟩, fun m => m.2⟩
      within := by rw [own, gets]; exact within
      unheld := by rw [own, state]; rintro (c | c) <;> cases c
      owned := fun e g => by
        rw [own] at g
        exact ⟨(bound e g).1, (bound e g).2.2.1⟩
      held := fun e _ => by rw [own]; exact .inl state
      stopping := fun e g => by
        rw [own] at g ⊢
        rw [(bound e g).2.2.2, state]
        exact ⟨nofun, nofun⟩
      ending := by rw [own, state]; nofun
      source := fun _ _ => by rw [own]; exact source
      lane := by rw [own]; exact lane }
  · rw [own]
    by_contra g
    rw [rest e lt g] at mine
    have := (a.bound e lt h mine).2
    rw [unbound] at this
    cases this
  · rw [lineOf, lines]
    exact usable z ((named z lt).mp mine)

/-- A WAITING request is named nowhere, and has no engine. -/
theorem nowhere_of_waiting (a : HoldersAgree none s) (waits : (request s h).state = .waiting) :
    (∀ z, z < 48 → claimHandle (claim s z) ≠ some h) ∧ (request s h).engine = none := by
  have own := a.own h (lt_of_state (by rw [waits]; nofun))
  refine ⟨fun z lt c => ?_, ?_⟩
  · have held := ((own.named z lt).mp c).2
    rw [own.unheld (.inl waits), zmem_zero] at held
    cases held
  · by_contra some
    obtain ⟨e, g⟩ := Option.ne_none_iff_exists'.mp some
    have := own.held e g
    rw [waits] at this
    obtain c | c | c := this <;> cases c

/-- A grant has taken its zones from their holders: they are free, and its request stands as it began. -/
theorem takeZones (a : HoldersAgree none s) (waits : (request s h).state = .waiting) (bind : Bool) {zs : ZoneSet}
    (gets : zs = obtainable s (request s h)) :
    HoldersAgree (some h) (Machine.takeZones h zs (Machine.granting h zs bind s)) ∧
      Taken h (Machine.granting h zs bind s) (Machine.takeZones h zs (Machine.granting h zs bind s)) ∧
      ∀ z, zmem zs z = true → claimHandle (claim (Machine.takeZones h zs (Machine.granting h zs bind s)) z) = none := by
  have got : ∀ z, zmem zs z = true → z < 48 ∧ zmem (request s h).requested z = true := fun z m => by
    obtain ⟨lt, asked, -⟩ := (zmem_obtainable ..).mp (gets ▸ m)
    exact ⟨lt, asked⟩
  obtain ⟨nowhere, -⟩ := a.nowhere_of_waiting waits
  have mine : ∀ p ∈ holdersOf (Machine.granting h zs bind s) zs, h ≠ p.1 ∧ p.1 < 96 ∧ ∀ z, z < 48 → zmem p.2 z = true →
      claimHandle (claim (Machine.granting h zs bind s) z) = some p.1 ∨
        claimHandle (claim (Machine.granting h zs bind s) z) = none := fun p hp => by
    obtain ⟨lt, e, some⟩ := (mem_holdersOf ..).mp hp
    have holds : ∀ z, zmem p.2 z = true → claimHandle (claim s z) = Option.some p.1 := fun z m => by
      rw [e, zmem_and, Bool.and_eq_true] at m
      exact (zmem_claimedZones_iff p.1 z).mp m.2
    refine ⟨fun eq => some (zset_eq_zero fun z hz => ?_), lt, fun z _ m => .inl (holds z m)⟩
    rw [← e]
    by_contra m
    exact nowhere z hz (eq ▸ holds z (Bool.not_eq_false _ |>.mp m))
  obtain ⟨taken, kept, emptied⟩ := foldl_loseZones _ _ (a.granting waits fun z _ m => (got z m).2) mine
  refine ⟨taken, kept, fun z m => ?_⟩
  cases held : claimHandle (claim s z) with
  | none => exact kept.free held
  | some k =>
    have both : zmem (zs &&& claimedZones s k) z = true := by
      rw [zmem_and, m, (zmem_claimedZones_iff k z).mpr held]; rfl
    refine emptied (k, zs &&& claimedZones s k) ((mem_holdersOf ..).mpr ⟨(a.zone z (got z m).1 k held).1, rfl, ?_⟩) z both
    exact fun none => not_zmem_of_eq_zero none z both

theorem current_grantedRecord (r : Request) (zs : ZoneSet) (bind : Bool) : (grantedRecord r zs bind).current =
    if (r.live && r.current == .engine && !bind) = true then .lane else r.current := rfl

/-- Granted without an engine: the source is LIVE, and its lane is the current source (R112). -/
theorem grantLane (a : HoldersAgree (some h) s) (hh : h < 96) {r : Request} {zs : ZoneSet}
    (own : request s h = grantedRecord r zs false) (live : r.live = true) (unbound : r.engine = none)
    (within : ∀ z, z < 48 → zmem zs z = true → zmem r.requested z = true)
    (free : ∀ z, zmem zs z = true → claimHandle (claim s z) = none)
    (usable : ∀ z, zmem zs z = true → usableLine (lineOf s z) = true) :
    HoldersAgree none (writeClaims zs (.pendingJoin h) s) := by
  have lane : (grantedRecord r zs false).current = .lane := by
    rw [current_grantedRecord, live]
    cases r.current <;> rfl
  refine a.granted hh (r := grantedRecord r zs false) own (fun _ _ => rfl) rfl rfl within ⟨fun _ => lane, fun _ => unbound⟩
    (fun playout => ?_) (claim_writeClaims zs _ s) free usable rfl (by rw [own]; exact unbound) (fun e g => ?_) fun _ _ _ => rfl
  · have : r.live = false := playout
    rw [live] at this; cases this
  · have : r.engine = some e := g
    rw [unbound] at this; cases this

/-- Granted with an idle engine, which plays its source (R97). -/
theorem grantEngine (a : HoldersAgree (some h) s) (hh : h < 96) {r : Request} {zs : ZoneSet} {e : Nat}
    (own : request s h = grantedRecord r zs true) (unbound : r.engine = none) (plays : r.current = .engine)
    (lt : e < 6) (idle : (tget s.engines e).state = .idle)
    (within : ∀ z, z < 48 → zmem zs z = true → zmem r.requested z = true)
    (free : ∀ z, zmem zs z = true → claimHandle (claim s z) = none)
    (usable : ∀ z, zmem zs z = true → usableLine (lineOf s z) = true) :
    HoldersAgree none (Machine.bound h zs e (writeClaims zs (.pendingJoin h) s)) := by
  have binds : tget (Machine.bound h zs e (writeClaims zs (.pendingJoin h) s)).engines e =
      { tget s.engines e with state := .preroll, handle := some h, waitSet := zs, fragment := none, position := 0,
                              loops := 0, fade := 0 } := tget_tset_self _ e _ lt
  have engine : (grantedRecord r zs true).current = .engine := by
    rw [current_grantedRecord, Bool.not_true, Bool.and_false, if_neg nofun]
    exact plays
  refine a.granted hh (r := { grantedRecord r zs true with engine := some e }) ?_ (fun k hk => ?_) rfl rfl within
    ⟨nofun, fun c => ?_⟩ (fun _ => engine) (claim_writeClaims zs _ s) free usable rfl (by rw [own]; exact unbound)
    (fun g hg => ?_) fun g hg other => ?_
  · rw [request_bound, if_pos ⟨rfl, hh⟩]
    exact congrArg (fun q : Request => { q with engine := some e }) own
  · rw [request_bound, if_neg fun e => hk e.1.symm]; rfl
  · have : (grantedRecord r zs true).current = .lane := c
    rw [engine] at this; cases this
  · obtain rfl := Option.some.inj hg
    rw [binds]
    exact ⟨lt, idle, rfl, rfl⟩
  · exact tget_tset_of_ne _ _ fun eq => other (congrArg some eq)

/-- A grant of the waiting walk: with the engine that a PLAYOUT source or a chime needs, or by its lane (R76, R112). -/
theorem grant (a : HoldersAgree none s) (waits : (request s h).state = .waiting) {bind : Bool}
    (playout : (request s h).live = false → bind = true)
    (engine : bind = true → wantsEngine (request s h) = true ∧ (idleEngine? s).isSome = true) :
    HoldersAgree none (Machine.grant h (obtainable s (request s h)) bind s) := by
  generalize hzs : obtainable s (request s h) = zs
  have gets : ∀ z, zmem zs z = true → z < 48 ∧ zmem (request s h).requested z = true ∧
      usableLine (lineOf s z) = true ∧ takeable s (request s h) z = true := fun z m => (zmem_obtainable ..).mp (hzs ▸ m)
  have hh : h < 96 := lt_of_state (by rw [waits]; nofun)
  have lane := (a.own h hh).lane
  obtain ⟨-, unbound⟩ := a.nowhere_of_waiting waits
  obtain ⟨taken, kept, free⟩ := a.takeZones waits bind hzs.symm
  have lines : (Machine.takeZones h zs (Machine.granting h zs bind s)).zlc = s.zlc := zlc_takeZones ..
  rw [grant_eq]
  generalize Machine.takeZones h zs (Machine.granting h zs bind s) = v at taken kept free lines
  have own : request v h = grantedRecord (request s h) zs bind := by
    rw [kept.own, request_granting, if_pos ⟨rfl, hh⟩]
  have within : ∀ z, z < 48 → zmem zs z = true → zmem (request s h).requested z = true := fun z _ m => (gets z m).2.1
  have usable : ∀ z, zmem zs z = true → usableLine (lineOf v z) = true := fun z m => by
    rw [lineOf, lines]; exact (gets z m).2.2.1
  refine joinLane ?_ h
  obtain ⟨eq, why⟩ | ⟨e, rfl, idle, eq⟩ := bindIdle_cases h zs bind (writeClaims zs (.pendingJoin h) v) <;> rw [eq]
  · have unbinding : bind = false := by
      refine why.elim id fun none => ?_
      by_contra yes
      obtain ⟨e, i⟩ := Option.isSome_iff_exists.mp (engine (Bool.not_eq_false _ |>.mp yes)).2
      obtain ⟨lt, i⟩ := idleEngine?_spec i
      have some := idleEngine?_isSome (s := writeClaims zs (.pendingJoin h) v) lt (kept.idle e lt i)
      rw [none] at some
      cases some
    subst unbinding
    have live : (request s h).live = true := by
      by_contra no
      have := playout (Bool.not_eq_true _ |>.mp no)
      cases this
    exact taken.grantLane hh own live unbound within free usable
  · obtain ⟨lt, idle⟩ := idleEngine?_spec idle
    have plays : (request s h).current = .engine := by
      have wants := (engine rfl).1
      simp only [wantsEngine, Bool.or_eq_true, Bool.not_eq_true', Bool.and_eq_true, beq_iff_eq] at wants
      exact wants.elim lane (·.1)
    exact taken.grantEngine hh own unbound plays lt idle within free usable

/-- A late join: what comes free goes to a holder that asks for it (R78). -/
theorem takeLate (a : HoldersAgree none s) (held : (request s h).state = .granted ∨ (request s h).state = .active) :
    HoldersAgree none (Machine.takeLate h (lateZones s (request s h)) s) := by
  generalize hzs : lateZones s (request s h) = zs
  have gets : ∀ z, zmem zs z = true ↔ z < 48 ∧ zmem (request s h).requested z = true ∧
      usableLine (lineOf s z) = true ∧ claim s z = .empty := fun z => hzs ▸ zmem_lateZones ..
  have hh : h < 96 := lt_of_state (by obtain e | e := held <;> rw [e] <;> nofun)
  have own := a.own h hh
  have written : request (Machine.takeLate h zs s) h =
      withPartial { request s h with granted := (request s h).granted ||| zs } := by
    rw [request_takeLate, if_pos ⟨rfl, hh⟩]
  have same : ∀ e, e < 6 → SameBinding (tget s.engines e) (tget (Machine.takeLate h zs s).engines e) := fun e _ => by
    rw [Machine.takeLate, engine_addWait]
    split
    · exact ⟨rfl, .rfl, .rfl⟩
    · exact .refl _
  have lines : (Machine.takeLate h zs s).zlc = s.zlc := (ActFrame.addWait ..).zlc
  have claims : ∀ z, z < 48 → ∀ k, (claimHandle (claim (Machine.takeLate h zs s) z) = some k ↔
      zmem zs z = true ∧ k = h ∨ claimHandle (claim s z) = some k) := fun z lt k => by
    rw [claim_takeLate]
    by_cases m : zmem zs z = true
    · rw [if_pos m, ((gets z).mp m).2.2.2]
      exact ⟨fun c => .inl ⟨m, (Option.some.inj c).symm⟩, fun c => c.elim (fun c => c.2 ▸ rfl) nofun⟩
    · rw [if_neg m]
      exact ⟨.inr, fun c => c.elim (fun c => absurd c.1 m) id⟩
  have grants : ∀ z, zmem (request (Machine.takeLate h zs s) h).granted z = true ↔
      zmem zs z = true ∨ zmem (request s h).granted z = true := fun z => by
    rw [written]
    change zmem ((request s h).granted ||| zs) z = true ↔ _
    rw [zmem_or, Bool.or_eq_true, or_comm]
  refine a.alter (h := h) ⟨fun k hk => ?_, fun z lt k hk => ?_, fun e lt => .inl (same e lt),
    fun z _ c => by rw [lineOf, lines]; exact c⟩ (fun _ _ => .rfl) (fun _ => ?_) (fun e lt mine => ⟨hh, ?_⟩)
    fun z lt mine => ⟨hh, ?_⟩
  · rw [request_takeLate, if_neg fun e => hk e.1.symm]
  · rw [claims z lt k]
    exact ⟨fun c => c.elim (fun c => absurd c.2 hk) id, .inr⟩
  · exact {
      named := fun z lt => by
        rw [claims z lt h, grants z, own.named z lt]
        exact ⟨fun c => ⟨nofun, c.imp (·.1) (·.2)⟩, fun c => c.2.imp (⟨·, rfl⟩) fun m => ⟨nofun, m⟩⟩
      within := fun z lt m => by
        rw [grants z] at m
        rw [written]
        exact m.elim (fun m => ((gets z).mp m).2.1) (own.within z lt)
      unheld := fun c => by
        rw [written] at c
        change (request s h).state = .waiting ∨ (request s h).state = .free at c
        obtain e | e := held <;> rw [e] at c <;> obtain c | c := c <;> cases c
      owned := fun e g => by
        rw [written] at g
        obtain ⟨lt, mine⟩ := own.owned e g
        exact ⟨lt, (same e lt).handle.trans mine⟩
      held := fun e g => by rw [written] at g ⊢; exact own.held e g
      stopping := fun e g => by
        rw [written] at g ⊢
        rw [(same e (own.owned e g).1).stopping]
        exact own.stopping e g
      ending := by rw [written]; exact own.ending
      source := fun hx c => by rw [written] at c ⊢; exact own.source hx c
      lane := by rw [written]; exact own.lane }
  · rw [written]
    exact (a.bound e lt h ((same e lt).handle ▸ mine)).2
  · rw [lineOf, lines]
    obtain ⟨m, -⟩ | held := (claims z lt h).mp mine
    · exact ((gets z).mp m).2.2.1
    · exact (a.zone z lt h held).2

end HoldersAgree
end Sys2Proof.Machine
end

section
/-! Admissions, returns, fade ends and boundaries, and with them every row, keep the laws of claims and engines. -/

namespace Sys2Proof.Machine
set_option Elab.async false

variable {s t u : State} {h : Nat}

/-- A fresh record, FREE or WAITING, holds no zone and has no engine. -/
theorem OwnLaw.fresh (nowhere : ∀ z, z < 48 → claimHandle (claim s z) ≠ some h) (granted : (request s h).granted = 0)
    (engine : (request s h).engine = none) (waits : (request s h).state = .waiting)
    (lane : (request s h).live = false → (request s h).current = .engine) : OwnLaw none s h where
  named z lt := by
    rw [granted, zmem_zero]
    exact ⟨fun c => absurd c (nowhere z lt), fun c => by cases c.2⟩
  within z _ m := by rw [granted, zmem_zero] at m; cases m
  unheld _ := granted
  owned e g := by rw [engine] at g; cases g
  held e g := by rw [engine] at g; cases g
  stopping e g := by rw [engine] at g; cases g
  ending c := by rw [waits] at c; cases c
  source _ c := by rw [waits] at c; obtain c | c := c <;> cases c
  lane := lane

namespace HoldersAgree

theorem admitRecord (a : HoldersAgree none s) {r : Request} (free : freeHandle? s = some h)
    (room : s.zar.queue.length < 64) (new : NewRequest r) : HoldersAgree none (Machine.admitRecord h r s) := by
  obtain ⟨hh, idle⟩ := freeHandle?_spec free
  have own := a.own h hh
  have claims : ∀ z, claim (Machine.admitRecord h r s) z = claim s z := fun z => by rw [claim, zar_admitRecord]; rfl
  have engines : (Machine.admitRecord h r s).engines = s.engines := engines_admitRecord ..
  have written : request (Machine.admitRecord h r s) h = admitted r s := by rw [request_admitRecord, if_pos ⟨rfl, hh⟩]
  have nowhere : ∀ z, z < 48 → claimHandle (claim s z) ≠ some h := fun z lt c => by
    have held := ((own.named z lt).mp c).2
    rw [own.unheld (.inr idle), zmem_zero] at held
    cases held
  have unbound : ∀ e, e < 6 → (tget s.engines e).handle ≠ some h := fun e lt mine => by
    have := own.held e (a.bound e lt h mine).2
    rw [idle] at this
    obtain c | c | c := this <;> cases c
  have frame := ActFrame.admitRecord (h := h) (r := r) room
  refine a.alter (h := h) ⟨fun k hk => ?_, fun z _ k _ => by rw [claims], fun e _ => .inl (by rw [engines]; exact .refl _),
    fun z _ c => by rw [lineOf, frame.zlc]; exact c⟩ (fun _ _ => .rfl)
    (fun _ => .fresh (fun z lt => by rw [claims]; exact nowhere z lt) (by rw [written]; exact new.granted)
      (by rw [written]; exact new.engine) (by rw [written]; rfl) (by rw [written]; exact new.current))
    (fun e lt mine => absurd mine (by rw [engines]; exact unbound e lt))
    fun z lt mine => absurd mine (by rw [claims]; exact nowhere z lt)
  rw [request_admitRecord, if_neg fun e => hk e.1.symm]

/-- A return gives zones and engine back (R86). -/
theorem requeue (a : HoldersAgree none s) (h : Nat) (room : s.zar.queue.length < 64) :
    HoldersAgree none (Machine.requeue h s) := by
  have emptied := claims_emptied (claim_requeue h s)
  have frame := ActFrame.requeue (h := h) room
  have released := a.not_bound_of_released fun e _ => engine_requeue h s e
  refine a.alter (h := h) ⟨fun k hk => ?_, fun z _ k hk => ?_, a.engines_released fun e _ => engine_requeue h s e,
    fun z _ c => by rw [lineOf, frame.zlc]; exact c⟩ (fun _ _ => .rfl) (fun hh => ?_)
    (fun e lt mine => absurd mine (released e lt)) fun z _ mine => absurd rfl ((emptied z h).mp mine).1
  · rw [request_requeue, if_neg fun e => hk e.1.symm]
  · rw [emptied]
    exact ⟨fun c => c.2, fun c => ⟨hk, c⟩⟩
  · have written : request (Machine.requeue h s) h = returned (request s h) := by rw [request_requeue, if_pos ⟨rfl, hh⟩]
    exact .fresh (fun z _ c => absurd rfl ((emptied z h).mp c).1) (by rw [written]; rfl) (by rw [written]; rfl)
      (by rw [written]; rfl) (by rw [written]; exact (a.own h hh).lane)

/-- The release of an engine that no request has. -/
theorem releaseEngine (a : HoldersAgree none s) {e : Nat} (free : e < 6 → (tget s.engines e).handle = none) :
    HoldersAgree none (Machine.releaseEngine e s) := by
  have frame := ActFrame.releaseEngine e s
  refine a.of_same (fun k => by rw [request_releaseEngine]; exact .refl _) (fun z _ => by rw [claim_releaseEngine])
    (fun k lt => ?_) fun z _ _ c => by rw [lineOf, frame.zlc]; exact c
  rw [engine_releaseEngine]
  split
  · next own =>
    obtain ⟨rfl, lt⟩ := own
    have idle := (a.idle e lt).mpr (free lt)
    exact ⟨(free lt).symm, by rw [idle]; rfl, by rw [idle]; exact ⟨nofun, nofun⟩⟩
  · exact .refl _

/-- A fade end of a STOPPING engine: its request is ENDING and takes its outcome (R86, R108). -/
theorem endFade (a : HoldersAgree none s) (e : Nat) : HoldersAgree none (Machine.endFade e s) := by
  have passed : ∀ {t}, HoldersAgree none t → HoldersAgree none (needPass t) := fun {t} b => b.untouched rfl rfl rfl
  obtain done | ⟨free, done⟩ | ⟨h, due, mine, done⟩ := endFade_cases e s <;> rw [done]
  · exact a
  · exact passed (a.releaseEngine fun _ => free)
  · by_cases lt : e < 6
    · obtain ⟨hh, engine⟩ := a.bound e lt h mine
      have own := a.own h hh
      have stops : (tget s.engines e).state = .stopping := by
        simp only [fadeDue, Bool.and_eq_true, beq_iff_eq] at due
        exact due.1
      have outcome := (own.ending ((own.stopping e engine).mp stops)).2
      have idled : ∀ {t : State}, tget t.engines e =
          (if (request s h).engine = some e ∧ e < 6 then idled (tget s.engines e) else tget s.engines e) →
          (tget t.engines e).handle = none := fun {t} c => by rw [c, if_pos ⟨engine, lt⟩]; rfl
      obtain ⟨c, -, out⟩ | ⟨-, -, room, out⟩ | ⟨none, -⟩ := takeOutcome_cases h s
      · rw [out]
        exact passed ((a.endRequest h c).releaseEngine fun _ => idled (engine_endRequest h c s e))
      · rw [out]
        exact passed ((a.requeue h room).releaseEngine fun _ => idled (engine_requeue h s e))
      · exact absurd none outcome
    · rw [tget_of_le _ e (not_lt.mp lt)] at mine
      cases mine

/-- The chime of a holder is over: its engine is released, and its lane is the current source (R111). -/
theorem handOver (a : HoldersAgree none s) {e : Nat} (lt : e < 6) (mine : (tget s.engines e).handle = some h)
    (live : (request s h).live = true) (runs : (request s h).state ≠ .ending) :
    HoldersAgree none (Machine.handOver e h s) := by
  obtain ⟨hh, engine⟩ := a.bound e lt h mine
  have own := a.own h hh
  have held : (request s h).state = .granted ∨ (request s h).state = .active := by
    obtain c | c | c := own.held e engine
    · exact .inl c
    · exact .inr c
    · exact absurd c runs
  have written : request (Machine.handOver e h s) h = { request s h with engine := none, current := .lane } := by
    rw [handOver_eq]
    change request (Machine.releaseEngine e _) h = _
    rw [request_releaseEngine, request_setRequest, if_pos ⟨rfl, hh⟩]
  have claims : ∀ z, claim (Machine.handOver e h s) z = claim s z := fun z => claim_releaseEngine e z _
  have engines : ∀ k, k < 6 → tget (Machine.handOver e h s).engines k =
      if (request s h).engine = some k ∧ k < 6 then idled (tget s.engines k) else tget s.engines k := fun k hk => by
    change tget (Machine.releaseEngine e _).engines k = _
    rw [engine_releaseEngine, engine]
    by_cases eq : e = k
    · rw [if_pos ⟨eq, lt⟩, if_pos ⟨congrArg some eq, hk⟩]; subst eq; rfl
    · rw [if_neg fun c => eq c.1, if_neg fun c => eq (Option.some.inj c.1)]; rfl
  have frame := ActFrame.handOver e h s
  have released := a.not_bound_of_released engines
  refine a.alter (h := h) ⟨fun k hk => ?_, fun z _ k _ => by rw [claims], a.engines_released engines,
    fun z _ c => by rw [lineOf, frame.zlc]; exact c⟩ (fun _ _ => .rfl) (fun _ => ?_)
    (fun k lt mine => absurd mine (released k lt)) fun z lt mine => ⟨hh, ?_⟩
  · rw [handOver_eq]
    change request (Machine.releaseEngine e _) k = _
    rw [request_releaseEngine, request_setRequest, if_neg fun e => hk e.1.symm]
  · exact {
      named := fun z lt => by rw [claims, written]; exact own.named z lt
      within := by rw [written]; exact own.within
      unheld := by rw [written]; exact own.unheld
      owned := by rw [written]; nofun
      held := by rw [written]; nofun
      stopping := by rw [written]; nofun
      ending := fun c => absurd (by rw [written] at c; exact c) runs
      source := fun _ _ => by rw [written]; exact ⟨fun _ => rfl, fun _ => rfl⟩
      lane := fun c => by
        rw [written] at c
        rw [show (request s h).live = false from c] at live
        cases live }
  · rw [lineOf, frame.zlc]
    rw [claims] at mine
    exact (a.zone z lt h mine).2

/-- A boundary of a PLAYING engine: its request is GRANTED or ACTIVE (R80, R104). -/
theorem boundary (a : HoldersAgree none s) (e : Nat) : HoldersAgree none (Machine.boundary e s) := by
  obtain done | ⟨h, i, due, mine, -, done⟩ := boundary_cases e s <;> rw [done]
  · exact a
  · have lt : e < 6 := by
      by_contra le
      rw [tget_of_le _ e (not_lt.mp le)] at mine
      cases mine
    have plays : (tget s.engines e).state = .playing := by
      simp only [boundaryDue, Bool.and_eq_true, beq_iff_eq] at due
      exact due.1
    have joined := a.joinLive h
    have mine' : (tget (Machine.joinLive h s).engines e).handle = some h := by rw [engines_joinLive]; exact mine
    unfold takeBoundary
    split
    · exact a.endRequest ..
    · dsimp only
      split
      · next live =>
        obtain ⟨hh, engine⟩ := joined.bound e lt h mine'
        refine joined.handOver lt mine' live fun c => ?_
        have stops := ((joined.own h hh).stopping e engine).mpr c
        rw [engines_joinLive, plays] at stops
        cases stops
      · split
        · exact joined.endRequest ..
        · obtain ⟨g, state, handle, zar, engines⟩ := continueList_cases e h i (Machine.joinLive h s)
          have goes : HoldersAgree none (Machine.setEngine e g (Machine.joinLive h s)) :=
            joined.setEngine fun _ => ⟨handle, by rw [state], by rw [state]⟩
          exact goes.untouched zar engines (ActFrame.continueList e h i _).zlc

/-- The victim of R77 plays, and has not begun to end. -/
theorem stopVictim (a : HoldersAgree none s) : HoldersAgree none (Machine.stopVictim s) := by
  unfold Machine.stopVictim
  split
  · exact a
  · split
    · exact a
    · next h e hv =>
      obtain ⟨-, playout, engine, plays⟩ := (victimEngine_iff s h e).mp (victim_engine hv)
      have own := a.own h (lt_of_engine engine)
      have held : (request s h).state = .granted ∨ (request s h).state = .active := by
        obtain c | c | c := own.held e engine
        · exact .inl c
        · exact .inr c
        · rw [(own.stopping e engine).mpr c] at plays
          obtain c | c := plays <;> cases c
      refine (a.enterEnding (h := h) nofun held (.inl playout) ?_).of_same (fun _ => .refl _) (fun _ _ => rfl)
        (fun _ _ => .refl _) fun _ _ _ c => c
      split
      · nofun
      · split <;> nofun

/-- Engines play on, with state and request as they were. -/
theorem playOn (a : HoldersAgree none s) {x : Vector Engine 6} (same : ∀ e, e < 6 →
    (tget x e).state = (tget s.engines e).state ∧ (tget x e).handle = (tget s.engines e).handle) :
    HoldersAgree none (s.setEngines x) := by
  refine a.of_same (fun _ => .refl _) (fun _ _ => rfl) (fun e lt => ?_) fun _ _ _ c => c
  obtain ⟨state, handle⟩ := same e lt
  rw [State.setEngines_engines]
  exact ⟨handle, by rw [state], by rw [state]⟩

/-- Every elementary action keeps the laws of claims and engines. -/
theorem actions : ActionLaw fun s t => HoldersAgree none s → HoldersAgree none t where
  trans a b := b ∘ a
  same hz he hl _ a := a.untouched hz he hl
  lines hl a := a.of_same (fun _ => .refl _) (fun _ _ => rfl) (fun _ _ => .refl _) fun z lt _ c => hl z lt c
  engines he a := a.playOn he
  onTick k a := (k (a.untouched rfl rfl rfl)).untouched rfl rfl rfl
  vacate _ f cause _ lt a := a.vacate lt f cause
  endRequest h c _ a := a.endRequest h c
  enterEnding held plays out a := a.enterEnding (Option.some_ne_none _).symm held plays out
  walkRequest p h a := by
    obtain e | ⟨waits, -, bind, playout, engine, e⟩ | e := walkRequest_cases p h <;> rw [e]
    · exact a
    · exact a.grant waits playout engine
    · exact a.stopVictim
  lateJoin s h a := by
    obtain e | ⟨held, e⟩ := lateJoin_cases s h <;> rw [e]
    · exact a
    · exact (a.takeLate held).joinLane h
  joinLane h _ a := a.joinLane h
  leavePreroll e _ a := a.leavePreroll e
  boundary e _ a := a.boundary e
  endFade e _ a := a.endFade e
  admitRecord free room _ new a := a.admitRecord free room new
  setPendingEnd _ _ a := a.setRequest ⟨rfl, rfl, rfl, rfl, rfl, .rfl, .rfl, .rfl, id⟩
  setOutcome _ _ a := a.setRequest ⟨rfl, rfl, rfl, rfl, rfl, .rfl, .rfl, .rfl, fun _ => nofun⟩
  countTalk s a := a.of_same (fun k => by
    by_cases hk : k < 96
    · obtain ⟨n, e⟩ := countTalkOf_cases (request s k)
      rw [request_countTalk s hk, e]
      exact ⟨rfl, rfl, rfl, rfl, rfl, .rfl, .rfl, .rfl, id⟩
    · rw [request_of_le (not_lt.mp hk), request_of_le (not_lt.mp hk)]
      exact .refl _) (fun _ _ => rfl) (fun _ _ => .refl _) fun _ _ _ c => c

/-- After a reset nobody holds a zone or an engine. -/
theorem reset (hz : t.zar = resetZar) (engines : ∀ e, e < 6 → (tget t.engines e).state = .idle ∧
    (tget t.engines e).handle = none) : HoldersAgree none t := by
  have empty : ∀ z, z < 48 → ∀ h, claimHandle (claim t z) ≠ some h := fun z lt h => by
    rw [claim_resetZar hz lt]; nofun
  exact {
    own := fun h hh => by
      have free := request_resetZar hz hh
      exact {
        named := fun z lt => by
          rw [free, show freeRequest.granted = 0 from rfl, zmem_zero]
          exact ⟨fun c => absurd c (empty z lt h), fun c => by cases c.2⟩
        within := fun z _ m => by rw [free, show freeRequest.granted = 0 from rfl, zmem_zero] at m; cases m
        unheld := fun _ => by rw [free]; rfl
        owned := by rw [free]; nofun
        held := by rw [free]; nofun
        stopping := by rw [free]; nofun
        ending := by rw [free]; nofun
        source := by rw [free]; rintro - (c | c) <;> cases c
        lane := by rw [free]; exact fun _ => rfl }
    bound := fun e lt h mine => by rw [(engines e lt).2] at mine; cases mine
    idle := fun e lt => by rw [(engines e lt).1, (engines e lt).2]; exact ⟨fun _ => rfl, fun _ => rfl⟩
    zone := fun z lt h mine => absurd mine (empty z lt h) }

theorem reset_of_defaults {straps : BitVec 4} (d : ResetDefaults straps t) : HoldersAgree none t :=
  reset d.zar fun e lt => by
    rw [d.engines, show tget State.reset.engines e = idleEngine from tget_replicate _ e lt]
    exact ⟨rfl, rfl⟩

/-- Every row keeps the laws of claims and engines. -/
theorem rows : RowLaw (fun s t => HoldersAgree none s → HoldersAgree none t)
    fun s t => HoldersAgree none s → HoldersAgree none t :=
  .of_invariant actions (fun hz he hl a => a.untouched hz he hl)
    (fun s _ => by
      rw [unitReset_after]
      refine reset rfl fun e lt => ?_
      have idle : tget (resetBlocks s).engines e = { idleEngine with output := (tget s.engines e).output } :=
        tget_map _ _ e lt
      rw [State.setCh_engines, idle]
      exact ⟨rfl, rfl⟩)
    (fun straps s => reset_of_defaults (powerOn_defaults straps s)) fun straps s =>
      reset_of_defaults (pinReset_defaults straps s)

end HoldersAgree

/-- Settles O10: with the law of the engines the claim table is an invariant: every operation of the arbiter is about one request, and whoever loses zones or an engine to a grant loses them in record, claim table and engine alike. -/
theorem everyStepKeepsTheClaimTable : Obligations.EveryStepKeepsTheClaimTable := fun _ _ _ engines claims h =>
  (holdersAgree_iff.mp (HoldersAgree.rows.step h (holdersAgree_iff.mpr ⟨claims, engines⟩))).1

/-- Settles O11: with the claim table the law of the engines is an invariant, by the same argument. -/
theorem everyStepKeepsTheEngineLaw : Obligations.EveryStepKeepsTheEngineLaw := fun _ _ _ claims engines h =>
  (holdersAgree_iff.mp (HoldersAgree.rows.step h (holdersAgree_iff.mpr ⟨claims, engines⟩))).2

end Sys2Proof.Machine
end

section
/-! Ends and RELEASE (R84, R85, R91). -/

namespace Sys2Proof.Machine
set_option Elab.async false

variable {s t : State}

/-- An event that finds room stands at the tail of the queue, stamped as the clock stands (R178). -/
theorem events_pushEvent (room : s.ch.events.length < 32) (kind cause : Byte) (n : Nat) (d : List Field) :
    (pushEvent kind cause n d s).ch.events =
      s.ch.events ++ [⟨kind, cause, BitVec.ofNat 16 n, s.stc.time, s.stc.phase, d⟩] := by
  rw [pushEvent_spec, if_pos room]
  rfl

/-! ### The steps of an end (R84) -/

/-- A request that ends has given back its zones and its engine, and has left the queue (R84 steps 1 to 3). -/
def leaving (h : Nat) (s : State) : State :=
  dequeue h (releaseEngine? (request s h).engine (writeClaims (claimedZones s h) .empty s))

theorem endRequest_eq (h : Nat) (c : EndCause) (s : State) : endRequest h c s =
    needPass (setRequest h freeRequest (tellScheduler (request s h).origin h c (unuseBanks (request s h).fragments
      (raiseEnded h c (request s h) (handedOn s (request s h)) (leaving h s))))) := rfl

theorem releaseEngine?_spec (o : Option Nat) (s : State) :
    releaseEngine? o s = (s.setZar (releaseEngine? o s).zar).setEngines (releaseEngine? o s).engines := by
  cases o with
  | none => rfl
  | some e =>
    simp only [releaseEngine?, releaseEngine]
    split <;> rfl

/-- The first steps of an end write the arbiter and the engines alone. -/
theorem leaving_spec (h : Nat) (s : State) : leaving h s = (s.setZar (leaving h s).zar).setEngines (leaving h s).engines := by
  unfold leaving
  rw [releaseEngine?_spec]
  rfl

/-- ANNOUNCE_ENDED as an end raises it, stamped as the clock stands (R85). -/
def endedEvent (h : Nat) (c : EndCause) (s : State) : Event :=
  let r := request s h
  ⟨0x04, BitVec.ofNat 8 (causeCode c), BitVec.ofNat 16 h, s.stc.time, s.stc.phase,
    [f1 (originKind r.origin), f1 (originId r.origin), f1 (originTrigger r.origin), f1 (requestCode r.state),
     fZones r.granted, f1 (requestFlags r.flags), f2 r.restarts, f2 (handedOn s r).1, f1? (handedOn s r).2]⟩

theorem events_endRequest (h : Nat) (c : EndCause) (s : State) (room : s.ch.events.length < 32) :
    (s.ch.events ++ [endedEvent h c s]) <+: (endRequest h c s).ch.events := by
  have raised : (raiseEnded h c (request s h) (handedOn s (request s h)) (leaving h s)).ch.events =
      s.ch.events ++ [endedEvent h c s] := by
    rw [leaving_spec]
    exact events_pushEvent (s := (s.setZar (leaving h s).zar).setEngines (leaving h s).engines) room ..
  rw [← raised, endRequest_eq]
  exact ((((ActFrame.unuseBanks ..).trans (.tellScheduler ..)).trans (.setRequest ..)).trans (.needPass _)).events

/-- The count of a bank after the use of some banks is given back. -/
theorem tget_foldl_lower (b : Nat) (hb : b < 64) : ∀ (bs : List Nat) (v : Vector Nat 64),
    tget (bs.foldl (fun v b => tmod v b (· - 1)) v) b = tget v b - (bs.filter (· == b)).length
  | [], _ => rfl
  | c :: bs, v => by
    rw [List.foldl_cons, tget_foldl_lower b hb bs, tget_tmod, List.filter_cons]
    by_cases e : c = b
    · subst e
      rw [if_pos ⟨rfl, hb⟩, if_pos (beq_self_eq_true c), List.length_cons]
      omega
    · rw [if_neg fun d => e d.1, if_neg (by simpa using e)]

theorem length_filter_filterMap_fragmentBank (b : Nat) (fs : List Fragment) :
    ((fs.filterMap fragmentBank).filter (· == b)).length = (fs.filter fun f => fragmentBank f == some b).length := by
  induction fs with
  | nil => rfl
  | cons f fs ih =>
    cases bank : fragmentBank f with
    | none => rw [List.filterMap_cons_none bank, ih, List.filter_cons_of_neg (by rw [bank]; nofun)]
    | some c =>
      rw [List.filterMap_cons_some bank]
      by_cases e : c = b
      · rw [List.filter_cons_of_pos (by simpa using e), List.filter_cons_of_pos (by rw [bank]; simpa using e),
          List.length_cons, List.length_cons, ih]
      · rw [List.filter_cons_of_neg (by simpa using e), List.filter_cons_of_neg (by rw [bank]; simpa using e), ih]

theorem useCounts_endRequest (h : Nat) (c : EndCause) (s : State) {b : Nat} (hb : b < 64) :
    tget (endRequest h c s).cmc.useCounts b =
      tget s.cmc.useCounts b - ((request s h).fragments.filter fun f => fragmentBank f == some b).length := by
  have counts : (endRequest h c s).cmc.useCounts = (((request s h).fragments.filterMap fragmentBank).foldl
      (fun v b => tmod v b (· - 1)) s.cmc.useCounts) := by
    rw [endRequest_eq, leaving_spec, raiseEnded, pushEvent_spec, tellScheduler_spec]
    rfl
  rw [counts, tget_foldl_lower b hb, length_filter_filterMap_fragmentBank]

theorem work_endRequest (h : Nat) (c : EndCause) (s : State) : (endRequest h c s).work = { s.work with
    passesDue := s.work.passesDue + 1, walksDue := s.work.walksDue + originWalks (request s h).origin } := by
  rw [endRequest_eq, leaving_spec, raiseEnded, pushEvent_spec, tellScheduler_spec]
  rfl

/-! ### RELEASE (R91) -/

theorem exec_release (h : Header) (handle mode : Byte) (s : State) :
    exec (.release h handle mode) s = .next (takeCommand h 0x52 (release handle mode) s) := rfl

/-- What RELEASE answers of its request, which it leaves as `after`. -/
def releaseResult (handle : Byte) (r after : Request) : List Field :=
  [.b1 handle, f1 (originKind r.origin), f1 (requestCode r.state), f1 (requestCode after.state), f1 (pendingCode after.pendingEnd)]

section Release

variable {h : Header} {handle mode : Byte} (ha : Addressed h s) (hk : handle.toNat ≤ 95) (hm : mode.toNat ≤ 1)
include hk hm

/-- RELEASE of a request that stands and is not ENDING. -/
theorem release_of_standing (free : (request s handle.toNat).state ≠ .free) (ending : (request s handle.toNat).state ≠ .ending) :
    release handle mode s = ⟨.done, releaseResult handle (request s handle.toNat)
        (request (releaseRequest handle.toNat (mode == 1) s) handle.toNat),
      settle (releaseRequest handle.toNat (mode == 1) s)⟩ := by
  unfold release
  dsimp only
  rw [if_neg (by omega), if_neg free, if_neg ending]
  rfl

include ha

theorem exec_release_of_standing (free : (request s handle.toNat).state ≠ .free)
    (ending : (request s handle.toNat).state ≠ .ending) {t : State}
    (done : releaseRequest handle.toNat (mode == 1) s = t) :
    exec (.release h handle mode) s = .next (answered h 0x52 .done
      (releaseResult handle (request s handle.toNat) (request t handle.toNat)) s (settle t)) := by
  have run := release_of_standing (s := s) hk hm free ending
  rw [done] at run
  have frame := (ActFrame.releaseRequest handle.toNat (mode == 1) s).trans (.settle _)
  rw [done] at frame
  rw [exec_release, takeCommand_answered ha (by rw [run, frame.replies]; exact ha.room), run]

end Release

theorem standing_of_held {r : Request} (held : r.state = .granted ∨ r.state = .active) :
    r.state ≠ .free ∧ r.state ≠ .ending ∧ r.state ≠ .waiting := by
  obtain e | e := held <;> rw [e] <;> exact ⟨nofun, nofun, nofun⟩

/-- The entry to ENDING of a request with an engine, written out (R106). -/
theorem enterEnding_engine {h e : Nat} (o : EndingOutcome) (engine : (request s h).engine = some e) : enterEnding h o s =
    (s.setZar { s.zar with requests := tset s.zar.requests h (ending (request s h) o) }).setEngines
      (tset s.engines e (stopped (tget s.engines e))) := by
  unfold enterEnding
  dsimp only
  split
  · next k own =>
    obtain rfl := Option.some.inj (engine.symm.trans own)
    rfl
  · next none => rw [engine] at none; cases none

theorem Settled.enterEnding (w : Settled s) (h : Nat) (o : EndingOutcome) : Settled (enterEnding h o s) := by
  have same : (Machine.enterEnding h o s).work = s.work := by
    unfold Machine.enterEnding
    dsimp only
    split <;> rfl
  exact ⟨by rw [same]; exact w.pass, by rw [same]; exact w.walks⟩

/-- Settles O43: an end step by step; RELEASE by its checks and by the state and source of its request. -/
theorem endsFollowTheirStepsAndReleaseMakesThem : Obligations.EndsFollowTheirStepsAndReleaseMakesThem := by
  refine ⟨?_, fun h handle mode s ha bad => ?_, fun h handle mode s ha hk hm free => ?_,
    fun h handle mode s ha hk hm ending => ?_, ?_, ?_, ?_, ?_⟩
  · rintro s h cause r t hh rfl rfl
    refine ⟨fun z _ => claim_endRequest h cause s z, fun e he => ?_, queue_endRequest h cause s, ?_, fun k _ other => ?_,
      fun room => ?_, fun b hb => useCounts_endRequest h cause s hb, ?_, .endRequest h cause s⟩
    · rw [engine_endRequest]
      exact if_congr (and_iff_left he) rfl rfl
    · rw [request_endRequest, if_pos ⟨rfl, hh⟩]
    · rw [request_endRequest, if_neg fun e => other e.1.symm]
    · have raised := events_endRequest h cause s room
      rw [endedEvent, handedOn] at raised
      cases engine : (request s h).engine <;> rw [engine] at raised <;> exact raised
    · rw [work_endRequest]
      cases (request s h).origin <;> rfl
  · rw [exec_release, takeCommand_refused ha]
    unfold release
    exact if_pos (by omega)
  · rw [exec_release, takeCommand_refused ha]
    unfold release
    dsimp only
    rw [if_neg (by omega), if_pos free]
  · rw [exec_release, takeCommand_refused ha]
    unfold release
    dsimp only
    rw [if_neg (by omega), if_neg (by rw [ending]; nofun), if_pos ending]
  · rintro h handle mode s r ha hk hm rfl atOnce
    have ends : releaseRequest handle.toNat (mode == 1) s = endRequest handle.toNat .released s :=
      if_pos (atOnce.imp id (·.2))
    have standing : (request s handle.toNat).state ≠ .free ∧ (request s handle.toNat).state ≠ .ending := by
      obtain waits | ⟨held, -⟩ := atOnce
      · rw [waits]; exact ⟨nofun, nofun⟩
      · exact ⟨(standing_of_held held).1, (standing_of_held held).2.1⟩
    have free : request (endRequest handle.toNat .released s) handle.toNat = freeRequest := by
      rw [request_endRequest, if_pos ⟨rfl, by omega⟩]
    refine ⟨settle (endRequest handle.toNat .released s), ?_, .settle _⟩
    rw [exec_release_of_standing ha hk hm standing.1 standing.2 ends, free]
    rfl
  · rintro h handle mode s r e cause ha hk hm rfl held how hc engine he settled
    obtain ⟨free, ending', waits⟩ := standing_of_held held
    have stops : releaseRequest handle.toNat (mode == 1) s = enterEnding handle.toNat (.ends cause) s := by
      unfold releaseRequest
      dsimp only
      obtain ⟨live, plays⟩ | ⟨playout, hard⟩ := how
      · rw [if_neg (by rw [plays]; exact fun c => c.elim waits fun c => by cases c.2), if_pos live, hc, if_pos live]
      · have isHard : (mode == 1) = true := by
          rw [beq_iff_eq]; exact (byte_eq_iff mode 1 (by omega)).mpr hard
        rw [if_neg (by rw [playout]; exact fun c => c.elim waits fun c => by cases c.1), if_neg (by rw [playout]; nofun),
          if_pos isHard, hc, if_neg (by rw [playout]; nofun)]
    have written : request (enterEnding handle.toNat (.ends cause) s) handle.toNat =
        ending (request s handle.toNat) (.ends cause) := by rw [request_enterEnding, if_pos ⟨rfl, by omega⟩]
    rw [exec_release_of_standing ha hk hm free ending' stops, written, settle_of_settled (settled.enterEnding _ _),
      enterEnding_engine _ engine]
    rfl
  · rintro h handle mode s r ha hk hm rfl held playout none settled
    obtain ⟨free, ending, waits⟩ := standing_of_held held
    have soft : (mode == 1) = false := by
      rw [beq_eq_false_iff_ne]; exact fun e => absurd ((byte_eq_iff mode 1 (by omega)).mp e) (by omega)
    have marks : releaseRequest handle.toNat (mode == 1) s =
        setRequest handle.toNat { request s handle.toNat with pendingEnd := some .released } s := by
      unfold releaseRequest
      dsimp only
      rw [if_neg (by rw [playout]; exact fun c => c.elim waits fun c => by cases c.1), if_neg (by rw [playout]; nofun), soft,
        if_neg nofun, none, if_neg nofun]
    have written : request (setRequest handle.toNat { request s handle.toNat with pendingEnd := some .released } s)
        handle.toNat = { request s handle.toNat with pendingEnd := some .released } := by
      rw [request_setRequest, if_pos ⟨rfl, by omega⟩]
    rw [exec_release_of_standing ha hk (by omega) free ending marks, written,
      settle_of_settled (s := setRequest _ _ s) ⟨settled.pass, settled.walks⟩]
    rfl
  · rintro h handle mode s r c ha hk hm rfl held playout pending settled
    obtain ⟨free, ending, waits⟩ := standing_of_held held
    have soft : (mode == 1) = false := by
      rw [beq_eq_false_iff_ne]; exact fun e => absurd ((byte_eq_iff mode 1 (by omega)).mp e) (by omega)
    have stays : releaseRequest handle.toNat (mode == 1) s = s := by
      unfold releaseRequest
      dsimp only
      rw [if_neg (by rw [playout]; exact fun c => c.elim waits fun c => by cases c.1), if_neg (by rw [playout]; nofun), soft,
        if_neg nofun, pending, if_pos Option.isSome_some]
    rw [exec_release_of_standing ha hk (by omega) free ending stays, settle_of_settled settled, releaseResult, pending]
    cases c <;> rfl

end Sys2Proof.Machine
end

section
/-! Where no zone is usable, passes change nothing but the count of passes due; ANNOUNCE (R71, R72) and the firing of a trigger (R157 to R159) are said with that. -/

namespace Sys2Proof.Machine
set_option Elab.async false

variable {s t : State} {h : Nat}

/-! ### Passes where no zone is usable -/

/-- The due passes of a state without one are cleared by leaving it. -/
theorem setWork_of_noPass (none : s.work.passesDue = 0) : s.setWork { s.work with passesDue := 0 } = s :=
  calc s.setWork { s.work with passesDue := 0 } = s.setWork { s.work with passesDue := s.work.passesDue } := by rw [none]
    _ = s := rfl

theorem engine_not_preroll (none : ∀ e, e < 6 → (tget s.engines e).state ≠ .preroll) (e : Nat) :
    (tget s.engines e).state ≠ .preroll := by
  by_cases lt : e < 6
  · exact none e lt
  · rw [tget_of_le _ e (not_lt.mp lt)]; nofun

/-- Without an engine in PREROLL there is no test to make (R99). -/
theorem prerollTests_of_none (none : ∀ e, e < 6 → (tget s.engines e).state ≠ .preroll) : prerollTests s = s := by
  refine foldl_keeps (fun t => t = s) _ (fun _ e eq => ?_) _ s rfl
  rw [eq]
  refine leavePreroll_of_not_ready ?_
  rw [prerollReady, beq_eq_false_iff_ne.mpr (engine_not_preroll none e), Bool.false_and]

/-- No line lets a zone be granted, and no engine waits for one (R52, R99). -/
structure NothingUsable (s : State) : Prop where
  lines : ∀ z, z < 48 → lineOf s z = .off ∨ lineOf s z = .fault
  engines : ∀ e, e < 6 → (tget s.engines e).state ≠ .preroll

namespace NothingUsable

theorem line (q : NothingUsable s) {z : Nat} (lt : z < 48) : usableLine (lineOf s z) = false := by
  obtain e | e := q.lines z lt <;> rw [e] <;> rfl

theorem obtainable (q : NothingUsable s) (r : Request) : obtainable s r = 0 := zset_eq_zero fun z lt => by
  by_contra m
  have := ((zmem_obtainable r z).mp (Bool.not_eq_false _ |>.mp m)).2.2.1
  rw [q.line lt] at this
  cases this

theorem lateZones (q : NothingUsable s) (r : Request) : lateZones s r = 0 := zset_eq_zero fun z lt => by
  by_contra m
  have := ((zmem_lateZones r z).mp (Bool.not_eq_false _ |>.mp m)).2.2.1
  rw [q.line lt] at this
  cases this

theorem walkRequest (q : NothingUsable s) (blocked : Bool) (h : Nat) : walkRequest (s, blocked) h = (s, blocked) := by
  unfold Machine.walkRequest
  dsimp only
  split
  · rfl
  · exact if_pos (.inr (.inl (q.obtainable _)))

theorem waitingWalk (q : NothingUsable s) : waitingWalk s = s := by
  have kept : ∀ l : List Nat, l.foldl Machine.walkRequest (s, false) = (s, false) := fun l => by
    induction l with
    | nil => rfl
    | cons h l ih => rw [List.foldl_cons, q.walkRequest, ih]
  rw [Machine.waitingWalk, kept]

theorem lateJoin (q : NothingUsable s) (h : Nat) : lateJoin s h = s := by
  unfold Machine.lateJoin
  dsimp only
  split
  · rfl
  · exact if_pos (q.lateZones _)

theorem lateJoinWalk (q : NothingUsable s) : lateJoinWalk s = s :=
  foldl_keeps (fun t => t = s) _ (fun _ h e => by rw [e]; exact q.lateJoin h) _ s rfl

theorem pass (q : NothingUsable s) : pass s = s.setWork { s.work with passesDue := s.work.passesDue - 1 } := by
  have zero : NothingUsable (s.setWork { s.work with passesDue := 0 }) := ⟨q.lines, q.engines⟩
  unfold Machine.pass
  rw [zero.waitingWalk, zero.lateJoinWalk]
  rfl

theorem prerollTests (q : NothingUsable s) : prerollTests s = s := prerollTests_of_none q.engines

theorem passWithTests (q : NothingUsable s) :
    passWithTests s = s.setWork { s.work with passesDue := s.work.passesDue - 1 } := by
  have passed : NothingUsable (s.setWork { s.work with passesDue := s.work.passesDue - 1 }) := ⟨q.lines, q.engines⟩
  rw [Machine.passWithTests, q.pass, passed.prerollTests]

theorem passes (n : Nat) (q : NothingUsable s) (few : s.work.passesDue ≤ n) :
    passes n s = s.setWork { s.work with passesDue := 0 } := by
  induction n generalizing s with
  | zero => exact (setWork_of_noPass (Nat.le_zero.mp few)).symm
  | succ n ih =>
    have passed : NothingUsable (s.setWork { s.work with passesDue := s.work.passesDue - 1 }) := ⟨q.lines, q.engines⟩
    unfold Machine.passes
    split
    · rw [q.passWithTests]
      exact ih passed (show s.work.passesDue - 1 ≤ n by omega)
    · next none => exact (setWork_of_noPass (Nat.le_zero.mp (not_lt.mp none))).symm

theorem settleFor (n : Nat) (q : NothingUsable s) (walks : s.work.walksDue = 0) (few : s.work.passesDue ≤ n) :
    settleFor n s = s.setWork { s.work with passesDue := 0 } := by
  induction n generalizing s with
  | zero => exact (setWork_of_noPass (Nat.le_zero.mp few)).symm
  | succ n ih =>
    have passed : NothingUsable (s.setWork { s.work with passesDue := s.work.passesDue - 1 }) := ⟨q.lines, q.engines⟩
    unfold Machine.settleFor
    rw [if_neg (by omega)]
    split
    · rw [q.passWithTests]
      exact ih passed walks (show s.work.passesDue - 1 ≤ n by omega)
    · next none => exact (setWork_of_noPass (Nat.le_zero.mp (not_lt.mp none))).symm

/-- What an action has brought about is its passes, and they find nothing to do. -/
theorem settle (q : NothingUsable s) (walks : s.work.walksDue = 0) (few : s.work.passesDue ≤ 4096) :
    settle s = s.setWork { s.work with passesDue := 0 } := settleFor 4096 q walks few

end NothingUsable

/-! ### Admissions (R72) -/

/-- The records, the queue and the use counts that an admission leaves, with one pass due. -/
theorem admitRecord_eq (h : Nat) (r : Request) (s : State) {u : State} (hu : u = s.setZar { s.zar with
      requests := tset s.zar.requests h (admitted r s), nextOrder := s.zar.nextOrder + 1 }) :
    admitRecord h r s =
      needPass (useBanks r.fragments (u.setZar { u.zar with queue := insertHandle u h s.zar.queue })) := by
  subst hu
  rw [← insertHandle_congr (s := s.setZar { s.zar with
      requests := tset s.zar.requests h (admitted r s), nextOrder := s.zar.nextOrder + 1 })
    (t := useBanks (admitted r s).fragments ((setRequest h (admitted r s) s).setZar
      { (setRequest h (admitted r s) s).zar with nextOrder := s.zar.nextOrder + 1 })) rfl]
  rfl

namespace NothingUsable

theorem pass_zar (q : NothingUsable s) : (Machine.pass s).zar = s.zar := by rw [q.pass]; rfl

theorem admitRecord (q : NothingUsable s) (h : Nat) (r : Request) : NothingUsable (admitRecord h r s) :=
  ⟨q.lines, by rw [engines_admitRecord]; exact q.engines⟩

theorem of_admitted (q : NothingUsable s) (h : Nat) (r : Request) {u : State} (hu : u = s.setZar { s.zar with
      requests := tset s.zar.requests h (admitted r s), nextOrder := s.zar.nextOrder + 1 }) :
    NothingUsable (useBanks r.fragments (u.setZar { u.zar with queue := insertHandle u h s.zar.queue })) ∧
      (useBanks r.fragments (u.setZar { u.zar with queue := insertHandle u h s.zar.queue })).work = s.work ∧
      (useBanks r.fragments (u.setZar { u.zar with queue := insertHandle u h s.zar.queue })).ch = s.ch := by
  subst hu
  exact ⟨⟨q.lines, q.engines⟩, rfl, rfl⟩

/-- The admitted request waits, and the pass that its admission brings about leaves it so. -/
theorem pass_admitRecord (q : NothingUsable s) (h : Nat) (r : Request) {u : State} (hu : u = s.setZar { s.zar with
      requests := tset s.zar.requests h (admitted r s), nextOrder := s.zar.nextOrder + 1 }) :
    Machine.pass (Machine.admitRecord h r s) =
      useBanks r.fragments (u.setZar { u.zar with queue := insertHandle u h s.zar.queue }) := by
  rw [(q.admitRecord h r).pass, admitRecord_eq h r s hu]
  generalize useBanks r.fragments (u.setZar { u.zar with queue := insertHandle u h s.zar.queue }) = w
  rfl

end NothingUsable

theorem freeHandle?_eq_some (lt : h < 96) (free : (request s h).state = .free)
    (least : ∀ j, j < h → (request s j).state ≠ .free) : freeHandle? s = some h := by
  rw [freeHandle?, List.find?_range_eq_some]
  exact ⟨beq_iff_eq.mpr free, List.mem_range.mpr lt, fun j hj => by simpa using least j hj⟩

theorem pastLatest_iff (s : State) (r : Request) : pastLatest s r = true ↔
    ∃ l, r.latestStart = some l ∧ (earlier l (now s).1 = true ∨ earlier l (lawTime s) = true) := by
  unfold pastLatest
  cases r.latestStart with
  | none => exact ⟨nofun, nofun⟩
  | some l =>
    rw [Bool.or_eq_true]
    exact ⟨fun c => ⟨l, rfl, c⟩, fun ⟨_, e, c⟩ => Option.some.inj e ▸ c⟩

/-! ### ANNOUNCE (R71, R72) -/

theorem exec_announce (h : Header) (a : AnnounceFields) (s : State) :
    exec (.announce h a) s = .next (takeCommand h 0x51 (announce a h.tag) s) := rfl

theorem zmem_offZones (s : State) (z : Nat) (lt : z < 48) : zmem (offZones s) z = true ↔ lineOf s z = .off := by
  simp [offZones, zmem_zwhere, lt]

/-- The zones of a request are all OFF. -/
theorem zdiff_offZones_eq_zero {zs : ZoneSet} (off : ∀ z, z < 48 → zmem zs z = true → lineOf s z = .off) :
    zdiff zs (offZones s) = 0 := zset_eq_zero fun z lt => by
  rw [zmem_zdiff _ _ _ lt]
  by_cases m : zmem zs z = true
  · rw [(zmem_offZones s z lt).mpr (off z lt m), Bool.not_true, Bool.and_false]
  · rw [Bool.not_eq_true _ |>.mp m, Bool.false_and]

/-- The fields that R71 refuses with BADARG. -/
theorem announceBad_of {a : AnnounceFields}
    (bad : a.cls.toNat > 3 ∨ a.priority.toNat > 15 ∨ a.flags.toNat > 7 ∨ a.sourceKind.toNat > 1 ∨
      a.deadlinePresent.toNat > 1 ∨ a.minCoverage.toNat = 0 ∨ a.minCoverage.toNat > 48 ∨
      (a.sourceKind.toNat = 0 ∧ a.template.toNat > 63) ∨
      (a.sourceKind.toNat = 0 ∧ ∃ x, tget s.tex.templates a.template.toNat = some x ∧ x.callField = true) ∨
      (a.sourceKind.toNat = 1 ∧ a.lane.toNat > 39) ∨
      (a.sourceKind.toNat = 1 ∧ a.chime.toNat > 1023 ∧ a.chime.toNat ≠ 0xFFFF) ∨
      (a.flags.getLsbD 2 = true ∧ (a.cls.toNat = 1 ∨ a.cls.toNat = 2 ∨ a.sourceKind.toNat = 1)) ∨
      (a.flags.getLsbD 1 = true ∧ a.sourceKind.toNat = 1) ∨
      (∀ z, z < 48 → zmem a.requested z = true → lineOf s z = .off)) : announceBad a s = true := by
  have live : (a.sourceKind == 1) = decide (a.sourceKind.toNat = 1) := by
    rw [Bool.eq_iff_iff, beq_iff_eq, decide_eq_true_eq]; exact byte_eq_iff _ 1 (by omega)
  have alarm : (a.cls == 1) = decide (a.cls.toNat = 1) := by
    rw [Bool.eq_iff_iff, beq_iff_eq, decide_eq_true_eq]; exact byte_eq_iff _ 1 (by omega)
  have staff : (a.cls == 2) = decide (a.cls.toNat = 2) := by
    rw [Bool.eq_iff_iff, beq_iff_eq, decide_eq_true_eq]; exact byte_eq_iff _ 2 (by omega)
  have uncovered : (a.minCoverage == 0) = decide (a.minCoverage.toNat = 0) := by
    rw [Bool.eq_iff_iff, beq_iff_eq, decide_eq_true_eq, ← BitVec.toNat_inj]; rfl
  have silent : (a.chime != 0xFFFF) = decide (a.chime.toNat ≠ 0xFFFF) := by
    rw [Bool.eq_iff_iff, bne_iff_ne, decide_eq_true_eq, Ne, ← BitVec.toNat_inj]; rfl
  unfold announceBad
  simp only [live, alarm, staff, uncovered, silent, flagBit, Bool.or_eq_true, Bool.and_eq_true, decide_eq_true_eq,
    Bool.not_eq_true', decide_eq_false_iff_not]
  obtain c | c | c | c | c | c | c | c | ⟨kind, x, hx, field⟩ | c | c | c | c | c := bad
  · simp [c]
  · simp [c]
  · simp [c]
  · simp [c]
  · simp [c]
  · simp [c]
  · simp [c]
  · simp [c]
  · rw [hx]; simp [kind, field]
  · simp [c]
  · simp [c]
  · obtain ⟨flag, c | c | c⟩ := c <;> simp [flag, c]
  · simp [c]
  · rw [zdiff_offZones_eq_zero c]; simp

theorem announce_admitted {a : AnnounceFields} {tag : Byte} {r : Request} {k : Nat} (ok : announceBad a s = false)
    (hr : announceRequest a tag s = some r) (st : announceState r s = false) (free : freeHandle? s = some k)
    (room : s.zar.queue.length < 64) : announce a tag s = ⟨.done, announceResult k (pass (admitRecord k r s)),
      settle (prerollTests (pass (admitRecord k r s)))⟩ := by
  unfold announce
  rw [if_neg (by rw [ok]; nofun), hr]
  dsimp only
  rw [if_neg (by rw [st]; nofun), free]
  exact if_neg (by omega)

theorem exec_announce_answered {hd : Header} {a : AnnounceFields} {fields : List Field} (ha : Addressed hd s)
    (run : announce a hd.tag s = ⟨.done, fields, t⟩) (replies : t.ch.replies = s.ch.replies) :
    exec (.announce hd a) s = .next (answered hd 0x51 .done fields s t) := by
  rw [exec_announce, takeCommand_answered ha (by rw [run, replies]; exact ha.room), run]

/-- Settles O39: the checks in their order, and the admission as `announce` carries it out; where no zone is usable the passes that follow find nothing to do. -/
theorem announceAdmitsARequest : Obligations.AnnounceAdmitsARequest := by
  refine ⟨fun h a s ha bad => ?_, fun h a s ha ok kind empty => ?_, fun h a s r ha ok hr late => ?_,
    fun h a s r ha ok hr st full => ?_, ?_, ?_⟩
  · rw [exec_announce, takeCommand_refused ha]
    exact if_pos (announceBad_of bad)
  · have none : announceRequest a h.tag s = Option.none := by
      have playout : a.sourceKind ≠ 1 := fun e => by rw [e] at kind; cases kind
      rw [announceRequest, if_neg playout, announcePlayout, empty]
      rfl
    rw [exec_announce, takeCommand_refused ha]
    unfold announce
    rw [if_neg (by rw [ok]; nofun), none]
  · have state : announceState r s = true := by
      rw [announceState, Bool.or_eq_true, pastLatest_iff]
      exact late.imp (fun c => by rw [c.1, bne_iff_ne.mpr c.2]; rfl) id
    rw [exec_announce, takeCommand_refused ha]
    unfold announce
    rw [if_neg (by rw [ok]; nofun), hr]
    exact if_pos state
  · rw [exec_announce, takeCommand_refused ha]
    unfold announce
    rw [if_neg (by rw [ok]; nofun), hr]
    dsimp only
    rw [if_neg (by rw [st]; nofun)]
    split
    · rfl
    · next k free =>
      obtain ⟨lt, hk⟩ := freeHandle?_spec free
      exact if_pos (full.resolve_left fun none => none k lt hk)
  · intro h a s r k x ha ok hr st lt free least room hx
    have run := announce_admitted (tag := h.tag) ok hr st (freeHandle?_eq_some lt free least) room
    have admits : ActFrame s (pass (admitRecord k r s)) := (ActFrame.admitRecord room).trans (.pass _)
    have follows : ActFrame (pass (admitRecord k r s)) (settle (prerollTests (pass (admitRecord k r s)))) :=
      (ActFrame.prerollTests _).trans (.settle _)
    refine ⟨_, .b4 ((request (pass (admitRecord k r s)) k).latestStart.getD (openValue 5 (pass (admitRecord k r s)))),
      admits, follows, fun d hd => by rw [← hx, hd]; rfl, ?_⟩
    rw [exec_announce_answered ha run (admits.trans follows).replies, hx]
    rfl
  · rintro h a s r k u ha ok hr st lt free least room lines engines settled hu
    have run := announce_admitted (tag := h.tag) ok hr st (freeHandle?_eq_some lt free least) room
    have quiet : NothingUsable s := ⟨lines, engines⟩
    have passed := quiet.pass_admitRecord k r hu
    obtain ⟨still, due, channel⟩ := quiet.of_admitted k r hu
    have record : request (useBanks r.fragments (u.setZar { u.zar with queue := insertHandle u k s.zar.queue })) k =
        admitted r s := by
      rw [← passed, request_of_zar (quiet.admitRecord k r).pass_zar, request_admitRecord,
        if_pos ⟨rfl, lt⟩]
    have last : settle (prerollTests (pass (admitRecord k r s))) =
        useBanks r.fragments (u.setZar { u.zar with queue := insertHandle u k s.zar.queue }) := by
      rw [passed, still.prerollTests, settle_of_settled ⟨due ▸ settled.pass, due ▸ settled.walks⟩]
    rw [last, passed] at run
    refine ⟨.b4 (r.latestStart.getD (openValue 5 (useBanks r.fragments
      (u.setZar { u.zar with queue := insertHandle u k s.zar.queue })))), fun d hd => by rw [hd]; rfl, ?_⟩
    rw [exec_announce_answered ha run (by rw [channel]), announceResult, record]
    rfl

end Sys2Proof.Machine
end

section
/-! The walk takes a due trigger: missed, held, or fired with its request admitted (R157 to R159, R172). -/

namespace Sys2Proof.Machine
set_option Elab.async false

variable {s t : State} {slot i : Nat}

/-! ### The scheduler's records of a trigger -/

theorem callTrigger_of {c : Call} {x : CallTrigger} (hx : c.triggers[i]? = some x) : callTrigger c i = x := by
  rw [callTrigger, List.getD_eq_getElem?_getD, hx]; rfl

theorem lmod_at {α : Type} {l : List α} {x : α} (f : α → α) (hx : l[i]? = some x) : (lmod l i f)[i]? = some (f x) := by
  rw [lmod, List.getElem?_modify, hx]; simp

theorem raiseMissed_spec {c : Call} {x : CallTrigger} (reason : Nat) (hc : tget s.csc.calls slot = c)
    (hx : callTrigger c i = x) (room : s.ch.events.length < 32) :
    raiseMissed slot i reason none none s = s.setCh { s.ch with events := s.ch.events ++
      [⟨0x0A, BitVec.ofNat 8 reason, BitVec.ofNat 16 slot, s.stc.time, s.stc.phase,
        [f1 i, f1 (roleCode x.role), f2 c.number, fTime x.fire, .b1 0xFF, .b1 0xFF]⟩] } := by
  unfold raiseMissed
  rw [pushEvent_spec, if_pos room]
  subst hc hx
  rfl

/-- A trigger that is made MISSED leaves the due list with TRIGGER_MISSED (R172). -/
theorem missTrigger_spec {c : Call} {x : CallTrigger} (reason : Nat) (lt : slot < 256) (hc : c = tget s.csc.calls slot)
    (hx : c.triggers[i]? = some x) (room : s.ch.events.length < 32) :
    missTrigger slot i reason s = (s.setCsc { s.csc with
        calls := tset s.csc.calls slot { c with triggers := c.triggers.modify i (fun y => { y with state := .missed }) }
        due := s.csc.due.filter fun e => e.item != .trigger slot i }).setCh
      { s.ch with events := s.ch.events ++ [⟨0x0A, BitVec.ofNat 8 reason, BitVec.ofNat 16 slot, s.stc.time, s.stc.phase,
        [f1 i, f1 (roleCode x.role), f2 c.number, fTime x.fire, .b1 0xFF, .b1 0xFF]⟩] } := by
  subst hc
  have call : tget (dueDrop (.trigger slot i) (modTrigger slot i (fun t => { t with state := .missed }) s)).csc.calls slot =
      { tget s.csc.calls slot with
        triggers := lmod (tget s.csc.calls slot).triggers i fun y => { y with state := .missed } } :=
    tget_tset_self _ _ _ lt
  have trigger := callTrigger_of (c := { tget s.csc.calls slot with
      triggers := lmod (tget s.csc.calls slot).triggers i fun y => { y with state := .missed } })
    (lmod_at (fun y : CallTrigger => { y with state := .missed }) hx)
  have raised := raiseMissed_spec reason call trigger room
  exact raised

/-! ### A walk that takes a due trigger (R157) -/

theorem takeTrigger_late {tr : Trigger} (plan : planTrigger s (tget s.csc.calls slot) i = some tr)
    (late : (tr.lateLimit : Int) < timeDiff (now s).1 (callTrigger (tget s.csc.calls slot) i).fire) :
    takeTrigger slot i s = missTrigger slot i 0 s := by
  unfold takeTrigger
  dsimp only
  rw [plan]
  exact if_pos late

theorem takeTrigger_held {tr : Trigger} (plan : planTrigger s (tget s.csc.calls slot) i = some tr)
    (due : timeDiff (now s).1 (callTrigger (tget s.csc.calls slot) i).fire ≤ tr.lateLimit)
    (held : needsPlatform (tget s.csc.calls slot) tr.target = true ∨ justLoaded s slot = true) :
    takeTrigger slot i s = s := by
  unfold takeTrigger
  dsimp only
  rw [plan]
  dsimp only
  rw [if_neg (not_lt.mpr due)]
  exact if_pos (Bool.or_eq_true _ _ ▸ held)

theorem takeTrigger_fires {tr : Trigger} (plan : planTrigger s (tget s.csc.calls slot) i = some tr)
    (due : timeDiff (now s).1 (callTrigger (tget s.csc.calls slot) i).fire ≤ tr.lateLimit)
    (platform : tr.target = .concourse ∨ (tget s.csc.calls slot).platform ≠ 0) (loaded : slot ∉ s.period.loaded) :
    ∀ {t}, (fireTrigger slot i tr (callTrigger (tget s.csc.calls slot) i).fire s = (t, .missed) → takeTrigger slot i s = t) ∧
      (fireTrigger slot i tr (callTrigger (tget s.csc.calls slot) i).fire s = (t, .admitted) →
        takeTrigger slot i s = t.setWork { t.work with walkAdmitted := t.work.walkAdmitted + 1 }) := by
  have free : ¬ (needsPlatform (tget s.csc.calls slot) tr.target || justLoaded s slot) = true := by
    simp only [needsPlatform, justLoaded, Bool.or_eq_true, Bool.and_eq_true, bne_iff_ne, beq_iff_eq,
      List.contains_iff_mem, not_or, not_and]
    exact ⟨fun ne => platform.resolve_left ne, loaded⟩
  unfold takeTrigger
  dsimp only
  rw [plan]
  dsimp only
  rw [if_neg (not_lt.mpr due), if_neg free]
  exact fun {t} => ⟨fun fires => by rw [fires], fun fires => by rw [fires]⟩

theorem fireTrigger_empty {tr : Trigger} (fire : Time) (empty : tget s.tex.templates tr.template = none) :
    fireTrigger slot i tr fire s = (missTrigger slot i 1 s, .missed) := by
  unfold fireTrigger expand
  dsimp only
  rw [empty]
  rfl

/-! ### A firing that is admitted where no zone is usable (R73, R159) -/

theorem schedulerAdmit_of {r : Request} {record : Nat → State → State} {k : Nat}
    (zones : zdiff r.requested (offZones s) ≠ 0) (starts : pastLatest s r = false) (room : s.zar.queue.length < 64)
    (free : freeHandle? s = some k) : schedulerAdmit r record s =
      (ownPasses s fun s' => record k (admitRecord k { r with requested := zdiff r.requested (offZones s), minCoverage := 1, level := 16384 } s'),
       .admitted) := by
  unfold schedulerAdmit
  dsimp only
  rw [if_neg zones, if_neg (by rw [Bool.not_eq_true]; exact starts), if_neg (by omega), free]

/-- The passes of an admission that no zone is usable for leave what the admission has made. -/
theorem ownPasses_of_nothingUsable {cause : State → State}
    (q : NothingUsable (cause (s.setWork { s.work with passesDue := 0 })))
    (few : (cause (s.setWork { s.work with passesDue := 0 })).work.passesDue ≤ 256) :
    ∃ w, ownPasses s cause = (cause (s.setWork { s.work with passesDue := 0 })).setWork w := by
  unfold ownPasses
  rw [passBound, q.passes 256 few]
  exact ⟨_, rfl⟩

theorem csc_admitRecord (k : Nat) (r : Request) (s : State) : (admitRecord k r s).csc = s.csc := by
  simp only [admitRecord, needPass, enqueue, useBanks, setRequest, State.setWork_csc, State.setZar_csc, State.setCmc_csc]

theorem work_admitRecord (k : Nat) (r : Request) (s : State) :
    (admitRecord k r s).work = { s.work with passesDue := s.work.passesDue + 1 } := by
  simp only [admitRecord, needPass, enqueue, useBanks, setRequest, State.setWork_work, State.setZar_work, State.setCmc_work]

theorem ch_admitRecord (k : Nat) (r : Request) (s : State) : (admitRecord k r s).ch = s.ch := by
  simp only [admitRecord, needPass, enqueue, useBanks, setRequest, State.setWork_ch, State.setZar_ch, State.setCmc_ch]

theorem stc_admitRecord (k : Nat) (r : Request) (s : State) : (admitRecord k r s).stc = s.stc := by
  simp only [admitRecord, needPass, enqueue, useBanks, setRequest, State.setWork_stc, State.setZar_stc, State.setCmc_stc]

theorem zar_recordFired (slot i h : Nat) (s : State) : (recordFired slot i h s).zar = s.zar := rfl

theorem ch_recordFired (slot i h : Nat) (s : State) : (recordFired slot i h s).ch = s.ch := rfl

theorem stc_recordFired (slot i h : Nat) (s : State) : (recordFired slot i h s).stc = s.stc := rfl

theorem csc_recordFired (slot i h : Nat) (s : State) : (recordFired slot i h s).csc = { s.csc with
    calls := tset s.csc.calls slot { tget s.csc.calls slot with
      triggers := lmod (tget s.csc.calls slot).triggers i fun t => { t with state := .fired, handle := some h } }
    due := dueRemove (.trigger slot i) s.csc.due } := rfl

/-- A SCHEDULED call is OPEN after its first admission, and CALL_STATE says so (R159, R172). -/
theorem openCall_spec {c : Call} (lt : slot < 256) (hc : tget s.csc.calls slot = c) (scheduled : c.state = .scheduled) :
    (openCall slot s).zar = s.zar ∧
    (openCall slot s).csc = { s.csc with calls := tset s.csc.calls slot { c with state := .open } } ∧
    ((openCall slot s).ch.eventLost = true ∨ ∃ u, (openCall slot s).ch.events = s.ch.events ++
      [⟨0x0C, 2, BitVec.ofNat 16 slot, s.stc.time, s.stc.phase,
        [.b1 1, f2 c.number, fBool c.arrival, fTime (expectedTime c)] ++ u⟩]) := by
  subst hc
  unfold openCall
  rw [if_pos scheduled]
  unfold raiseCallState
  rw [pushEvent_spec]
  refine ⟨rfl, rfl, ?_⟩
  have call : tget (setCall slot { tget s.csc.calls slot with state := .open } s).csc.calls slot =
      { tget s.csc.calls slot with state := .open } := tget_tset_self _ _ _ lt
  rw [call]
  dsimp only
  split
  · exact .inr ⟨_, rfl⟩
  · exact .inl rfl

/-- What a firing that is admitted leaves: the request waits, and the trigger is FIRED with its handle in an OPEN call (R159). -/
structure FiredWaiting (slot i k : Nat) (c : Call) (x : CallTrigger) (r : Request) (s t : State) : Prop where
  record : request t k = { r with state := .waiting, order := s.zar.nextOrder }
  waits : k ∈ t.zar.queue
  opened : (tget t.csc.calls slot).state = .open
  fired : (tget t.csc.calls slot).triggers[i]? = some { x with state := .fired, handle := some k }
  due : ∀ e, e ∈ t.csc.due ↔ e ∈ s.csc.due ∧ e.item ≠ .trigger slot i
  event : t.ch.eventLost = true ∨ ∃ u, t.ch.events = s.ch.events ++
    [⟨0x0C, 2, BitVec.ofNat 16 slot, s.stc.time, s.stc.phase,
      [.b1 1, f2 c.number, fBool c.arrival, fTime (expectedTime c)] ++ u⟩]

theorem firedWaiting_openCall {k : Nat} {c : Call} {x : CallTrigger} (r : Request) (w : Work) (lt : slot < 256)
    (hk : k < 96) (hc : c = tget s.csc.calls slot) (hx : c.triggers[i]? = some x) (scheduled : c.state = .scheduled)
    (ht : t = (recordFired slot i k (admitRecord k r s)).setWork w) : FiredWaiting slot i k c x r s (openCall slot t) := by
  subst hc
  have zar : t.zar = (admitRecord k r s).zar := by rw [ht, State.setWork_zar, zar_recordFired]
  have csc : t.csc = { s.csc with
      calls := tset s.csc.calls slot { tget s.csc.calls slot with
        triggers := lmod (tget s.csc.calls slot).triggers i fun t => { t with state := .fired, handle := some k } }
      due := dueRemove (.trigger slot i) s.csc.due } := by
    rw [ht, State.setWork_csc, csc_recordFired, csc_admitRecord]
  have ch : t.ch = s.ch := by rw [ht, State.setWork_ch, ch_recordFired, ch_admitRecord]
  have stc : t.stc = s.stc := by rw [ht, State.setWork_stc, stc_recordFired, stc_admitRecord]
  have call : tget t.csc.calls slot = { tget s.csc.calls slot with
      triggers := lmod (tget s.csc.calls slot).triggers i fun t => { t with state := .fired, handle := some k } } := by
    rw [csc]; exact tget_tset_self _ _ _ lt
  obtain ⟨opensZar, opensCsc, event⟩ := openCall_spec lt call scheduled
  have opened := congrArg (fun x => tget x.calls slot) opensCsc
  dsimp only at opened
  rw [tget_tset_self _ _ _ lt] at opened
  constructor
  case record =>
    rw [request_of_zar (opensZar.trans zar), request_admitRecord, if_pos ⟨rfl, hk⟩, admitted]
  case waits =>
    rw [opensZar, zar, zar_admitRecord]
    exact (mem_insertHandle ..).mpr (.inl rfl)
  case opened => rw [opened]
  case fired => rw [opened]; exact lmod_at _ hx
  case due =>
    intro e
    rw [opensCsc, csc]
    simp [dueRemove]
  case event => rw [ch, stc] at event; exact event

theorem work_recordFired (slot i h : Nat) (s : State) : (recordFired slot i h s).work = s.work := rfl

theorem recordFired_usable {k : Nat} (q : NothingUsable s) : NothingUsable (recordFired slot i k s) := ⟨q.lines, q.engines⟩

theorem fireTrigger_admitted {tr : Trigger} {fire : Time} {y : Expanded}
    (expands : expand s tr.template (tr.deadline.map (timeAdd (expectedTime (tget s.csc.calls slot))))
      (some (callInfo (tget s.csc.calls slot))) (some (fire, tr.lateLimit)) = some y)
    (admits : schedulerAdmit (triggerRequest s slot i tr y) (recordFired slot i) s = (t, .admitted)) :
    fireTrigger slot i tr fire s = (openCall slot t, .admitted) := by
  unfold fireTrigger
  dsimp only
  rw [expands]
  dsimp only
  rw [admits]

/-- Settles O54: the branches of `takeTrigger`, and the admission where the passes find nothing to do. -/
theorem aWalkTakesADueTrigger : Obligations.AWalkTakesADueTrigger := by
  refine ⟨fun s slot i c tr x lt hc plan hx why room => ?_, fun s slot i c tr hc plan due needs none => ?_,
    fun s slot i c tr hc plan due loaded => ?_, ?_⟩
  · subst hc
    by_cases late : (tr.lateLimit : Int) < timeDiff (now s).1 x.fire
    · rw [takeTrigger_late plan (by rw [callTrigger_of hx]; exact late), missTrigger_spec 0 lt rfl hx room, if_pos late]
      rfl
    · obtain ⟨due, platform, loaded, empty⟩ := why.resolve_left late
      rw [(takeTrigger_fires plan (by rw [callTrigger_of hx]; exact due) platform loaded).1 (fireTrigger_empty _ empty),
        missTrigger_spec 1 lt rfl hx room, if_neg late]
      rfl
  · subst hc
    exact takeTrigger_held plan due (.inl (by
      rw [needsPlatform, Bool.and_eq_true, bne_iff_ne, beq_iff_eq]
      exact ⟨needs, none⟩))
  · subst hc
    exact takeTrigger_held plan due (.inr (List.contains_iff_mem.mpr loaded))
  · intro s slot i c tr x y k r lt loaded hc plan hx due platform scheduled expands zones starts room hk free least lines
      engines hr
    subst hc
    have quiet : NothingUsable s := ⟨lines, engines⟩
    have starts : pastLatest s (triggerRequest s slot i tr y) = false := Bool.eq_false_iff.mpr fun past => by
      obtain ⟨l, hl, early⟩ := (pastLatest_iff ..).mp past
      obtain ⟨reads, law⟩ := starts l hl
      exact early.elim (by rw [reads]; nofun) (by rw [law]; nofun)
    have admits := schedulerAdmit_of (record := recordFired slot i) zones starts room
      (freeHandle?_eq_some hk free least)
    obtain ⟨q, hq⟩ : ∃ q, q = { triggerRequest s slot i tr y with
      requested := zdiff (triggerRequest s slot i tr y).requested (offZones s), minCoverage := 1, level := 16384 } := ⟨_, rfl⟩
    obtain ⟨v, hv⟩ : ∃ v, v = s.setWork { s.work with passesDue := 0 } := ⟨_, rfl⟩
    obtain ⟨w, own⟩ := ownPasses_of_nothingUsable (s := s) (cause := fun s' => recordFired slot i k (admitRecord k q s'))
      (recordFired_usable (NothingUsable.admitRecord (s := s.setWork { s.work with passesDue := 0 }) ⟨quiet.lines, quiet.engines⟩ k q))
      (by rw [work_recordFired, work_admitRecord]; exact Nat.le_of_ble_eq_true rfl)
    rw [← hq, own] at admits
    dsimp only at admits
    rw [← hv] at admits
    have taken := (takeTrigger_fires plan (by rw [callTrigger_of hx]; exact due) platform loaded).2
      (fireTrigger_admitted (by rw [callTrigger_of hx]; exact expands) admits)
    have left := firedWaiting_openCall (s := v) q w lt hk (by rw [hv]; rfl) hx scheduled rfl
    refine ⟨_, rfl, ActFrame.takeTrigger slot i s, ?_⟩
    rw [taken]
    subst hv
    refine ⟨?_, left.waits, left.opened, left.fired, left.due, left.event⟩
    rw [request_of_zar (State.setWork_zar ..), left.record, hr, hq]
    rfl

end Sys2Proof.Machine
end

section
/-! The end of a fade: the ENDING request takes its outcome (R86, R108). -/

namespace Sys2Proof.Machine
set_option Elab.async false

variable {s t : State} {e h : Nat}

/-! ### What a release leaves as it is -/

theorem releaseEngine_spec (e : Nat) (s : State) :
    releaseEngine e s = (s.setZar (releaseEngine e s).zar).setEngines (releaseEngine e s).engines :=
  releaseEngine?_spec (some e) s

theorem ch_releaseEngine (e : Nat) (s : State) : (releaseEngine e s).ch = s.ch := by rw [releaseEngine_spec]; rfl

theorem zlc_releaseEngine (e : Nat) (s : State) : (releaseEngine e s).zlc = s.zlc := by rw [releaseEngine_spec]; rfl

theorem work_releaseEngine (e : Nat) (s : State) : (releaseEngine e s).work = s.work := by rw [releaseEngine_spec]; rfl

/-! ### The outcome of an ENDING request -/

theorem exec_fadeEnd (on : s.period.started = true) : exec (.fadeEnd e) s = .next (settle (endFade e s)) := by
  change Host.Outcome.next (settle (endFade e (startPeriod s))) = _
  rw [startPeriod_of_started on]

theorem endFade_of_due (stopping : (tget s.engines e).state = .stopping) (faded : (tget s.engines e).fade = 0)
    (bound : (tget s.engines e).handle = some h) : endFade e s = needPass (releaseEngine e (takeOutcome h s)) := by
  unfold endFade
  dsimp only
  rw [if_pos (by rw [fadeDue, stopping, faded]; rfl), bound]

theorem endFade_of_not_due (early : (tget s.engines e).state ≠ .stopping ∨ 0 < (tget s.engines e).fade) : endFade e s = s := by
  refine if_neg ?_
  rw [fadeDue, Bool.and_eq_true, beq_iff_eq, beq_iff_eq]
  rintro ⟨stopping, faded⟩
  exact early.elim (· stopping) (by omega)

theorem takeOutcome_ends {c : EndCause} (ends : (request s h).ending = .ends c) : takeOutcome h s = endRequest h c s := by
  unfold takeOutcome
  dsimp only
  rw [ends]

theorem takeOutcome_past (returns : (request s h).ending = .returns) (past : pastLatest s (request s h) = true) :
    takeOutcome h s = endRequest h .expired s := by
  unfold takeOutcome
  dsimp only
  rw [returns]
  exact if_pos past

theorem takeOutcome_full (returns : (request s h).ending = .returns) (present : pastLatest s (request s h) = false)
    (full : 64 ≤ s.zar.queue.length) : takeOutcome h s = endRequest h .preempted s := by
  unfold takeOutcome
  dsimp only
  rw [returns]
  dsimp only
  rw [if_neg (by rw [present]; nofun)]
  exact if_pos full

theorem takeOutcome_returns (returns : (request s h).ending = .returns) (present : pastLatest s (request s h) = false)
    (room : s.zar.queue.length < 64) : takeOutcome h s = requeue h s := by
  unfold takeOutcome
  dsimp only
  rw [returns]
  dsimp only
  rw [if_neg (by rw [present]; nofun)]
  exact if_neg (by omega)

/-- Where the fade is faded and its request ends, what follows the end follows it in the frame of the arbiter. -/
theorem fadeEnd_ends {c : EndCause} (on : s.period.started = true) (stopping : (tget s.engines e).state = .stopping)
    (faded : (tget s.engines e).fade = 0) (bound : (tget s.engines e).handle = some h)
    (outcome : takeOutcome h s = endRequest h c s) :
    ∃ t, exec (.fadeEnd e) s = .next t ∧ ActFrame (endRequest h c s) t :=
  ⟨_, exec_fadeEnd on, by
    rw [endFade_of_due stopping faded bound, outcome]
    exact ((ActFrame.releaseEngine ..).trans (.needPass _)).trans (.settle _)⟩

/-! ### Returns (R86) -/

/-- A return raises ANNOUNCE_REQUEUED; but for that, and the pass it makes due, it writes the arbiter and the engines alone. -/
theorem requeue_spec (h : Nat) (s : State) : ∃ z x, requeue h s = needPass (pushEvent 0x06
    (BitVec.ofNat 8 ((request s h).restarts + 1)) h [f1 (originKind (request s h).origin), f1 (originId (request s h).origin),
      f1 (originTrigger (request s h).origin), fZones (request s h).requested] ((s.setZar z).setEngines x)) := by
  unfold requeue
  dsimp only
  rw [releaseEngine?_spec]
  exact ⟨_, _, rfl⟩

/-- What the end of a fade leaves of a request that returns, where no zone is usable (R86, R108). -/
structure ReturnsWaiting (e h : Nat) (s t : State) : Prop where
  record : request t h = returned (request s h)
  waits : h ∈ t.zar.queue
  engine : tget t.engines e = idled (tget s.engines e)
  claims : ∀ z, z < 48 → claimHandle (claim t z) ≠ some h
  events : t.ch.events = s.ch.events ++ [⟨0x06, BitVec.ofNat 8 ((request s h).restarts + 1), BitVec.ofNat 16 h,
    s.stc.time, s.stc.phase, [f1 (originKind (request s h).origin), f1 (originId (request s h).origin),
      f1 (originTrigger (request s h).origin), fZones (request s h).requested]⟩]

namespace ReturnsWaiting

theorem requeue (lt : h < 96) (hr : (request s h).engine = some e) (he : e < 6) (room : s.ch.events.length < 32) :
    ReturnsWaiting e h s (requeue h s) where
  record := by rw [request_requeue, if_pos ⟨rfl, lt⟩]
  waits := by rw [zar_requeue]; exact (mem_insertHandle ..).mpr (.inl rfl)
  engine := by rw [engine_requeue, if_pos ⟨hr, he⟩]
  claims z lt held := by
    rw [claim_requeue] at held
    split at held
    · cases held
    · next other => exact other held
  events := by
    obtain ⟨z, x, eq⟩ := requeue_spec h s
    rw [eq]
    exact events_pushEvent (s := (s.setZar z).setEngines x) room ..

theorem releaseEngine (q : ReturnsWaiting e h s t) (he : e < 6) : ReturnsWaiting e h s (releaseEngine e t) where
  record := (request_releaseEngine ..).trans q.record
  waits := by rw [queue_releaseEngine]; exact q.waits
  engine := by rw [engine_releaseEngine, if_pos ⟨rfl, he⟩, q.engine]; rfl
  claims z lt := by rw [claim_releaseEngine]; exact q.claims z lt
  events := by rw [ch_releaseEngine]; exact q.events

theorem setWork (q : ReturnsWaiting e h s t) (w : Work) : ReturnsWaiting e h s (t.setWork w) :=
  ⟨q.record, q.waits, q.engine, q.claims, q.events⟩

end ReturnsWaiting

theorem zlc_requeue (h : Nat) (s : State) : (requeue h s).zlc = s.zlc := by
  obtain ⟨z, x, eq⟩ := requeue_spec h s
  rw [eq, needPass, State.setWork_zlc, pushEvent_spec]
  rfl

theorem work_requeue (h : Nat) (s : State) : (requeue h s).work = { s.work with passesDue := s.work.passesDue + 1 } := by
  obtain ⟨z, x, eq⟩ := requeue_spec h s
  rw [eq, needPass, pushEvent_spec]
  rfl

/-- An engine that is not in PREROLL is not so after a return. -/
theorem NothingUsable.requeue (q : NothingUsable s) (h : Nat) : NothingUsable (requeue h s) where
  lines z lt := by rw [lineOf, zlc_requeue]; exact q.lines z lt
  engines k lt := by
    rw [engine_requeue]
    split
    · nofun
    · exact q.engines k lt

theorem NothingUsable.releaseEngine (q : NothingUsable s) (e : Nat) : NothingUsable (releaseEngine e s) where
  lines z lt := by rw [lineOf, zlc_releaseEngine]; exact q.lines z lt
  engines k lt := by
    rw [engine_releaseEngine]
    split
    · nofun
    · exact q.engines k lt

/-- Settles O46: the outcome by its case, and the return where the passes find nothing to do. -/
theorem aFadeEndTakesTheOutcome : Obligations.AFadeEndTakesTheOutcome := by
  refine ⟨fun s e x h c on he hx stopping faded bound hh hr ends => ?_, fun s e x h c on he hx stopping faded bound hh hr returns hc why => ?_,
    fun s e x h r on he hx stopping faded bound hh hr engine returns starts room lines engines settled events => ?_,
    fun s e on he settled early => ?_⟩
  · subst hx
    exact fadeEnd_ends on stopping faded bound (takeOutcome_ends ends)
  · subst hx
    refine fadeEnd_ends on stopping faded bound ?_
    split at hc
    · next past => rw [hc, takeOutcome_past returns ((pastLatest_iff ..).mpr past)]
    · next present =>
      rw [hc, takeOutcome_full returns (Bool.eq_false_iff.mpr (mt (pastLatest_iff ..).mp present)) (why.resolve_left present)]
  · subst hx hr
    have quiet : NothingUsable s := ⟨lines, engines⟩
    have present : pastLatest s (request s h) = false := Bool.eq_false_iff.mpr fun past => by
      obtain ⟨l, hl, early⟩ := (pastLatest_iff ..).mp past
      obtain ⟨reads, law⟩ := starts l hl
      exact early.elim (by rw [reads]; nofun) (by rw [law]; nofun)
    have still : NothingUsable (needPass (releaseEngine e (requeue h s))) :=
      ⟨((quiet.requeue h).releaseEngine e).lines, ((quiet.requeue h).releaseEngine e).engines⟩
    have work : (needPass (releaseEngine e (requeue h s))).work = { s.work with passesDue := s.work.passesDue + 1 + 1 } := by
      rw [needPass, State.setWork_work, work_releaseEngine, work_requeue]
    have left := ((ReturnsWaiting.requeue hh engine he events).releaseEngine he).setWork
      { (needPass (releaseEngine e (requeue h s))).work with passesDue := 0 }
    have run : exec (.fadeEnd e) s = .next ((releaseEngine e (requeue h s)).setWork
        { (needPass (releaseEngine e (requeue h s))).work with passesDue := 0 }) := by
      rw [exec_fadeEnd on, endFade_of_due stopping faded bound, takeOutcome_returns returns present room,
        still.settle (by rw [work]; exact settled.walks) (by rw [work]; dsimp only; rw [settled.pass]; omega)]
      rfl
    exact ⟨_, run, ((ActFrame.requeue room).trans (.releaseEngine ..)).trans (.setWork ..), left.record, left.waits,
      left.engine, left.claims, left.events⟩
  · rw [exec_fadeEnd on, endFade_of_not_due early, settle_of_settled settled]

end Sys2Proof.Machine
end

section
/-! The exit from PREROLL and the boundary of a fragment (R79 to R81, R99, R104, R105, R111). -/

namespace Sys2Proof.Machine
set_option Elab.async false

variable {s t : State} {e h i : Nat}

/-! ### Joins at a boundary (R80) -/

theorem pendingLive_eq {zs : ZoneSet} (hz : ∀ z, z < 48 → (zmem zs z = true ↔ claim s z = .pendingJoin h ∧ lineOf s z = .live)) :
    pendingLive s h = zs := zset_ext fun z lt => by
  rw [Bool.eq_iff_iff, hz z lt, pendingLive, zmem_zwhere]
  simp [lt]

theorem pendingLive_eq_zero (none : ∀ z, z < 48 → claim s z ≠ .pendingJoin h) : pendingLive s h = 0 :=
  zset_eq_zero fun z lt => by
    rw [pendingLive, zmem_zwhere]
    simp [none z lt]

/-- A join of an ACTIVE request writes the claim table alone. -/
theorem joinLive_active (active : (request s h).state = .active) :
    joinLive h s = s.setZar { s.zar with claims := (joinLive h s).zar.claims } := by
  by_cases none : pendingLive s h = 0
  · rw [joinLive_of_none none]; rfl
  · rw [joinLive_further none (by rw [active]; nofun)]; rfl

theorem events_joinLive_first (some : pendingLive s h ≠ 0) (granted : (request s h).state = .granted) (lt : h < 96)
    (room : s.ch.events.length < 32) : (joinLive h s).ch.events = s.ch.events ++
      [⟨0x03, BitVec.ofNat 8 (classNum (request s h).cls), BitVec.ofNat 16 h, s.stc.time, s.stc.phase,
        [f1 (originKind (request s h).origin), f1 (originId (request s h).origin), f1 (originTrigger (request s h).origin),
         f1? (request s h).engine, fZones (pendingLive s h), fZones (request s h).granted,
         f1 (requestFlags (request s h).flags), f2 (request s h).restarts]⟩] := by
  rw [joinLive_first some granted, raiseStarted, events_pushEvent (by exact room), request_setRequest, if_pos ⟨rfl, lt⟩]
  rfl

/-- A join makes nothing due. -/
theorem work_joinLive (h : Nat) (s : State) : (joinLive h s).work = s.work := by
  rw [joinLive_spec]; rfl

/-! ### The exit from PREROLL (R99) -/

theorem exec_prerollExit (on : s.period.started = true) : exec (.prerollExit e) s = .next (settle (leavePreroll e s)) := by
  change Host.Outcome.next (settle (leavePreroll e (startPeriod s))) = _
  rw [startPeriod_of_started on]

theorem prerollReady_iff (s : State) (x : Engine) : prerollReady s x = true ↔
    x.state = .preroll ∧ ∀ z, z < 48 → zmem x.waitSet z = true → lineOf s z = .live := by
  rw [prerollReady, Bool.and_eq_true, beq_iff_eq, List.all_eq_true]
  simp only [zlist, List.mem_filter, List.mem_range, beq_iff_eq, and_imp]

theorem leavePreroll_begins (ready : prerollReady s (tget s.engines e) = true) (bound : (tget s.engines e).handle = some h)
    (plays : (request s h).pendingEnd = none) :
    leavePreroll e s = joinLive h (setEngine e (begun (tget s.engines e)) s) := by
  unfold leavePreroll
  dsimp only
  rw [if_pos ready, bound]
  dsimp only
  rw [plays, begun, bound]

theorem leavePreroll_ends {c : EndCause} (ready : prerollReady s (tget s.engines e) = true)
    (bound : (tget s.engines e).handle = some h) (ends : (request s h).pendingEnd = some c) :
    leavePreroll e s = endRequest h c s := by
  unfold leavePreroll
  dsimp only
  rw [if_pos ready, bound]
  dsimp only
  rw [ends]

/-! ### Fragment boundaries (R104) -/

theorem exec_fragmentBoundary (on : s.period.started = true) :
    exec (.fragmentBoundary e) s = .next (settle (boundary e s)) := by
  change Host.Outcome.next (settle (boundary e (startPeriod s))) = _
  rw [startPeriod_of_started on]

theorem boundary_of_due {f : Fragment} (playing : (tget s.engines e).state = .playing) (bound : (tget s.engines e).handle = some h)
    (place : (tget s.engines e).fragment = some i) (hf : (request s h).fragments[i]? = some f)
    (full : (tget s.engines e).position = fragmentFrames f) : boundary e s = takeBoundary e h i s := by
  have fragment : engineFragment s (tget s.engines e) = some f := by
    rw [engineFragment, place, engineList, bound]
    exact hf
  have due : boundaryDue s (tget s.engines e) = true := by
    rw [boundaryDue, playing, fragment, full]
    exact beq_self_eq_true _
  unfold boundary
  dsimp only
  rw [due, bound, place]

theorem boundary_of_not_playing (idle : (tget s.engines e).state ≠ .playing) : boundary e s = s := by
  have early : boundaryDue s (tget s.engines e) = false := by
    rw [boundaryDue, beq_eq_false_iff_ne.mpr idle, Bool.false_and]
  unfold boundary
  dsimp only
  rw [early]

theorem takeBoundary_ends {c : EndCause} (ends : (request s h).pendingEnd = some c) :
    takeBoundary e h i s = endRequest h c s := by
  unfold takeBoundary
  rw [ends]

theorem takeBoundary_chime (plays : (request s h).pendingEnd = none) (live : (request (joinLive h s) h).live = true) :
    takeBoundary e h i s = handOver e h (joinLive h s) := by
  unfold takeBoundary
  rw [plays]
  exact if_pos live

theorem takeBoundary_complete (plays : (request s h).pendingEnd = none) (playout : (request (joinLive h s) h).live = false)
    (last : i + 1 = (request (joinLive h s) h).fragments.length) (once : (request (joinLive h s) h).flags.repeats = false) :
    takeBoundary e h i s = endRequest h .complete (joinLive h s) := by
  unfold takeBoundary
  rw [plays]
  dsimp only
  rw [if_neg (by rw [playout]; nofun)]
  exact if_pos ⟨last, once⟩

theorem takeBoundary_goes_on (plays : (request s h).pendingEnd = none) (playout : (request (joinLive h s) h).live = false)
    (more : i + 1 ≠ (request (joinLive h s) h).fragments.length ∨ (request (joinLive h s) h).flags.repeats = true) :
    takeBoundary e h i s = continueList e h i (joinLive h s) := by
  unfold takeBoundary
  rw [plays]
  dsimp only
  rw [if_neg (by rw [playout]; nofun), if_neg]
  rintro ⟨last, once⟩
  exact more.elim (· last) (by rw [once]; nofun)

theorem continueList_next (more : i + 1 < (request s h).fragments.length) : continueList e h i s =
    s.setEngines (tset s.engines e { tget s.engines e with fragment := some (i + 1), position := 0 }) := if_pos more

/-- The list begins again with LOOP (R105). -/
theorem continueList_loop (last : i + 1 = (request s h).fragments.length) (room : s.ch.events.length < 32) :
    continueList e h i s = (s.setEngines (tset s.engines e { tget s.engines e with
        fragment := some 0, position := 0, loops := min 65535 ((tget s.engines e).loops + 1) })).setCh
      { s.ch with events := s.ch.events ++ [⟨0x07, BitVec.ofNat 8 e, BitVec.ofNat 16 h, s.stc.time, s.stc.phase,
        [f2 (min 65535 ((tget s.engines e).loops + 1)), fZones (request s h).granted, fZones (joinedZones s h),
         f2 (request s h).restarts]⟩] } := by
  unfold continueList
  dsimp only
  rw [if_neg (by omega), raiseLoop, pushEvent_spec, if_pos (by exact room)]
  rfl

/-! ### The end of a chime, where nothing waits (R80, R111) -/

theorem addWait_of_no_preroll (none : ∀ g, g < 6 → (tget s.engines g).state ≠ .preroll) (o : Option Nat) (zs : ZoneSet) :
    addWait o zs s = s := by
  cases o with
  | none => rfl
  | some g =>
    exact if_neg (engine_not_preroll none g)

/-- What late joins can do where no engine is in PREROLL: they join zones. -/
structure JoinsOnly (s t : State) : Prop where
  engines : t.engines = s.engines
  queue : t.zar.queue = s.zar.queue
  work : t.work = s.work
  record : ∀ k, (request t k).engine = (request s k).engine ∧ (request t k).current = (request s k).current
  joined : ∀ z k, claim s z = .joined k → claim t z = .joined k

namespace JoinsOnly

theorem refl (s : State) : JoinsOnly s s := ⟨rfl, rfl, rfl, fun _ => ⟨rfl, rfl⟩, fun _ _ => id⟩

theorem trans {u : State} (a : JoinsOnly s t) (b : JoinsOnly t u) : JoinsOnly s u where
  engines := b.engines.trans a.engines
  queue := b.queue.trans a.queue
  work := b.work.trans a.work
  record k := ⟨(b.record k).1.trans (a.record k).1, (b.record k).2.trans (a.record k).2⟩
  joined z k c := b.joined z k (a.joined z k c)

theorem joinLive (h : Nat) (s : State) : JoinsOnly s (joinLive h s) where
  engines := engines_joinLive h s
  queue := queue_joinLive h s
  work := work_joinLive h s
  record k := by
    rw [request_joinLive]
    split
    · next c => rw [← c.1.1]; exact ⟨rfl, rfl⟩
    · exact ⟨rfl, rfl⟩
  joined z k c := by
    rw [claim_joinLive]
    split
    · next m =>
      rw [pendingLive, zmem_zwhere, c] at m
      simp at m
    · exact c

theorem joinLane (h : Nat) (s : State) : JoinsOnly s (joinLane h s) := by
  obtain e | e := joinLane_cases h s
  · rw [e]; exact joinLive h s
  · rw [e]; exact refl s

theorem takeLate (none : ∀ g, g < 6 → (tget s.engines g).state ≠ .preroll) (h : Nat) :
    JoinsOnly s (takeLate h (lateZones s (request s h)) s) := by
  have eq : Machine.takeLate h (lateZones s (request s h)) s = setRequest h
      (withPartial { request s h with granted := (request s h).granted ||| lateZones s (request s h) })
        (writeClaims (lateZones s (request s h)) (.pendingJoin h) s) := addWait_of_no_preroll (by exact none) ..
  refine ⟨by rw [eq]; rfl, queue_takeLate .., by rw [eq]; rfl, fun k => ?_, fun z k c => ?_⟩
  · rw [request_takeLate]
    split
    · next c => rw [← c.1]; exact ⟨rfl, rfl⟩
    · exact ⟨rfl, rfl⟩
  · rw [claim_takeLate]
    split
    · next m => rw [((zmem_lateZones ..).mp m).2.2.2] at c; cases c
    · exact c

theorem lateJoin (none : ∀ g, g < 6 → (tget s.engines g).state ≠ .preroll) (h : Nat) : JoinsOnly s (lateJoin s h) := by
  obtain eq | ⟨-, eq⟩ := lateJoin_cases s h
  · rw [eq]; exact refl s
  · rw [eq]; exact (takeLate none h).trans (joinLane ..)

theorem lateJoinWalk (none : ∀ g, g < 6 → (tget s.engines g).state ≠ .preroll) : JoinsOnly s (lateJoinWalk s) :=
  foldl_keeps (JoinsOnly s) _ (fun _ h q => q.trans (lateJoin (by rw [q.engines]; exact none) h)) _ s (refl s)

/-- A pass over an empty queue is a late-join walk. -/
theorem passWithTests (none : ∀ g, g < 6 → (tget s.engines g).state ≠ .preroll) (empty : s.zar.queue = []) :
    JoinsOnly (s.setWork { s.work with passesDue := s.work.passesDue - 1 }) (passWithTests s) := by
  have walked := lateJoinWalk (s := s.setWork { s.work with passesDue := 0 }) none
  have waiting : waitingWalk (s.setWork { s.work with passesDue := 0 }) = s.setWork { s.work with passesDue := 0 } := by
    rw [waitingWalk, State.setWork_zar, empty]
    rfl
  have passed : pass s = (Machine.lateJoinWalk (s.setWork { s.work with passesDue := 0 })).setWork
      { s.work with passesDue := s.work.passesDue - 1 } := by
    rw [pass, waiting, walked.work]
    rfl
  have tested : Machine.passWithTests s = pass s :=
    prerollTests_of_none (by rw [passed, State.setWork_engines, walked.engines]; exact none)
  rw [tested, passed]
  exact ⟨walked.engines, walked.queue, rfl, walked.record, walked.joined⟩

end JoinsOnly

theorem settleFor_of_settled (n : Nat) (w : Settled s) : settleFor n s = s := by
  cases n with
  | zero => rfl
  | succ n => simp [settleFor, w.walks, w.pass]

/-- The one pass that is due, where it brings about nothing more. -/
theorem settle_of_one_pass (walks : s.work.walksDue = 0) (one : s.work.passesDue = 1) (w : Settled (passWithTests s)) :
    settle s = passWithTests s := by
  change settleFor (4095 + 1) s = _
  rw [settleFor, if_neg (by omega), if_pos (by omega), settleFor_of_settled 4095 w]

/-- What leaves the work to do as it stood leaves a settled state settled. -/
theorem settle_of_work (settled : Settled s) (work : t.work = s.work) : settle t = t :=
  settle_of_settled ⟨by rw [work]; exact settled.pass, by rw [work]; exact settled.walks⟩

theorem engines_handOver (e h : Nat) (s : State) :
    (handOver e h s).engines = tset s.engines e (idled (tget s.engines e)) := by
  rw [handOver_eq, needPass, State.setWork_engines, engines_releaseEngine]
  rfl

theorem request_handOver (e h : Nat) (s : State) (k : Nat) : request (handOver e h s) k =
    if h = k ∧ h < 96 then { request s h with engine := none, current := .lane } else request s k := by
  rw [handOver_eq, needPass, request_of_zar (State.setWork_zar ..), request_releaseEngine, request_setRequest]

theorem claim_handOver (e h : Nat) (s : State) (z : Nat) : claim (handOver e h s) z = claim s z := by
  rw [handOver_eq, needPass, claim_of_zar (State.setWork_zar ..), claim_releaseEngine]
  rfl

theorem queue_handOver (e h : Nat) (s : State) : (handOver e h s).zar.queue = s.zar.queue := by
  rw [handOver_eq, needPass, State.setWork_zar, queue_releaseEngine]
  rfl

theorem work_handOver (e h : Nat) (s : State) : (handOver e h s).work = { s.work with passesDue := s.work.passesDue + 1 } := by
  rw [handOver_eq, needPass, State.setWork_work, work_releaseEngine]
  rfl

/-- The release of a chime's engine brings about one late-join walk where the queue is empty. -/
theorem settle_handOver (settled : Settled s) (empty : s.zar.queue = [])
    (none : ∀ g, g < 6 → (tget s.engines g).state ≠ .preroll) :
    ∃ w, JoinsOnly ((handOver e h s).setWork w) (settle (handOver e h s)) := by
  have still : ∀ g, g < 6 → (tget (handOver e h s).engines g).state ≠ .preroll := fun g lt => by
    rw [engines_handOver, tget_tset]
    split
    · nofun
    · exact none g lt
  have joins := JoinsOnly.passWithTests still ((queue_handOver e h s).trans empty)
  have work : (passWithTests (handOver e h s)).work = s.work := by
    rw [joins.work, State.setWork_work, work_handOver]
    rfl
  rw [settle_of_one_pass (by rw [work_handOver]; exact settled.walks) (by rw [work_handOver, settled.pass])
    ⟨by rw [work]; exact settled.pass, by rw [work]; exact settled.walks⟩]
  exact ⟨_, joins⟩

/-- Settles O45: each boundary by its case; what it leaves due is nothing, an end's passes, or the pass of a released chime. -/
theorem prerollExitsAndFragmentBoundaries : Obligations.PrerollExitsAndFragmentBoundaries := by
  refine ⟨?_, ?_, ?_, ?_, ?_, ?_, ?_, fun s e on he settled idle => ?_⟩
  · intro s e x h r zs on he hx preroll bound hh lines hr plays granted settled hz some
    subst hx hr
    have live := pendingLive_eq (s := setEngine e (begun (tget s.engines e)) s) (h := h) (zs := zs) hz
    have work := work_joinLive h (setEngine e (begun (tget s.engines e)) s)
    have run : exec (.prerollExit e) s = .next (joinLive h (setEngine e (begun (tget s.engines e)) s)) := by
      rw [exec_prerollExit on, leavePreroll_begins ((prerollReady_iff ..).mpr ⟨preroll, lines⟩) bound plays,
        settle_of_work settled work]
    refine ⟨_, run, (ActFrame.setEngine ..).trans (.joinLive ..), ?_, fun z lt => ?_, ?_, fun room => ?_⟩
    · rw [engines_joinLive]
      exact tget_tset_self _ _ _ he
    · rw [claim_joinLive, live]
      rfl
    · rw [request_joinLive, if_pos ⟨⟨rfl, hh⟩, live ▸ some, granted⟩]
      rfl
    · rw [events_joinLive_first (s := setEngine e (begun (tget s.engines e)) s) (live ▸ some) granted hh room, live]
      rfl
  · intro s e x h c on he hx preroll bound lines ends
    subst hx
    refine ⟨_, exec_prerollExit on, ?_⟩
    rw [leavePreroll_ends ((prerollReady_iff ..).mpr ⟨preroll, lines⟩) bound ends]
    exact .settle _
  · intro s e z on he settled early
    have wait : prerollReady s (tget s.engines e) = false := Bool.eq_false_iff.mpr fun ready => by
      obtain ⟨preroll, lines⟩ := (prerollReady_iff ..).mp ready
      exact early.elim (· preroll) fun ⟨lt, waits, off⟩ => off (lines z lt waits)
    rw [exec_prerollExit on, leavePreroll_of_not_ready wait, settle_of_settled settled]
  · intro s e x h r i f on he hx playing bound hh place hr hf full plays playout active settled none
    subst hx hr
    have still := joinLive_of_none (pendingLive_eq_zero none)
    have run : exec (.fragmentBoundary e) s = .next (settle (takeBoundary e h i s)) := by
      rw [exec_fragmentBoundary on, boundary_of_due playing bound place hf full]
    refine ⟨fun more => ?_, fun last repeats room => ?_, fun last once => ?_⟩
    · rw [run, takeBoundary_goes_on plays (by rw [still]; exact playout) (.inl (by rw [still]; omega)), still,
        continueList_next more]
      exact congrArg _ (settle_of_work settled rfl)
    · rw [run, takeBoundary_goes_on plays (by rw [still]; exact playout) (.inr (by rw [still]; exact repeats)), still,
        continueList_loop last room]
      exact congrArg _ (settle_of_work settled rfl)
    · refine ⟨_, run, ?_⟩
      rw [takeBoundary_complete plays (by rw [still]; exact playout) (by rw [still]; exact last) (by rw [still]; exact once),
        still]
      exact .settle _
  · intro s e x h r i f zs on he hx playing bound hh place hr hf full plays playout active more settled hz
    subst hx hr
    have joins := joinLive_active active
    have record : request (joinLive h s) h = request s h := by
      rw [request_joinLive, if_neg fun c => by rw [active] at c; cases c.2.2]
    have run : exec (.fragmentBoundary e) s = .next ((joinLive h s).setEngines
        (tset s.engines e { tget s.engines e with fragment := some (i + 1), position := 0 })) := by
      rw [exec_fragmentBoundary on, boundary_of_due playing bound place hf full,
        takeBoundary_goes_on plays (by rw [record]; exact playout) (.inl (by rw [record]; omega)),
        continueList_next (by rw [record]; exact more), engines_joinLive]
      exact congrArg _ (settle_of_work settled (work_joinLive h s))
    refine ⟨_, run, ?_, fun z lt => ?_⟩
    · rw [joins]
      rfl
    · rw [← pendingLive_eq hz]
      exact claim_joinLive ..
  · intro s e x h i f on he hx playing bound place hf full c ends
    subst hx
    refine ⟨_, exec_fragmentBoundary on, ?_⟩
    rw [boundary_of_due playing bound place hf full, takeBoundary_ends ends]
    exact .settle _
  · intro s e x h r i f on he hx playing bound hh place hr hf full plays live active settled empty unmarked none
    subst hx hr
    have joins := joinLive_active active
    have record : request (joinLive h s) h = request s h := by
      rw [request_joinLive, if_neg fun c => by rw [active] at c; cases c.2.2]
    have run : exec (.fragmentBoundary e) s = .next (settle (handOver e h (joinLive h s))) := by
      rw [exec_fragmentBoundary on, boundary_of_due playing bound place hf full,
        takeBoundary_chime plays (by rw [record]; exact live)]
    obtain ⟨w, follows⟩ := settle_handOver (s := joinLive h s) (e := e) (h := h)
      ⟨by rw [work_joinLive]; exact settled.pass, by rw [work_joinLive]; exact settled.walks⟩
      (by rw [queue_joinLive]; exact empty) (by rw [engines_joinLive]; exact none)
    have handed : request ((handOver e h (joinLive h s)).setWork w) h =
        { request (joinLive h s) h with engine := Option.none, current := .lane } := by
      rw [request_of_zar (State.setWork_zar ..), request_handOver, if_pos ⟨rfl, hh⟩]
    refine ⟨_, run, ((ActFrame.joinLive ..).trans (.handOver ..)).trans (.settle _), ?_, ?_, ?_, fun z lt pending line => ?_⟩
    · rw [follows.engines, State.setWork_engines, engines_handOver, tget_tset_self _ _ _ he, engines_joinLive]
      rfl
    · rw [(follows.record h).1, handed]
    · rw [(follows.record h).2, handed]
    · refine follows.joined z h ?_
      rw [claim_of_zar (State.setWork_zar ..), claim_handOver, claim_joinLive, if_pos (zmem_pendingLive lt pending line)]
  · rw [exec_fragmentBoundary on, boundary_of_not_playing idle, settle_of_settled settled]

end Sys2Proof.Machine
end

section
/-! TALK_TIMEOUT (R88, R138). -/

namespace Sys2Proof.Machine
set_option Elab.async false

variable {s t : State} {h : Nat}

theorem exec_talkTimeout (on : s.period.started = true) : exec (.talkTimeout h) s = .next (talkTimeout h s) := by
  change Host.Outcome.next (talkTimeout h (startPeriod s)) = _
  rw [startPeriod_of_started on]

theorem talkDue_iff (s : State) (h : Nat) : talkDue s h = true ↔ (request s h).live = true ∧
    ((request s h).state = .granted ∨ (request s h).state = .active) ∧ (request s h).talkCount = some 0 ∧
    s.period.tick ≠ none := by
  rw [talkDue, liveHolder]
  simp only [Bool.and_eq_true, Bool.or_eq_true, beq_iff_eq, Option.isSome_iff_ne_none, and_assoc]

theorem talkTimeout_of_due (lt : h < 96) (due : talkDue s h = true) :
    talkTimeout h s = tickNotice (fun s => settle (endLive h .talkTimeout s)) s := by
  rw [talkTimeout, if_pos lt, talkTimeouts, List.filter_cons_of_pos due]
  rfl

theorem talkTimeout_of_not_due (early : talkDue s h ≠ true) : talkTimeout h s = s := by
  unfold talkTimeout
  split
  · rw [talkTimeouts, List.filter_cons_of_neg early]
    rfl
  · rfl

theorem zmem_changedHolders (s t : State) {z : Nat} (lt : z < 48) :
    zmem (changedHolders s t) z = true ↔ claimHandle (claim s z) ≠ claimHandle (claim t z) := by
  rw [changedHolders, zmem_zwhere, Bool.and_eq_true, bne_iff_ne]
  exact and_iff_right (decide_eq_true lt)

/-- A notice notes the zones whose holder it has changed (R138). -/
theorem zmem_tickZones_tickNotice (f : State → State) (s : State) {z : Nat} (lt : z < 48)
    (changed : claimHandle (claim s z) ≠ claimHandle (claim (tickNotice f s) z)) :
    zmem (tickNotice f s).period.tickZones z = true := by
  change zmem ((onTick f s).period.tickZones ||| changedHolders s (onTick f s)) z = true
  rw [zmem_or, (zmem_changedHolders s (onTick f s) lt).mpr changed, Bool.or_true]

theorem events_tickNotice (f : State → State) (s : State) : (tickNotice f s).ch.events = (f (noticed s)).ch.events := rfl

theorem onTick_eq (f : State → State) (s : State) : onTick f s =
    ((f (noticed s)).setStc { (f (noticed s)).stc with time := s.stc.time, phase := s.stc.phase }).setPeriod
      { (f (noticed s)).period with read := s.period.read } := rfl

/-- A notice that leaves the claim table as it is does what its action does. -/
theorem tickNotice_of_same_claims {f : State → State} {z : Zar} {x : Vector Engine 6}
    (acts : f (noticed s) = ((noticed s).setZar z).setEngines x) (claims : z.claims = s.zar.claims) :
    tickNotice f s = (s.setZar z).setEngines x := by
  have shown : onTick f s = (s.setZar z).setEngines x := by
    rw [onTick_eq, acts]
    rfl
  have none : changedHolders s ((s.setZar z).setEngines x) = 0 := zset_eq_zero fun y lt => by
    rw [changedHolders, zmem_zwhere]
    have same : claim ((s.setZar z).setEngines x) y = claim s y := by
      change tget z.claims y = _
      rw [claims]
      rfl
    rw [same, bne_self_eq_false, Bool.and_false]
  unfold tickNotice
  dsimp only
  rw [shown, none, show ∀ a : ZoneSet, a ||| 0 = a from fun _ => BitVec.or_zero]
  rfl

/-- Settles O44: at once by the lane, through ENDING while the chime plays, on the tick-end notice. -/
theorem aTalkTimeoutEndsALiveRequest : Obligations.ATalkTimeoutEndsALiveRequest := by
  refine ⟨?_, ?_, fun s h on early => ?_⟩
  · intro s h r T on hh hr live held count tick lane room
    subst hr
    have due : talkDue s h = true := (talkDue_iff ..).mpr ⟨live, held, count, by rw [tick]; nofun⟩
    have acts : ActFrame (endRequest h .talkTimeout (noticed s)) (settle (endLive h .talkTimeout (noticed s))) := by
      rw [endLive, if_pos (show (request (noticed s) h).current = .lane from lane)]
      exact .settle _
    have raised := (events_endRequest h .talkTimeout (noticed s) room).trans acts.events
    have stamp : (noticed s).stc.time = T := by
      change s.period.tick.getD s.stc.time = T
      rw [tick]
      rfl
    obtain ⟨d, hd⟩ : ∃ d, endedEvent h .talkTimeout (noticed s) =
        ⟨0x04, 5, BitVec.ofNat 16 h, T, 0, f1 (originKind (request s h).origin) :: d⟩ :=
      ⟨_, by rw [endedEvent, stamp]; rfl⟩
    rw [hd] at raised
    refine ⟨_, d, by rw [exec_talkTimeout on, talkTimeout_of_due hh due],
      ActFrame.tickNotice (fun u => (ActFrame.endLive ..).trans (.settle _)) s, ?_,
      fun z lt changed => zmem_tickZones_tickNotice _ s lt changed⟩
    rw [events_tickNotice]
    exact raised
  · intro s h r e on hh hr live held count tick chime engine he settled
    subst hr
    have due : talkDue s h = true := (talkDue_iff ..).mpr ⟨live, held, count, tick⟩
    have acts : settle (endLive h .talkTimeout (noticed s)) = ((noticed s).setZar { (noticed s).zar with
          requests := tset s.zar.requests h (ending (request s h) (.ends .talkTimeout)) }).setEngines
        (tset s.engines e (stopped (tget s.engines e))) := by
      rw [endLive, if_neg (by rw [show (request (noticed s) h).current = .engine from chime]; nofun),
        settle_of_settled (Settled.enterEnding (s := noticed s) ⟨settled.pass, settled.walks⟩ ..),
        enterEnding_engine (s := noticed s) _ engine]
      rfl
    rw [exec_talkTimeout on, talkTimeout_of_due hh due, tickNotice_of_same_claims acts (by rfl)]
    rfl
  · rw [exec_talkTimeout on, talkTimeout_of_not_due]
    intro due
    obtain ⟨live, -, count, tick⟩ := (talkDue_iff ..).mp due
    obtain c | c | c := early
    · rw [live] at c; cases c
    · exact c count
    · exact tick c

end Sys2Proof.Machine
end

section
/-! Grants of zones that no request holds, and the stop of a victim (R76, R77, R97). -/

namespace Sys2Proof.Machine
set_option Elab.async false

variable {s t : State} {h e : Nat} {zs : ZoneSet} {r : Request}

/-! ### What a request can obtain (R76) -/

theorem usableLine_iff (l : LineState) : usableLine l = true ↔ l ≠ .off ∧ l ≠ .fault := by
  cases l <;> simp [usableLine]

/-- Where no requested zone is held, what a request can obtain is what is usable. -/
theorem obtainable_of_free (free : ∀ z, z < 48 → zmem r.requested z = true → claim s z = .empty)
    (hz : ∀ z, z < 48 → (zmem zs z = true ↔ zmem r.requested z = true ∧ lineOf s z ≠ .off ∧ lineOf s z ≠ .fault)) :
    obtainable s r = zs := zset_ext fun z lt => by
  rw [Bool.eq_iff_iff, zmem_obtainable, hz z lt, usableLine_iff]
  refine ⟨fun ⟨_, asked, usable, _⟩ => ⟨asked, usable⟩, fun ⟨asked, usable⟩ => ⟨lt, asked, usable, ?_⟩⟩
  rw [takeable, free z lt asked]
  rfl

/-- A grant of zones that no request holds takes them from no one (R82). -/
theorem takeZones_of_free (free : ∀ z, z < 48 → zmem zs z = true → claim s z = .empty) : takeZones h zs s = s := by
  have none : holdersOf s zs = [] := by
    rw [holdersOf, List.filterMap_eq_nil_iff]
    intro k _
    refine if_pos (zset_eq_zero fun z lt => ?_)
    rw [zmem_and, Bool.and_eq_false_iff]
    by_cases m : zmem zs z = true
    · refine .inr (Bool.eq_false_iff.mpr fun held => ?_)
      rw [zmem_claimedZones _ _ lt, free z lt m] at held
      cases held
    · exact .inl (Bool.eq_false_iff.mpr m)
  rw [takeZones, none]
  rfl

theorem idleEngine?_eq_some (lt : e < 6) (idle : (tget s.engines e).state = .idle)
    (least : ∀ f, f < e → (tget s.engines f).state ≠ .idle) : idleEngine? s = some e := by
  rw [idleEngine?, List.find?_range_eq_some]
  exact ⟨beq_iff_eq.mpr idle, List.mem_range.mpr lt, fun f hf => by simpa using least f hf⟩

theorem idleEngine?_eq_none (none : ∀ e, e < 6 → (tget s.engines e).state ≠ .idle) : idleEngine? s = Option.none := by
  rw [idleEngine?, List.find?_eq_none]
  intro e he
  rw [beq_iff_eq]
  exact none e (List.mem_range.mp he)

/-! ### The waiting walk with one request, case by case (R76, R77) -/

/-- An engine is available to the walk (R76). -/
def available (s : State) (blocked : Bool) : Bool := !blocked && (idleEngine? s).isSome

theorem available_of_idle (idle : idleEngine? s = some e) : available s false = true := by
  rw [available, idle]; rfl

theorem available_of_none {blocked : Bool} (none : blocked = true ∨ ∀ e, e < 6 → (tget s.engines e).state ≠ .idle) :
    available s blocked = false := by
  obtain e | e := none
  · rw [available, e]; rfl
  · rw [available, idleEngine?_eq_none e]; exact Bool.and_false _

/-- A request whose coverage is met: it is granted with what it can obtain, stops a victim, or waits. -/
theorem walkRequest_of_covered {blocked : Bool} (waits : (request s h).state = .waiting) (gain : zs ≠ 0)
    (hzs : obtainable s (request s h) = zs)
    (covered : (if (request s h).cls = .evac then 1 else (request s h).minCoverage) ≤ zcard zs)
    (source : (request s h).live = false ∨ s.itp.link ≠ .lost) : walkRequest (s, blocked) h =
      if (request s h).live || available s blocked then
        (grant h zs (wantsEngine (request s h) && available s blocked) s, blocked)
      else if (request s h).cls = .evac then (stopVictim s, true) else (s, blocked) := by
  unfold walkRequest
  dsimp only
  rw [if_neg (not_not.mpr waits), hzs, if_neg]
  · rfl
  · rintro (few | none | ⟨live, lost⟩)
    · omega
    · exact gain none
    · exact source.elim (by rw [live]; nofun) (· lost)

theorem walkRequest_grants_engine (waits : (request s h).state = .waiting) (gain : zs ≠ 0)
    (hzs : obtainable s (request s h) = zs)
    (covered : (if (request s h).cls = .evac then 1 else (request s h).minCoverage) ≤ zcard zs)
    (source : (request s h).live = false ∨ s.itp.link ≠ .lost) (wants : wantsEngine (request s h) = true)
    (idle : idleEngine? s = some e) : walkRequest (s, false) h = (grant h zs true s, false) := by
  rw [walkRequest_of_covered waits gain hzs covered source, available_of_idle idle, Bool.or_true, if_pos rfl, wants]
  rfl

theorem wantsEngine_playout (playout : r.live = false) : wantsEngine r = true := by rw [wantsEngine, playout]; rfl

theorem walkRequest_of_lost {blocked : Bool} (live : (request s h).live = true) (lost : s.itp.link = .lost) :
    walkRequest (s, blocked) h = (s, blocked) := by
  unfold walkRequest
  dsimp only
  split
  · rfl
  · exact if_pos (.inr (.inr ⟨live, lost⟩))

/-- Without an engine a PLAYOUT request that is not EVAC waits (R76). -/
theorem walkRequest_of_no_engine {blocked : Bool} (playout : (request s h).live = false) (cls : (request s h).cls ≠ .evac)
    (none : available s blocked = false) : walkRequest (s, blocked) h = (s, blocked) := by
  unfold walkRequest
  dsimp only
  split
  · rfl
  · split
    · rfl
    · rw [if_neg]
      rw [playout, Bool.false_or]
      exact Bool.eq_false_iff.mp none

theorem zcard_zero : zcard 0 = 0 := by decide

/-- An EVAC request that lacks an engine alone stops the victim, and blocks the walk's later requests of engines (R77). -/
theorem walkRequest_of_blocked {blocked : Bool} (waits : (request s h).state = .waiting)
    (playout : (request s h).live = false) (evac : (request s h).cls = .evac)
    (covered : 1 ≤ zcard (obtainable s (request s h))) (none : available s blocked = false) :
    walkRequest (s, blocked) h = (stopVictim s, true) := by
  have gain : obtainable s (request s h) ≠ 0 := fun none => by rw [none, zcard_zero] at covered; omega
  rw [walkRequest_of_covered waits gain rfl (by rw [if_pos evac]; exact covered) (.inl playout), playout, none, if_pos evac]
  rfl

/-! ### The stop of the victim (R77) -/

theorem stopVictim_of_marked (marked : s.zar.evacMark ≠ none) : stopVictim s = s :=
  if_pos (Option.isSome_iff_ne_none.mpr marked)

theorem stopVictim_of_none (none : victim s = none) : stopVictim s = s := by
  unfold stopVictim
  split
  · rfl
  · rw [none]

/-- The outcome of the victim (R77). -/
def victimOutcome (r : Request) : EndingOutcome :=
  match r.pendingEnd with
  | some c => .ends c
  | none => if r.flags.resume = true ∧ r.restarts < 3 then .returns else .ends .preempted

theorem stopVictim_of_victim {k : Nat} (unmarked : s.zar.evacMark = none) (hv : victim s = some (k, e)) :
    stopVictim s = (enterEnding k (victimOutcome (request s k)) s).setZar
      { (enterEnding k (victimOutcome (request s k)) s).zar with evacMark := some e } := by
  unfold stopVictim
  rw [if_neg (by rw [unmarked]; nofun), hv]
  rfl

/-! ### A grant with its engine (R76, R97) -/

theorem joinLane_of_engine (engine : (request s h).current = .engine) : joinLane h s = s :=
  if_neg fun c => by rw [engine] at c; cases c.1

/-- The state at a grant when the zones are the request's. -/
def holding (h : Nat) (zs : ZoneSet) (bind : Bool) (s : State) : State :=
  writeClaims zs (.pendingJoin h) (takeZones h zs (granting h zs bind s))

theorem grant_engine (engine : (request (holding h zs true s) h).current = .engine)
    (idle : idleEngine? (holding h zs true s) = some e) : grant h zs true s = bound h zs e (holding h zs true s) := by
  have binds : bindIdle h zs true (holding h zs true s) = bound h zs e (holding h zs true s) := by
    unfold bindIdle
    rw [idle]
    rfl
  rw [grant_eq]
  change joinLane h (bindIdle h zs true (holding h zs true s)) = _
  rw [binds]
  refine joinLane_of_engine ?_
  rw [request_bound]
  split <;> exact engine

theorem holding_of_free {bind : Bool} (free : ∀ z, z < 48 → zmem zs z = true → claim s z = .empty) :
    holding h zs bind s = writeClaims zs (.pendingJoin h) (granting h zs bind s) := by
  unfold holding
  rw [takeZones_of_free (s := granting h zs bind s) free]

theorem request_holding_of_free {bind : Bool} (free : ∀ z, z < 48 → zmem zs z = true → claim s z = .empty) (k : Nat) :
    request (holding h zs bind s) k = if h = k ∧ h < 96 then grantedRecord (request s h) zs bind else request s k := by
  rw [holding_of_free free]
  exact request_granting ..

theorem grantedRecord_bound (gain : zs ≠ 0) : grantedRecord r zs true =
    { r with state := .granted, granted := zs, flags := { r.flags with isPartial := zs != r.requested } } := by
  have nonzero : (zs != 0) = true := bne_iff_ne.mpr gain
  simp only [grantedRecord, withPartial, Bool.not_true, Bool.and_false, Bool.or_false, nonzero, Bool.true_and,
    Bool.false_eq_true, if_false]

/-- What a grant with the lowest idle engine leaves, where no request holds the zones (R76, R97). -/
theorem grant_free (lt : h < 96) (engine : (request s h).current = .engine) (gain : zs ≠ 0)
    (free : ∀ z, z < 48 → zmem zs z = true → claim s z = .empty) (idle : idleEngine? s = some e) :
    grant h zs true s = bound h zs e (holding h zs true s) ∧
    request (grant h zs true s) h =
      { request s h with
        state := .granted, granted := zs, engine := some e
        flags := { (request s h).flags with isPartial := zs != (request s h).requested } } ∧
    (∀ k, k ≠ h → request (grant h zs true s) k = request s k) ∧
    (∀ z, claim (grant h zs true s) z = if zmem zs z then .pendingJoin h else claim s z) ∧
    (grant h zs true s).zar.queue = s.zar.queue.filter (· != h) ∧
    (grant h zs true s).engines = tset s.engines e ⟨.preroll, some h, zs, none, 0, 0, 0, (tget s.engines e).output⟩ := by
  have record := request_holding_of_free (h := h) (zs := zs) (bind := true) free
  have own : request (holding h zs true s) h = grantedRecord (request s h) zs true := by rw [record, if_pos ⟨rfl, lt⟩]
  have grants : grant h zs true s = bound h zs e (holding h zs true s) := by
    refine grant_engine ?_ ?_
    · rw [own, grantedRecord_bound gain]; exact engine
    · rw [holding_of_free free]; exact idle
  rw [grants]
  refine ⟨rfl, ?_, fun k other => ?_, fun z => ?_, ?_, ?_⟩
  · rw [request_bound, if_pos ⟨rfl, lt⟩, own, grantedRecord_bound gain]
  · rw [request_bound, if_neg fun c => other c.1.symm, record, if_neg fun c => other c.1.symm]
  · rw [claim_bound, holding_of_free free, claim_writeClaims]
    rfl
  · rw [queue_bound, holding_of_free free]
    rfl
  · rw [holding_of_free free]
    rfl

/-- Settles O40: a grant of free zones, the wait for an engine, and the stop of the victim that the search finds. -/
theorem theWaitingWalkGrants : Obligations.TheWaitingWalkGrants := by
  refine ⟨?_, fun s h blocked playout cls none => walkRequest_of_no_engine playout cls (available_of_none none), ?_, ?_, ?_, ?_⟩
  · intro s h r zs e lt hr waits playout engine free hz gain covered he idle least
    subst hr
    have found := idleEngine?_eq_some he idle least
    have grants := walkRequest_grants_engine waits gain (obtainable_of_free free hz) covered (.inl playout)
      (wantsEngine_playout playout) found
    obtain ⟨eq, record, others, claims, queue, engines⟩ :=
      grant_free lt engine gain (fun z lt m => free z lt ((hz z lt).mp m).1) found
    have own : tget (grant h zs true s).engines e = ⟨.preroll, some h, zs, none, 0, 0, 0, (tget s.engines e).output⟩ := by
      rw [engines, tget_tset_self _ _ _ he]
    refine ⟨_, grants, record, fun k _ other => others k other, fun z _ => claims z, queue, own, ?_⟩
    rw [own, ← engines]
    rw [eq, holding_of_free fun z lt m => free z lt ((hz z lt).mp m).1]
    rfl
  · intro s h blocked r k e v hr waits playout evac covered none unmarked hv hw he hk
    subst hr hw
    obtain ⟨cls, source, engine, -⟩ := (victimEngine_iff ..).mp (victim_engine hv)
    have stops := walkRequest_of_blocked waits playout evac covered (available_of_none none)
    rw [stopVictim_of_victim unmarked hv] at stops
    refine ⟨_, stops, cls, source, engine, ?_, ?_, rfl, ?_, ?_⟩
    · change request (enterEnding k _ s) k = _
      rw [request_enterEnding, if_pos ⟨rfl, hk⟩]
      rfl
    · change tget (enterEnding k _ s).engines e = _
      rw [engine_enterEnding, if_pos ⟨engine, he⟩]
      rfl
    · change (enterEnding k _ s).zar.claims = _
      rw [zar_enterEnding]
      rfl
    · change (enterEnding k _ s).zar.queue = _
      rw [zar_enterEnding]
      rfl
  · intro s k e v hv hw
    subst hw
    obtain ⟨lt, own, least⟩ := (victim_spec s).some k e hv
    obtain ⟨cls, playout, engine, plays⟩ := (victimEngine_iff ..).mp own
    refine ⟨lt, cls, playout, engine, plays, fun j f w hj hw cls playout engine plays => ?_⟩
    subst hw
    have candidate : victimEngine s j = some f := (victimEngine_iff ..).mpr ⟨cls, playout, engine, plays⟩
    have before := least j hj (by rw [candidate]; nofun)
    rw [not_standsBefore_iff] at before
    omega
  · intro s j f hj cls playout engine plays none
    have candidate : victimEngine s j = some f := (victimEngine_iff ..).mpr ⟨cls, playout, engine, plays⟩
    rw [(victim_spec s).none none j hj] at candidate
    cases candidate
  · intro s h blocked r hr waits playout evac covered none still
    subst hr
    rw [walkRequest_of_blocked waits playout evac covered (available_of_none none),
      still.elim stopVictim_of_none stopVictim_of_marked]

end Sys2Proof.Machine
end

section
/-! Late joins, and grants of LIVE sources with and without their chime (R76, R78, R98, R111, R112). -/

namespace Sys2Proof.Machine
set_option Elab.async false

variable {s t : State} {h e : Nat} {zs j : ZoneSet} {r : Request}

/-! ### Late joins (R78, R98) -/

theorem lateJoin_of_held (held : (request s h).state = .granted ∨ (request s h).state = .active)
    (hzs : lateZones s (request s h) = zs) (gain : zs ≠ 0) : lateJoin s h = joinLane h (takeLate h zs s) := by
  unfold lateJoin
  dsimp only
  rw [if_neg fun c => held.elim c.1 c.2, hzs, if_neg gain]
  rfl

theorem lateZones_eq (hz : ∀ z, z < 48 → (zmem zs z = true ↔ zmem r.requested z = true ∧ lineOf s z ≠ .off ∧
    lineOf s z ≠ .fault ∧ claim s z = .empty)) : lateZones s r = zs := zset_ext fun z lt => by
  rw [Bool.eq_iff_iff, zmem_lateZones, hz z lt, usableLine_iff, and_iff_right lt, and_assoc]

theorem lateJoin_of_not_held (idle : (request s h).state ≠ .granted ∧ (request s h).state ≠ .active) : lateJoin s h = s :=
  if_pos idle

theorem lateJoin_of_none (none : lateZones s (request s h) = 0) : lateJoin s h = s := by
  unfold lateJoin
  dsimp only
  split <;> rfl

/-- Zones that join a wait set touch the engines alone. -/
theorem addWait_spec (o : Option Nat) (zs : ZoneSet) (s : State) : addWait o zs s = s.setEngines (addWait o zs s).engines := by
  cases o with
  | none => rfl
  | some e => simp only [addWait]; split <;> rfl

theorem takeLate_spec (h : Nat) (zs : ZoneSet) (s : State) : takeLate h zs s =
    (s.setZar { s.zar with
      requests := tset s.zar.requests h (withPartial { request s h with granted := (request s h).granted ||| zs })
      claims := (takeLate h zs s).zar.claims }).setEngines (takeLate h zs s).engines := by
  unfold takeLate
  rw [addWait_spec]
  rfl

/-- With zones gained a granted set is not empty, so PARTIAL says that it is not the requested set (R68). -/
theorem withPartial_gain (gain : zs ≠ 0) : withPartial { r with granted := r.granted ||| zs } =
    { r with granted := r.granted ||| zs, flags := { r.flags with isPartial := (r.granted ||| zs) != r.requested } } := by
  have nonzero : ((r.granted ||| zs) != 0) = true := bne_iff_ne.mpr fun none => gain (BitVec.or_eq_zero_iff.mp none).2
  rw [withPartial, nonzero, Bool.true_and]

theorem request_takeLate_self (lt : h < 96) (gain : zs ≠ 0) : request (takeLate h zs s) h =
    { request s h with
      granted := (request s h).granted ||| zs
      flags := { (request s h).flags with isPartial := ((request s h).granted ||| zs) != (request s h).requested } } := by
  rw [request_takeLate, if_pos ⟨rfl, lt⟩, withPartial_gain gain]

theorem lineOf_takeLate (z : Nat) : lineOf (takeLate h zs s) z = lineOf s z := by rw [takeLate_spec]; rfl

/-- The zones that join at once with a late join by the lane (R79). -/
theorem pendingLive_takeLate (none : ∀ z, z < 48 → claim s z ≠ .pendingJoin h)
    (hj : ∀ z, z < 48 → (zmem j z = true ↔ zmem zs z = true ∧ lineOf s z = .live)) :
    pendingLive (takeLate h zs s) h = j := pendingLive_eq fun z lt => by
  rw [hj z lt, claim_takeLate, lineOf_takeLate]
  refine and_congr_left fun _ => ?_
  split
  · next m => exact ⟨fun _ => rfl, fun _ => m⟩
  · next m => exact ⟨fun c => absurd c m, fun c => absurd c (none z lt)⟩

/-! ### Grants without an engine (R76, R112) -/

theorem grant_lane (lane : (request (holding h zs false s) h).current = .lane)
    (granted : (request (holding h zs false s) h).state = .granted) :
    grant h zs false s = joinLive h (holding h zs false s) := by
  rw [grant_eq]
  exact joinLane_eq lane (.inl granted)

theorem grantedRecord_lane (gain : zs ≠ 0) (live : r.live = true) : grantedRecord r zs false =
    { r with
      state := .granted, granted := zs, current := .lane
      flags := { r.flags with isPartial := zs != r.requested, nochime := r.flags.nochime || r.current == .engine } } := by
  have nonzero : (zs != 0) = true := bne_iff_ne.mpr gain
  have lane : (if (r.current == .engine) = true then CurrentSource.lane else r.current) = .lane := by
    cases r.current <;> rfl
  simp only [grantedRecord, withPartial, live, Bool.not_false, Bool.and_true, Bool.true_and, nonzero, lane]

theorem claim_holding_of_free {bind : Bool} (free : ∀ z, z < 48 → zmem zs z = true → claim s z = .empty) (z : Nat) :
    claim (holding h zs bind s) z = if zmem zs z = true then .pendingJoin h else claim s z := by
  rw [holding_of_free free, claim_writeClaims]
  rfl

theorem pendingLive_holding {bind : Bool} (free : ∀ z, z < 48 → zmem zs z = true → claim s z = .empty)
    (none : ∀ z, z < 48 → claimHandle (claim s z) ≠ some h)
    (hj : ∀ z, z < 48 → (zmem j z = true ↔ zmem zs z = true ∧ lineOf s z = .live)) :
    pendingLive (holding h zs bind s) h = j := pendingLive_eq fun z lt => by
  rw [hj z lt, claim_holding_of_free free, show lineOf (holding h zs bind s) z = lineOf s z by
    rw [holding_of_free free]; rfl]
  refine and_congr_left fun _ => ?_
  split
  · next m => exact ⟨fun _ => rfl, fun _ => m⟩
  · next m => exact ⟨fun c => absurd c m, fun c => absurd (by rw [c]; rfl) (none z lt)⟩

/-- A LIVE source without an engine to wait for is granted by its lane (R76). -/
theorem walkRequest_grants_lane {blocked : Bool} (waits : (request s h).state = .waiting) (gain : zs ≠ 0)
    (hzs : obtainable s (request s h) = zs)
    (covered : (if (request s h).cls = .evac then 1 else (request s h).minCoverage) ≤ zcard zs)
    (live : (request s h).live = true) (link : s.itp.link ≠ .lost)
    (none : (request s h).current = .lane ∨ available s blocked = false) :
    walkRequest (s, blocked) h = (grant h zs false s, blocked) := by
  have unbound : (wantsEngine (request s h) && available s blocked) = false := by
    obtain lane | no := none
    · rw [wantsEngine, live, lane]; rfl
    · rw [no, Bool.and_false]
  rw [walkRequest_of_covered waits gain hzs covered (.inr link), live, Bool.true_or, if_pos rfl, unbound]

theorem walkRequest_frame {blocked after : Bool} (walks : walkRequest (s, blocked) h = (t, after)) : ActFrame s t := by
  have frame := ActFrame.walkRequest (s, blocked) h
  rw [walks] at frame
  exact frame

/-- Settles O42: late joins by the record's current source, and LIVE grants by whether an engine plays the chime. -/
theorem lateJoinsAndLiveGrants : Obligations.LateJoinsAndLiveGrants := by
  refine ⟨?_, ?_, fun s h why => ?_, fun s h blocked live lost => walkRequest_of_lost live lost, ?_, ?_⟩
  · intro s h r zs t lt hr held engine gain hz ht
    subst hr
    have record := request_takeLate_self (s := s) lt gain
    have joins : lateJoin s h = takeLate h zs s := by
      rw [lateJoin_of_held held (lateZones_eq hz) gain]
      exact joinLane_of_engine (by rw [record]; exact engine)
    rw [ht, joins]
    refine ⟨record, fun z _ => claim_takeLate .., fun e he => ?_, ?_⟩
    · change tget (addWait ..).engines e = _
      rw [engine_addWait]
      exact if_congr (and_congr_right fun _ => and_iff_right he) rfl rfl
    · rw [request_takeLate, if_pos ⟨rfl, lt⟩]
      exact takeLate_spec ..
  · intro s h r zs j t lt hr held lane live none gain hz free hj ht
    subst hr
    have record := request_takeLate_self (s := s) lt gain
    have joined := pendingLive_takeLate free hj
    have joins : lateJoin s h = joinLive h (takeLate h zs s) := by
      rw [lateJoin_of_held held (lateZones_eq hz) gain]
      exact joinLane_eq (by rw [record]; exact lane) (by rw [record]; exact held)
    have engines : (takeLate h zs s).engines = s.engines := by
      rw [takeLate, none]
      rfl
    refine ⟨?_, fun z _ => ?_, by rw [ht]; exact .lateJoin .., by rw [ht, joins, engines_joinLive, engines]⟩
    · rw [ht, joins, request_joinLive, joined, record]
      split
      · next c =>
        obtain ⟨-, some, granted⟩ := c
        rw [if_neg some, if_pos ⟨some, granted⟩, started, live]
        rfl
      · next c =>
        rw [if_neg fun d => c ⟨⟨rfl, lt⟩, d⟩]
        split
        · rfl
        · next some =>
          have active : (request s h).state = .active := held.resolve_left fun g => c ⟨⟨rfl, lt⟩, some, g⟩
          rw [← active]
    · rw [ht, joins, claim_joinLive, joined, claim_takeLate]
  · obtain idle | none := why
    · exact lateJoin_of_not_held idle
    · refine lateJoin_of_none (lateZones_eq fun z lt => ?_)
      rw [zmem_zero]
      refine ⟨nofun, fun ⟨asked, off, fault, free⟩ => ?_⟩
      obtain c | c | c := none z lt asked
      · exact absurd c off
      · exact absurd c fault
      · exact absurd free c
  · intro s h r zs e lt hr waits live engine chime link free hz gain covered he idle least
    subst hr
    have found := idleEngine?_eq_some he idle least
    have wants : wantsEngine (request s h) = true := by
      have plays : (request s h).fragments.isEmpty = false := by simpa using chime
      rw [wantsEngine, engine, plays, live]
      rfl
    have grants := walkRequest_grants_engine waits gain (obtainable_of_free free hz) covered (.inr link) wants found
    obtain ⟨-, record, -, claims, -, engines⟩ :=
      grant_free lt engine gain (fun z lt m => free z lt ((hz z lt).mp m).1) found
    exact ⟨_, grants, walkRequest_frame grants, record, fun z _ => claims z, by rw [engines, tget_tset_self _ _ _ he]⟩
  · intro s h blocked r zs j q lt hr waits live none link free unheld hz gain covered hj hq
    subst hr
    have unclaimed : ∀ z, z < 48 → zmem zs z = true → claim s z = .empty := fun z lt m => free z lt ((hz z lt).mp m).1
    have grants := walkRequest_grants_lane (blocked := blocked) waits gain (obtainable_of_free free hz) covered live link
      (none.imp_right available_of_none)
    have own : request (holding h zs false s) h = grantedRecord (request s h) zs false := by
      rw [request_holding_of_free unclaimed, if_pos ⟨rfl, lt⟩]
    rw [grantedRecord_lane gain live] at own
    have joined := pendingLive_holding (bind := false) unclaimed unheld hj
    have joins := grant_lane (s := s) (zs := zs) (by rw [own]) (by rw [own])
    have channel : (holding h zs false s).ch = s.ch := by rw [holding_of_free unclaimed]; rfl
    refine ⟨_, grants, walkRequest_frame grants, ?_, ?_, fun k _ other => ?_, fun z _ => ?_, fun none => ?_, fun some room => ?_⟩
    · rw [joins, request_joinLive, joined, own, hq]
      by_cases none : j = 0
      · rw [if_neg fun c => c.2.1 none, if_pos none, if_pos none]
      · rw [if_pos ⟨⟨rfl, lt⟩, none, rfl⟩, if_neg none, if_neg none, started]
        dsimp only
        rw [live]
        rfl
    · rw [joins, engines_joinLive, holding_of_free unclaimed]
      rfl
    · rw [joins, request_joinLive, if_neg fun c => other c.1.1.symm, request_holding_of_free unclaimed,
        if_neg fun c => other c.1.symm]
    · rw [joins, claim_joinLive, joined, claim_holding_of_free unclaimed]
    · rw [joins, joinLive_of_none (joined.trans none), channel]
    · rw [joins, events_joinLive_first (by rw [joined]; exact some) (by rw [own]) lt (by rw [channel]; exact room), channel,
        joined, own, hq, holding_of_free unclaimed]
      rfl

end Sys2Proof.Machine
end

section
/-! Pre-emption and the loss of zones (R74, R76, R82, R83, R98, R99). -/

namespace Sys2Proof.Machine
set_option Elab.async false

variable {s t : State} {h e k : Nat} {zs m : ZoneSet} {r : Request} {cause : RemovalCause} {taker : Option Nat}

/-! ### Who may be pre-empted (R74) -/

theorem preemptible_iff (v r : Request) : preemptible v r = true ↔
    classNum r.cls < classNum v.cls ∧ v.cls ≠ .evac ∧ (r.cls = .evac ∨ r.flags.preempt = true) := by
  simp [preemptible, and_assoc]

theorem takeable_iff (s : State) (r : Request) (z : Nat) : takeable s r z = true ↔
    ∀ k, claimHandle (claim s z) = some k → preemptible (request s k) r = true := by
  unfold takeable
  cases claimHandle (claim s z) with
  | none => exact ⟨nofun, fun _ => rfl⟩
  | some k => exact ⟨fun p _ same => Option.some.inj same ▸ p, fun p => p k rfl⟩

/-! ### What a loss writes (R82) -/

/-- Zones that leave a wait set touch the engines alone. -/
theorem unwait_spec (o : Option Nat) (zs : ZoneSet) (s : State) : unwait o zs s = s.setEngines (unwait o zs s).engines := by
  cases o with
  | none => rfl
  | some e => simp only [unwait]; split <;> rfl

theorem shrunk_spec (h : Nat) (zs : ZoneSet) (s : State) :
    shrunk h zs s = (s.setZar (shrunk h zs s).zar).setEngines (shrunk h zs s).engines := by
  unfold shrunk
  rw [unwait_spec]
  rfl

theorem frame_shrink (h : Nat) (zs : ZoneSet) (cause : RemovalCause) (taker : Option Nat) (s : State) :
    ActFrame s (shrink h zs cause taker s) :=
  (((ActFrame.writeClaims ..).trans (.setRequest ..)).trans (.unwait ..)).trans (.pushEvent ..)

theorem work_shrink (h : Nat) (zs : ZoneSet) (cause : RemovalCause) (taker : Option Nat) (s : State) :
    (shrink h zs cause taker s).work = s.work := by
  rw [shrink, pushEvent_spec, shrunk_spec]
  rfl

/-- ZONES_LOST as a loss raises it (R82). -/
def lostEvent (h : Nat) (zs : ZoneSet) (cause : RemovalCause) (taker : Option Nat) (s : State) : Event :=
  ⟨0x05, BitVec.ofNat 8 (removalCode cause), BitVec.ofNat 16 h, s.stc.time, s.stc.phase,
    [f1? taker, fZones zs, fZones (zdiff (request s h).granted zs)]⟩

theorem events_shrink (h : Nat) (zs : ZoneSet) (cause : RemovalCause) (taker : Option Nat)
    (room : s.ch.events.length < 32) :
    (shrink h zs cause taker s).ch.events = s.ch.events ++ [lostEvent h zs cause taker s] := by
  rw [shrink, shrunk_spec]
  exact events_pushEvent (s := (s.setZar (shrunk h zs s).zar).setEngines (shrunk h zs s).engines) room ..

/-- Whatever a loss brings about stands behind its ZONES_LOST. -/
theorem events_loseZones (h : Nat) (zs : ZoneSet) (cause : RemovalCause) (taker : Option Nat)
    (room : s.ch.events.length < 32) :
    (s.ch.events ++ [lostEvent h zs cause taker s]) <+: (loseZones h zs cause taker s).ch.events := by
  rw [← events_shrink h zs cause taker room, loseZones_eq]
  split
  · exact (ActFrame.displace ..).events
  · exact (ActFrame.testEngine ..).events

/-! ### The engine's test at a loss (R98, R99) -/

theorem lineOf_shrink (z : Nat) : lineOf (shrink h zs cause taker s) z = lineOf s z := by
  rw [lineOf, (frame_shrink ..).zlc]
  rfl

/-- What is left of the wait set of a request's engine is not all LIVE, or the engine is not in PREROLL. -/
def StillWaits (s : State) (r : Request) (zs : ZoneSet) : Prop :=
  ∀ f, r.engine = some f → (tget s.engines f).state ≠ .preroll ∨
    ∃ z, z < 48 ∧ zmem (tget s.engines f).waitSet z = true ∧ zmem zs z = false ∧ lineOf s z ≠ .live

theorem StillWaits.testEngine (waits : StillWaits s (request s h) zs) :
    testEngine (request s h).engine (shrink h zs cause taker s) = shrink h zs cause taker s := by
  cases own : (request s h).engine with
  | none => rfl
  | some f =>
    refine leavePreroll_of_not_ready (Bool.eq_false_iff.mpr fun ready => ?_)
    obtain ⟨preroll, live⟩ := (prerollReady_iff ..).mp ready
    rw [engine_shrink] at preroll live
    have here : f < 6 := by
      by_contra above
      rw [if_neg fun c => above c.2.1, tget_of_le _ f (not_lt.mp above)] at preroll
      cases preroll
    have before : (tget s.engines f).state = .preroll := by
      split at preroll
      · next c => exact c.2.2
      · exact preroll
    rw [if_pos ⟨own, here, before⟩] at live
    obtain no | ⟨z, lt, mem, left, off⟩ := waits f own
    · exact no before
    · refine off ((lineOf_shrink z).symm.trans (live z lt ?_))
      rw [zmem_zdiff _ _ _ lt, mem, left]
      rfl

/-- A loss that neither displaces its holder nor lets its engine go on. -/
theorem loseZones_of_waits (keeps : zdiff (request s h).granted zs ≠ 0 ∨
      ((request s h).state ≠ .granted ∧ (request s h).state ≠ .active)) (waits : StillWaits s (request s h) zs) :
    loseZones h zs cause taker s = shrink h zs cause taker s := by
  rw [loseZones_eq, if_neg]
  · exact waits.testEngine
  · rintro ⟨none, held⟩
    exact keeps.elim (· none) fun c => held.elim c.1 c.2

theorem less_of_left (left : zdiff r.granted zs ≠ 0) : less r zs =
    { r with
      granted := zdiff r.granted zs
      flags := { r.flags with isPartial := zdiff r.granted zs != r.requested } } := by
  have nonzero : (zdiff r.granted zs != 0) = true := bne_iff_ne.mpr left
  rw [less, withPartial, nonzero, Bool.true_and]

theorem less_of_none (none : zdiff r.granted zs = 0) : less r zs =
    { r with granted := 0, flags := { r.flags with isPartial := false } } := by
  rw [less, withPartial, none]
  rfl

theorem request_shrink_self (lt : h < 96) : request (shrink h zs cause taker s) h = less (request s h) zs := by
  rw [request_shrink, if_pos ⟨rfl, lt⟩]

/-- A loss after which an engine in PREROLL waits for no zone that is not LIVE (R98, R99). -/
theorem loseZones_of_ready (left : zdiff (request s h).granted zs ≠ 0) (engine : (request s h).engine = some e) (he : e < 6)
    (preroll : (tget s.engines e).state = .preroll)
    (lines : ∀ z, z < 48 → zmem (tget s.engines e).waitSet z = true → zmem zs z = false → lineOf s z = .live) :
    loseZones h zs cause taker s = leavePreroll e (shrink h zs cause taker s) ∧
    prerollReady (shrink h zs cause taker s) (tget (shrink h zs cause taker s).engines e) = true ∧
    tget (shrink h zs cause taker s).engines e =
      { tget s.engines e with waitSet := zdiff (tget s.engines e).waitSet zs } := by
  have waits : tget (shrink h zs cause taker s).engines e =
      { tget s.engines e with waitSet := zdiff (tget s.engines e).waitSet zs } := by
    rw [engine_shrink, if_pos ⟨engine, he, preroll⟩]
  refine ⟨?_, (prerollReady_iff ..).mpr ?_, waits⟩
  · rw [loseZones_eq, if_neg fun c => left c.1, engine]
    rfl
  · rw [waits]
    refine ⟨preroll, fun z lt mem => ?_⟩
    rw [zmem_zdiff _ _ _ lt, Bool.and_eq_true, Bool.not_eq_true'] at mem
    rw [lineOf_shrink]
    exact lines z lt mem.1 mem.2

/-! ### Displacement (R83) -/

theorem loseZones_of_none (none : zdiff (request s h).granted zs = 0)
    (held : (request s h).state = .granted ∨ (request s h).state = .active) :
    loseZones h zs cause taker s = displace h cause (shrink h zs cause taker s) := by
  rw [loseZones_eq, if_pos ⟨none, held⟩]

theorem displace_returns (playout : (request s h).live = false) (resume : (request s h).flags.resume = true)
    (few : (request s h).restarts < 3) : displace h cause s =
      enterEnding h (if (request s h).pendingEnd = some .cancelled then .ends .cancelled else .returns) s :=
  if_pos ⟨playout, resume, few⟩

theorem displace_ends (ends : (request s h).live = true ∨ (request s h).flags.resume = false ∨ 3 ≤ (request s h).restarts) :
    displace h cause s = endRequest h (if cause = .preemption then .preempted else .zoneLost) s := by
  refine if_neg ?_
  rintro ⟨playout, resume, few⟩
  obtain c | c | c := ends
  · rw [c] at playout; cases playout
  · rw [c] at resume; cases resume
  · omega

/-! ### Zones taken from one holder (R76, R82) -/

theorem filterMap_range_of_one {α : Type} {f : Nat → Option α} {b : α} {n : Nat} (lt : k < n) (one : f k = some b)
    (others : ∀ j, j ≠ k → f j = none) : (List.range n).filterMap f = [b] := by
  have none : ∀ i, i ≤ k → (List.range i).filterMap f = [] := fun i le => by
    rw [List.filterMap_eq_nil_iff]
    intro j hj
    exact others j (by have := List.mem_range.mp hj; omega)
  induction n with
  | zero => omega
  | succ n ih =>
    rw [List.range_succ, List.filterMap_append]
    obtain below | rfl := Nat.lt_succ_iff_lt_or_eq.mp lt
    · rw [ih below, List.filterMap_cons_none (others n (by omega))]
      rfl
    · rw [none k (le_refl k), List.filterMap_cons_some one]
      rfl

theorem takeZones_of_one_holder (hk : k < 96) (gain : m ≠ 0)
    (holders : ∀ z, z < 48 → zmem zs z = true → claim s z = .empty ∨ claimHandle (claim s z) = some k)
    (hm : ∀ z, z < 48 → (zmem m z = true ↔ zmem zs z = true ∧ claimHandle (claim s z) = some k)) :
    takeZones h zs s = loseZones k m .preemption (some h) s := by
  have mine : zs &&& claimedZones s k = m := zset_ext fun z lt => by
    rw [Bool.eq_iff_iff, hm z lt, zmem_and, Bool.and_eq_true, zmem_claimedZones _ _ lt]
  have others : ∀ j, j ≠ k → zs &&& claimedZones s j = 0 := fun j other => zset_eq_zero fun z lt => by
    refine Bool.eq_false_iff.mpr fun both => ?_
    rw [zmem_and, Bool.and_eq_true, zmem_claimedZones _ _ lt] at both
    obtain ⟨mem, held⟩ := both
    obtain c | c := holders z lt mem
    · rw [c] at held; cases held
    · exact other (Option.some.inj (held.symm.trans c))
  have list : holdersOf s zs = [(k, m)] := by
    refine filterMap_range_of_one hk ?_ fun j other => ?_
    · dsimp only
      rw [mine]
      exact if_neg gain
    · dsimp only
      rw [others j other]
      exact if_pos rfl
  rw [takeZones, list]
  rfl

/-- A grant that takes zones from one holder, which keeps others. -/
theorem holding_of_one_holder (hk : k < 96) (gain : m ≠ 0) (other : k ≠ h)
    (holders : ∀ z, z < 48 → zmem zs z = true → claim s z = .empty ∨ claimHandle (claim s z) = some k)
    (hm : ∀ z, z < 48 → (zmem m z = true ↔ zmem zs z = true ∧ claimHandle (claim s z) = some k))
    (left : zdiff (request s k).granted m ≠ 0) (still : StillWaits s (request s k) m) :
    holding h zs true s = writeClaims zs (.pendingJoin h) (shrink k m .preemption (some h) (granting h zs true s)) := by
  have victim : request (granting h zs true s) k = request s k := by
    rw [request_granting, if_neg fun c => other c.1.symm]
  rw [holding, takeZones_of_one_holder (s := granting h zs true s) hk gain holders hm,
    loseZones_of_waits (.inl (by rw [victim]; exact left)) (by rw [victim]; exact still)]

/-- What a grant with the lowest idle engine leaves, where its zones are free or one holder's, which keeps others (R76, R82). -/
theorem grant_from_one_holder (hh : h < 96) (hk : k < 96) (other : k ≠ h) (engine : (request s h).current = .engine)
    (gained : zs ≠ 0) (gain : m ≠ 0)
    (holders : ∀ z, z < 48 → zmem zs z = true → claim s z = .empty ∨ claimHandle (claim s z) = some k)
    (hm : ∀ z, z < 48 → (zmem m z = true ↔ zmem zs z = true ∧ claimHandle (claim s z) = some k))
    (left : zdiff (request s k).granted m ≠ 0) (still : StillWaits s (request s k) m) (he : e < 6)
    (idle : (tget s.engines e).state = .idle) (least : ∀ f, f < e → (tget s.engines f).state ≠ .idle) :
    request (grant h zs true s) h = { grantedRecord (request s h) zs true with engine := some e } ∧
    request (grant h zs true s) k = less (request s k) m ∧
    (∀ z, z < 48 → claim (grant h zs true s) z = if zmem zs z then .pendingJoin h else claim s z) ∧
    (s.ch.events.length < 32 →
      (grant h zs true s).ch.events = s.ch.events ++ [lostEvent k m .preemption (some h) s]) := by
  obtain ⟨u, hu⟩ : ∃ u, u = granting h zs true s := ⟨_, rfl⟩
  have record : ∀ j, request u j = if h = j ∧ h < 96 then grantedRecord (request s h) zs true else request s j := fun j => by
    rw [hu]; exact request_granting ..
  have victim : request u k = request s k := by rw [record, if_neg fun c => other c.1.symm]
  have holds := holding_of_one_holder (s := s) hk gain other holders hm left still
  rw [← hu] at holds
  have engines : ∀ f, (tget (holding h zs true s).engines f).state = (tget s.engines f).state := fun f => by
    rw [holds]
    change (tget (shrink k m .preemption (some h) u).engines f).state = _
    rw [engine_shrink, hu]
    split <;> rfl
  have mine : request (holding h zs true s) h = grantedRecord (request s h) zs true := by
    rw [holds]
    change request (shrink k m .preemption (some h) u) h = _
    rw [request_shrink, if_neg fun c => other c.1, record, if_pos ⟨rfl, hh⟩]
  have theirs : request (holding h zs true s) k = less (request s k) m := by
    rw [holds]
    change request (shrink k m .preemption (some h) u) k = _
    rw [request_shrink, if_pos ⟨rfl, hk⟩, victim]
  have binds := grant_engine (s := s) (h := h) (zs := zs) (e := e) (by rw [mine, grantedRecord_bound gained]; exact engine)
    (idleEngine?_eq_some he ((engines e).trans idle) fun f lt => by rw [engines f]; exact least f lt)
  rw [binds]
  refine ⟨?_, ?_, fun z lt => ?_, fun room => ?_⟩
  · rw [request_bound, if_pos ⟨rfl, hh⟩, mine]
  · rw [request_bound, if_neg fun c => other c.1.symm, theirs]
  · rw [claim_bound, holds, claim_writeClaims, claim_shrink]
    split
    · rfl
    · next free =>
      rw [if_neg fun c => free ((hm z lt).mp c).1, hu]
      rfl
  · change (holding h zs true s).ch.events = _
    rw [holds]
    change (shrink k m .preemption (some h) u).ch.events = _
    rw [events_shrink (s := u) k m .preemption (some h) (by rw [hu]; exact room), lostEvent, victim, hu]
    rfl

/-! ### Zones that leave service (R62, R61) -/

/-- A zone that leaves service is lost by its holder before anything else is reported. -/
theorem events_zoneLost {z : Nat} (cause : RemovalCause) (held : claimHandle (claim s z) = some k)
    (room : s.ch.events.length < 32) (old new : LineState) (reason : Nat) (fault : Byte) :
    (s.ch.events ++ [lostEvent k (zone1 z) cause none s]) <+:
      (raiseZoneState z old new reason fault (zoneLost z cause s)).ch.events := by
  have lost : (s.ch.events ++ [lostEvent k (zone1 z) cause none s]) <+: (zoneLost z cause s).ch.events := by
    unfold zoneLost
    rw [held]
    exact (events_loseZones k (zone1 z) cause none room).trans ((ActFrame.needPass _).trans (.settle _)).events
  exact lost.trans (ActFrame.pushEvent ..).events

/-- Settles O41: pre-emption by one holder, the loss by its outcome, and the two commands that take a zone out of service. -/
theorem zonesArePreemptedAndLost : Obligations.ZonesArePreemptedAndLost := by
  refine ⟨preemptible_iff, fun s r z lt => ?_, ?_, ?_, ?_, ?_, ?_, ?_, ?_⟩
  · rw [zmem_obtainable, and_iff_right lt, usableLine_iff, takeable_iff, and_assoc]
  · intro s h r zs k v m e hh hk other hr waits playout engine hzs covered hv holders hm gain left he idle least own room still
    subst hr hv hzs
    have gained : obtainable s (request s h) ≠ 0 := fun none => gain (zset_eq_zero fun z lt => by
      refine Bool.eq_false_iff.mpr fun mem => ?_
      have taken := ((hm z lt).mp mem).1
      rw [none, zmem_zero] at taken
      cases taken)
    have found := idleEngine?_eq_some he idle least
    have grants := walkRequest_grants_engine waits gained rfl covered (.inl playout) (wantsEngine_playout playout) found
    obtain ⟨record, victim, claims, events⟩ :=
      grant_from_one_holder hh hk other engine gained gain holders hm left still he idle least
    refine ⟨_, grants, walkRequest_frame grants, ?_, victim.trans (less_of_left left), claims, events room⟩
    rw [record, grantedRecord_bound gained]
  · intro s h zs cause taker r g t hh hr hg keeps still ht
    subst hr hg
    rw [loseZones_of_waits keeps still] at ht
    subst ht
    refine ⟨frame_shrink .., ?_, fun k _ other => ?_, fun z _ => claim_shrink .., fun e he => ?_, queue_shrink ..,
      work_shrink .., fun room => ?_⟩
    · rw [request_shrink, if_pos ⟨rfl, hh⟩]
      rfl
    · rw [request_shrink, if_neg fun c => other c.1.symm]
    · rw [engine_shrink]
      exact if_congr (and_congr_right fun _ => and_iff_right he) rfl rfl
    · rw [events_shrink h zs cause taker room]
      cases cause <;> rfl
  · intro s h zs cause taker r e x g hh hr hg left granted engine he hx preroll
    subst hr hg hx
    intro bound lines
    obtain ⟨leaves, ready, waits⟩ := loseZones_of_ready (cause := cause) (taker := taker) left engine he preroll lines
    have record := (request_shrink_self (s := s) (zs := zs) (cause := cause) (taker := taker) hh).trans (less_of_left left)
    have own : (tget (shrink h zs cause taker s).engines e).handle = some h := by rw [waits]; exact bound
    refine ⟨fun c ends => ⟨_, frame_shrink .., ?_, record⟩, fun js t q plays some hjs room ht hq => ?_⟩
    · rw [leaves, leavePreroll_ends ready own (by rw [record]; exact ends)]
    · obtain ⟨u, hu⟩ : ∃ u, u = setEngine e (begun (tget (shrink h zs cause taker s).engines e))
        (shrink h zs cause taker s) := ⟨_, rfl⟩
      rw [leaves, leavePreroll_begins ready own (by rw [record]; exact plays), ← hu] at ht
      have claims : ∀ z, claim u z = if zmem zs z = true then .empty else claim s z := fun z => by
        rw [hu]; exact claim_shrink ..
      have joined : pendingLive u h = js := pendingLive_eq fun z lt => by
        rw [hjs z lt, claims, show lineOf u z = lineOf s z by rw [hu]; exact lineOf_shrink z]
        by_cases m : zmem zs z = true
        · rw [if_pos m, m]
          exact ⟨fun c => absurd c.2.1 nofun, fun c => absurd c.1 nofun⟩
        · rw [if_neg m, Bool.not_eq_true _ |>.mp m]
          exact ⟨fun c => ⟨c.1, c.2.2⟩, fun c => ⟨c.1, rfl, c.2⟩⟩
      have held : request u h = _ := (by rw [hu]; rfl : request u h = request (shrink h zs cause taker s) h).trans record
      have events : u.ch.events = s.ch.events ++ [lostEvent h zs cause taker s] := by
        rw [hu]
        exact events_shrink h zs cause taker (by omega)
      have stc : u.stc = s.stc := by
        rw [hu]
        exact (frame_shrink ..).stc
      refine ⟨?_, ?_, ?_, fun z lt => ?_, ?_⟩
      · rw [ht, hu]
        exact ((frame_shrink ..).trans (.setEngine ..)).trans (.joinLive ..)
      · rw [ht, request_joinLive, joined, held, if_pos ⟨⟨rfl, hh⟩, some, granted⟩, hq]
        rfl
      · rw [ht, engines_joinLive, hu, waits]
        exact tget_tset_self _ _ _ he
      · rw [ht, claim_joinLive, joined, claims]
        by_cases mem : zmem zs z = true
        · rw [if_pos mem, if_pos mem, if_neg fun c => by rw [((hjs z lt).mp c).2.1] at mem; cases mem]
        · rw [if_neg mem, if_neg mem]
      · rw [ht, events_joinLive_first (by rw [joined]; exact some) (by rw [held]; exact granted) hh
          (by rw [events, List.length_append]; exact room), events, joined, held, stc, hq, List.append_assoc]
        cases cause <;> rfl
  · intro s h zs cause taker r e t hh hr none held playout resume few engine he ht
    subst hr
    have record := (request_shrink_self (s := s) (zs := zs) (cause := cause) (taker := taker) hh).trans (less_of_none none)
    rw [loseZones_of_none none held, displace_returns (by rw [record]; exact playout) (by rw [record]; exact resume)
      (by rw [record]; exact few)] at ht
    refine ⟨by rw [ht]; exact (frame_shrink ..).trans (.enterEnding ..), ?_, ?_, fun z _ => ?_⟩
    · rw [ht, request_enterEnding, if_pos ⟨rfl, hh⟩, record]
      rfl
    · rw [ht, engine_enterEnding, record, if_pos ⟨engine, he⟩, engine_shrink]
      split <;> rfl
    · rw [ht, claim_enterEnding, claim_shrink]
  · intro s h zs cause taker r hh hr none held ends
    subst hr
    have record := (request_shrink_self (s := s) (zs := zs) (cause := cause) (taker := taker) hh).trans (less_of_none none)
    refine ⟨_, frame_shrink h zs cause taker s, ?_, record, fun k _ other => ?_, fun z _ => claim_shrink ..⟩
    · rw [loseZones_of_none none held, displace_ends (by rw [record]; exact ends)]
    · rw [request_shrink, if_neg fun c => other c.1.symm]
  · intro h zone code s k r ha hz off fault held hk hr room
    subst hr
    have run := zoneFault_usable (code := code) hz off fault
    have frame : ActFrame ((modLine zone.toNat (faulted code) s).setAmt (peakLeft zone.toNat (lineOf s zone.toNat) s))
        (faultZone zone.toNat code s) := by
      rw [faultZone_eq]
      exact (ActFrame.zoneLost ..).trans (.pushEvent ..)
    have takes := exec_zoneFault h zone code s
    rw [takeCommand_answered ha (by rw [run, frame.replies]; exact ha.room), run] at takes
    refine ⟨faultZone zone.toNat code s, _, takes, ?_⟩
    rw [faultZone_eq]
    exact events_zoneLost (s := (modLine zone.toNat (faulted code) s).setAmt
      (peakLeft zone.toNat (lineOf s zone.toNat) s)) .fault held room ..
  · intro h zone flags preroll hang s k r ha hz hflags disables width off held hk hr room
    subst hr
    have lt : zone.toNat < 48 := by omega
    have written : tget (modLine zone.toNat (writeSettings flags preroll hang) s).zlc zone.toNat =
        writeSettings flags preroll hang (tget s.zlc zone.toNat) := tget_modLine_self lt ..
    obtain ⟨t, ht⟩ : ∃ t, t = applyEnable zone.toNat (flags.getLsbD 0)
      (modLine zone.toNat (writeSettings flags preroll hang) s) := ⟨_, rfl⟩
    have run := zoneSet_accepted (preroll := preroll) (hang := hang) (by omega) (.inl width) rfl ht
    rw [disables, applyEnable_off (by rw [written]; exact off), written, leaveStandby_eq] at ht
    obtain ⟨u, hu⟩ : ∃ u, u = (modLine zone.toNat disabled (modLine zone.toNat (writeSettings flags preroll hang) s)).setAmt
      (peakLeft zone.toNat (writeSettings flags preroll hang (tget s.zlc zone.toNat)).line
        (modLine zone.toNat disabled (modLine zone.toNat (writeSettings flags preroll hang) s))) := ⟨_, rfl⟩
    rw [← hu] at ht
    have frame : ActFrame u t := by
      rw [ht]
      exact (ActFrame.zoneLost ..).trans (.pushEvent ..)
    have replies : t.ch.replies = s.ch.replies := frame.replies.trans (by rw [hu]; rfl)
    have takes := exec_zoneSet h zone flags preroll hang s
    rw [takeCommand_answered ha (by rw [run, replies]; exact ha.room), run] at takes
    refine ⟨t, _, takes, ?_⟩
    have lost : (u.ch.events ++ [lostEvent k (zone1 zone.toNat) .off none u]) <+: t.ch.events := by
      rw [ht]
      exact events_zoneLost .off (by rw [hu]; exact held) (by rw [hu]; exact room) ..
    subst hu
    exact lost

end Sys2Proof.Machine
end

section
/-! The queries and IDENTIFY (R179 to R183). -/

namespace Sys2Proof.Machine
set_option Elab.async false

variable {s t : State} {h : Header} {q : QueryFields}

/-! ### What QUERY answers in common (R179) -/

/-- A command that answers DONE with fields and leaves the replies as they are is answered so. -/
theorem takeCommand_done {code : Byte} {run : State → Answer} {fields : List Field} (ha : Addressed h s)
    (done : run s = ⟨.done, fields, t⟩) (replies : t.ch.replies = s.ch.replies) :
    takeCommand h code run s = answered h code .done fields s t := by
  rw [takeCommand_answered ha (by rw [done, replies]; exact ha.room), done]

theorem flagBit_zero_of (flags : Byte) : decide (flags.toNat > 1) = false → 0 < flags.toNat → flagBit flags 0 = true := by
  intro few some
  have one : flags = 1 := (byte_eq_iff flags 1 (by omega)).mpr (by simp at few; omega)
  rw [one]
  rfl

theorem queryBad_of {greatest : Nat} (bad : q.part.toNat > greatest ∨ q.flags.toNat > 0) : queryBad q greatest false = true := by
  rw [queryBad, Bool.not_false, Bool.and_true, Bool.or_eq_true, Bool.or_eq_true, decide_eq_true_eq]
  obtain part | flags := bad
  · exact .inl (.inl part)
  · by_cases many : decide (q.flags.toNat > 1) = true
    · exact .inl (.inr many)
    · exact .inr (flagBit_zero_of q.flags (Bool.not_eq_true _ |>.mp many) flags)

theorem queryBad_clears_of (bad : q.part.toNat > 3 ∨ q.flags.toNat > 1) : queryBad q 3 true = true := by
  rw [queryBad, Bool.or_eq_true, Bool.or_eq_true, decide_eq_true_eq, decide_eq_true_eq]
  exact .inl bad

theorem queryBad_of_clear {greatest : Nat} (part : q.part.toNat ≤ greatest) (flags : q.flags = 0) (clears : Bool) :
    queryBad q greatest clears = false := by
  rw [queryBad, flags, decide_eq_false (by omega : ¬ q.part.toNat > greatest)]
  rfl

theorem queryAnswer_done {kind parts : Nat} {contents : List Field} (there : q.part.toNat < parts) :
    queryAnswer kind q parts contents t s = ⟨.done, queryHead kind q parts ++ contents, t⟩ := if_neg (by omega)

theorem queryAnswer_noent {kind parts : Nat} {contents : List Field} (beyond : parts ≤ q.part.toNat) :
    queryAnswer kind q parts contents t s = refuse .noent s := if_pos beyond

/-! ### ZONE and ENGINE (R114, R181) -/

theorem zoneQueryFlags_eq (l : ZoneLine) :
    zoneQueryFlags l = l.width16.toNat + 2 * l.keepAwake.toNat + 4 * l.routeLive.toNat := by
  simp only [zoneQueryFlags, flagByte, List.foldr]
  omega

theorem exec_queryZone (h : Header) (q : QueryFields) (s : State) :
    exec (.queryZone h q) s = .next (takeCommand h 0xA1 (queryZone q) s) := rfl

theorem queryZone_bad (bad : q.subject.toNat > 47 ∨ q.part.toNat > 0 ∨ q.flags.toNat > 0) :
    queryZone q s = refuse .badarg s := if_pos (bad.imp_right queryBad_of)

theorem queryZone_done {subject : Half} (hz : subject.toNat ≤ 47) : queryZone ⟨subject, 0, 0⟩ s =
    ⟨.done, queryHead 1 ⟨subject, 0, 0⟩ 1 ++ zoneItems subject.toNat s, s⟩ := by
  refine (if_neg ?_).trans (queryAnswer_done Nat.zero_lt_one)
  rintro (above | bad)
  · exact absurd above (not_lt.mpr hz)
  · rw [queryBad_of_clear (Nat.le_refl 0) rfl] at bad
    cases bad

theorem exec_queryEngine (h : Header) (q : QueryFields) (s : State) :
    exec (.queryEngine h q) s = .next (takeCommand h 0xA1 (queryEngine q) s) := rfl

theorem queryEngine_bad (bad : q.subject.toNat > 5 ∨ q.part.toNat > 0 ∨ q.flags.toNat > 0) :
    queryEngine q s = refuse .badarg s := if_pos (bad.imp_right queryBad_of)

theorem queryEngine_done {subject : Half} (he : subject.toNat ≤ 5) : queryEngine ⟨subject, 0, 0⟩ s =
    ⟨.done, queryHead 3 ⟨subject, 0, 0⟩ 1 ++ engineItems subject.toNat s, s⟩ := by
  refine (if_neg ?_).trans (queryAnswer_done Nat.zero_lt_one)
  rintro (above | bad)
  · exact absurd above (not_lt.mpr he)
  · rw [queryBad_of_clear (Nat.le_refl 0) rfl] at bad
    cases bad

/-! ### REQUEST (R182) -/

theorem exec_queryRequest (h : Header) (q : QueryFields) (s : State) :
    exec (.queryRequest h q) s = .next (takeCommand h 0xA1 (queryRequest q) s) := rfl

theorem queryRequest_bad (bad : q.subject.toNat > 95 ∨ q.part.toNat > 9 ∨ q.flags.toNat > 0) :
    queryRequest q s = refuse .badarg s := if_pos (bad.imp_right queryBad_of)

theorem requestParts_eq (n : Nat) : requestParts n = 2 + (n - 2 + 3) / 4 := by
  unfold requestParts
  split <;> omega

theorem queryRequest_of_good (hk : q.subject.toNat ≤ 95) (part : q.part.toNat ≤ 9) (flags : q.flags = 0) :
    queryRequest q s = if (request s q.subject.toNat).state = .free then refuse .noent s
      else queryAnswer 2 q (requestParts (request s q.subject.toNat).fragments.length)
        (requestPart q.subject.toNat q.part.toNat s) s s := by
  refine if_neg ?_
  rw [queryBad_of_clear part flags]
  rintro (above | bad)
  · omega
  · cases bad

theorem queryRequest_noent (hk : q.subject.toNat ≤ 95) (part : q.part.toNat ≤ 9) (flags : q.flags = 0)
    (absent : (request s q.subject.toNat).state = .free ∨
      (request s q.subject.toNat).fragments.length ≤ 4 * q.part.toNat - 6 ∧ 2 ≤ q.part.toNat) :
    queryRequest q s = refuse .noent s := by
  rw [queryRequest_of_good hk part flags]
  split
  · rfl
  · next used =>
    obtain ⟨beyond, list⟩ := absent.resolve_left used
    exact queryAnswer_noent (by rw [requestParts_eq]; omega)

theorem queryRequest_done (hk : q.subject.toNat ≤ 95) (part : q.part.toNat ≤ 9) (flags : q.flags = 0)
    (used : (request s q.subject.toNat).state ≠ .free)
    (there : q.part.toNat < 2 ∨ 4 * q.part.toNat - 6 < (request s q.subject.toNat).fragments.length) :
    queryRequest q s = ⟨.done, queryHead 2 q (2 + ((request s q.subject.toNat).fragments.length - 2 + 3) / 4) ++
      requestPart q.subject.toNat q.part.toNat s, s⟩ := by
  rw [queryRequest_of_good hk part flags, if_neg used, requestParts_eq]
  exact queryAnswer_done (by omega)

/-- A part of REQUEST past the first two holds four fragment places (Table 10.2). -/
theorem requestPart_list {k part : Nat} (list : 2 ≤ part) : requestPart k part s =
    fragmentPlace (request s k).fragments (4 * part - 6) ++ fragmentPlace (request s k).fragments (4 * part - 6 + 1) ++
      fragmentPlace (request s k).fragments (4 * part - 6 + 2) ++ fragmentPlace (request s k).fragments (4 * part - 6 + 3) := by
  unfold requestPart
  rw [if_neg (by omega), if_neg (by omega)]
  simp [List.range_succ, List.append_assoc]

/-! ### CALL (R173, R182) -/

theorem exec_queryCall (h : Header) (q : QueryFields) (s : State) :
    exec (.queryCall h q) s = .next (takeCommand h 0xA1 (queryCall q) s) := rfl

theorem queryCall_bad (bad : q.subject.toNat > 255 ∨ q.part.toNat > 2 ∨ q.flags.toNat > 0) :
    queryCall q s = refuse .badarg s := if_pos (bad.imp_right queryBad_of)

theorem queryCall_of_good (hk : q.subject.toNat ≤ 255) (part : q.part.toNat ≤ 2) (flags : q.flags = 0) :
    queryCall q s = if (tget s.csc.calls q.subject.toNat).state = .free then refuse .noent s
      else queryAnswer 4 q (1 + ((tget s.csc.calls q.subject.toNat).triggers.length + 4) / 5)
        (callPart (tget s.csc.calls q.subject.toNat) q.part.toNat) s s := by
  refine if_neg ?_
  rw [queryBad_of_clear part flags]
  rintro (above | bad)
  · omega
  · cases bad

theorem queryCall_noent (hk : q.subject.toNat ≤ 255) (part : q.part.toNat ≤ 2) (flags : q.flags = 0)
    (absent : (tget s.csc.calls q.subject.toNat).state = .free ∨
      (1 ≤ q.part.toNat ∧ (tget s.csc.calls q.subject.toNat).triggers.length ≤ 5 * q.part.toNat - 5)) :
    queryCall q s = refuse .noent s := by
  rw [queryCall_of_good hk part flags]
  split
  · rfl
  · next used =>
    obtain ⟨list, beyond⟩ := absent.resolve_left used
    exact queryAnswer_noent (by omega)

theorem queryCall_done (hk : q.subject.toNat ≤ 255) (part : q.part.toNat ≤ 2) (flags : q.flags = 0)
    (used : (tget s.csc.calls q.subject.toNat).state ≠ .free)
    (there : q.part.toNat = 0 ∨ 5 * q.part.toNat - 5 < (tget s.csc.calls q.subject.toNat).triggers.length) :
    queryCall q s = ⟨.done, queryHead 4 q (1 + ((tget s.csc.calls q.subject.toNat).triggers.length + 4) / 5) ++
      callPart (tget s.csc.calls q.subject.toNat) q.part.toNat, s⟩ := by
  rw [queryCall_of_good hk part flags, if_neg used]
  exact queryAnswer_done (by omega)

/-- A part of CALL past the first holds at most five triggers (Table 10.2). -/
theorem callPart_list {c : Call} {part : Nat} (list : part = 1 ∨ part = 2) (few : c.triggers.length ≤ 8) :
    callPart c part = (((c.triggers.drop (5 * part - 5)).take 5).map triggerItems).flatten := by
  rw [← List.flatMap_def]
  obtain rfl | rfl := list
  · rfl
  · rw [List.take_of_length_le (by rw [List.length_drop]; omega)]
    rfl

/-! ### STATUS and COUNTERS (R180) -/

theorem exec_queryStatus (h : Header) (q : QueryFields) (s : State) :
    exec (.queryStatus h q) s = .next (takeCommand h 0xA1 (queryStatus q) s) := rfl

theorem queryStatus_bad (bad : q.part.toNat > 1 ∨ q.flags.toNat > 0) : queryStatus q s = refuse .badarg s :=
  if_pos (queryBad_of bad)

theorem queryStatus_events {subject : Half} : queryStatus ⟨subject, 0, 0⟩ s =
    ⟨.done, queryHead 0 ⟨subject, 0, 0⟩ 2 ++ statusPart0 s, s.setCh { s.ch with eventLost := false }⟩ := by
  refine (if_neg ?_).trans ((if_pos rfl).trans (queryAnswer_done Nat.zero_lt_two))
  rw [queryBad_of_clear (Nat.zero_le 1) rfl]
  nofun

theorem queryStatus_counts {subject : Half} : queryStatus ⟨subject, 1, 0⟩ s =
    ⟨.done, queryHead 0 ⟨subject, 1, 0⟩ 2 ++ statusPart1 s, s⟩ := by
  refine (if_neg ?_).trans ((if_neg ?_).trans (queryAnswer_done (q := ⟨subject, 1, 0⟩) Nat.one_lt_two))
  · rw [queryBad_of_clear (q := ⟨subject, 1, 0⟩) (Nat.le_refl 1) rfl]
    nofun
  · nofun

theorem statusFlags_eq (ch : Ch) : statusFlags ch = ch.eventLost.toNat := by
  simp only [statusFlags, flagByte, List.foldr]
  omega

theorem recordsInUse_eq (s : State) :
    recordsInUse s = ((List.range 96).filter fun k => (request s k).state != .free).length := length_filter_toList ..

theorem callsIn_eq (s : State) (c : CallState) :
    callsIn s c = ((List.range 256).filter fun k => (tget s.csc.calls k).state == c).length := length_filter_toList ..

theorem exec_queryCounters (h : Header) (q : QueryFields) (s : State) :
    exec (.queryCounters h q) s = .next (takeCommand h 0xA1 (queryCounters q) s) := rfl

theorem queryCounters_bad (bad : q.part.toNat > 3 ∨ q.flags.toNat > 1) : queryCounters q s = refuse .badarg s :=
  if_pos (queryBad_clears_of bad)

theorem countersPart_frames (s : State) : countersPart s (0 : Byte).toNat =
    [f2 s.itp.crcErrors, f2 s.itp.missing, f2 s.ch.discards] ++
      (List.range 16).map fun i => f2 (tget s.csc.periodics i).skips := by
  refine (if_pos rfl).trans ?_
  rw [toList_eq_map_tget, List.map_map]
  rfl

theorem countersPart_zones {part first n : Nat} (which : (part, first, n) ∈ [(1, 0, 19), (2, 19, 19), (3, 38, 10)]) :
    countersPart s part = (List.range n).map fun i => f2 (tget s.zmx (first + i)).saturation := by
  simp only [List.mem_cons, Prod.mk.injEq, List.not_mem_nil, or_false] at which
  obtain ⟨rfl, rfl, rfl⟩ | ⟨rfl, rfl, rfl⟩ | ⟨rfl, rfl, rfl⟩ := which <;> rfl

theorem queryCounters_done {subject : Half} {part : Byte} (there : part.toNat ≤ 3) :
    queryCounters ⟨subject, part, 0⟩ s = ⟨.done, queryHead 5 ⟨subject, part, 0⟩ 4 ++ countersPart s part.toNat, s⟩ ∧
    queryCounters ⟨subject, part, 1⟩ s =
      ⟨.done, queryHead 5 ⟨subject, part, 0⟩ 4 ++ countersPart s part.toNat, clearCounters s⟩ := by
  have good : ∀ flags : Byte, decide (flags.toNat > 1) = false → queryBad ⟨subject, part, flags⟩ 3 true = false :=
    fun flags few => by
      rw [queryBad, few, decide_eq_false (by exact not_lt.mpr there), Bool.not_true, Bool.and_false]
      rfl
  have there : part.toNat < 4 := Nat.lt_succ_of_le there
  constructor
  · unfold queryCounters
    rw [good 0 rfl, if_neg (by nofun), queryAnswer_done there,
      if_neg (show ¬ flagBit 0 0 = true by decide)]
  · unfold queryCounters
    rw [good 1 rfl, if_neg (by nofun), queryAnswer_done there,
      if_pos (show flagBit 1 0 = true by decide)]
    rfl

/-- Settles O60: each query by its checks, its parts and what it clears. -/
theorem queriesAndIdentifyReportTheState : Obligations.QueriesAndIdentifyReportTheState := by
  refine ⟨?_, fun h q s ha bad => ?_, ?_, fun h q s ha bad => ?_, ?_, fun h q s ha bad => ?_, ?_, ?_, fun fs i => ?_,
    fun h q s ha hk part flags absent => ?_, ?_, ?_, fun h q s ha hk part flags absent => ?_, fun h q s ha bad => ?_,
    fun h subject s ha => ?_, ?_, fun h q s ha bad => ?_, ?_, fun h subject s ha => ?_, fun h subject part s ha there => ?_,
    fun h q s ha bad => ?_, fun h s ha => ?_⟩
  · intro h subject s z ha hz lt
    subst hz
    refine ⟨claimMark (claim s subject.toNat), fun k c => by rw [c]; rfl, fun k c => by rw [c]; rfl, fun c => by rw [c]; rfl, ?_⟩
    rw [exec_queryZone, takeCommand_done ha (queryZone_done lt) rfl, zoneItems, zoneQueryFlags_eq]
    rfl
  · rw [exec_queryZone, takeCommand_refused ha (queryZone_bad bad)]
  · intro h subject s e x ha he lt hx
    subst he hx
    refine ⟨match engineFragment s (tget s.engines subject.toNat) with
      | some f => f4 (fragmentFrames f)
      | none => .b4 (openValue 9 s), fun f there => by rw [there], ?_⟩
    rw [exec_queryEngine, takeCommand_done ha (queryEngine_done lt) rfl, engineItems, beq_eq_decide]
    rfl
  · rw [exec_queryEngine, takeCommand_refused ha (queryEngine_bad bad)]
  · intro h subject s k r ha hk lt hr used
    subst hk hr
    rw [exec_queryRequest, takeCommand_done ha 
      (queryRequest_done (q := ⟨subject, 0, 0⟩) lt (Nat.zero_le 9) rfl used (.inl Nat.zero_lt_two)) rfl]
    rfl
  · rw [exec_queryRequest, takeCommand_refused ha (queryRequest_bad bad)]
  · intro h subject s k r ha hk lt hr used
    subst hk hr
    refine ⟨.b4 ((request s subject.toNat).latestStart.getD (openValue 7 s)), fun d hd => by rw [hd]; rfl, ?_⟩
    rw [exec_queryRequest, takeCommand_done ha
      (queryRequest_done (q := ⟨subject, 1, 0⟩) lt (by exact Nat.le_of_ble_eq_true rfl) rfl used (.inl Nat.one_lt_two)) rfl]
    rfl
  · intro h subject part s k r n ha hk lt hr used list few hn there
    subst hk hr hn
    rw [exec_queryRequest, takeCommand_done ha
      (queryRequest_done (q := ⟨subject, part, 0⟩) lt few rfl used (.inr there)) rfl, requestPart_list list,
      ← List.append_assoc, ← List.append_assoc, ← List.append_assoc]
    rfl
  · refine ⟨fun beyond => ?_, fun start length there => ?_, fun frames there => ?_⟩
    · rw [fragmentPlace, List.getElem?_eq_none beyond]
      rfl
    · rw [fragmentPlace, there]
      rfl
    · rw [fragmentPlace, there]
      rfl
  · rw [exec_queryRequest, takeCommand_refused ha (queryRequest_noent hk part flags absent)]
  · intro h subject s c ha lt hc used
    subst hc
    rw [exec_queryCall, takeCommand_done ha
      (queryCall_done (q := ⟨subject, 0, 0⟩) lt (Nat.zero_le 2) rfl used (.inl rfl)) rfl]
    rfl
  · intro h subject part s c rest ha lt hc used list there few hrest
    subst hc hrest
    rw [exec_queryCall, takeCommand_done ha
      (queryCall_done (q := ⟨subject, part, 0⟩) lt (by dsimp only; omega) rfl used (.inr there)) rfl, callPart_list list few]
    rfl
  · rw [exec_queryCall, takeCommand_refused ha (queryCall_noent hk part flags absent)]
  · rw [exec_queryCall, takeCommand_refused ha (queryCall_bad bad)]
  · rw [exec_queryStatus, takeCommand_done ha queryStatus_events rfl, statusPart0, statusFlags_eq]
    rfl
  · intro h subject s records calls ha hr hc
    rw [exec_queryStatus, takeCommand_done ha queryStatus_counts rfl, statusPart1, recordsInUse_eq, ← hr, callsIn_eq,
      callsIn_eq, callsIn_eq, callsIn_eq, ← hc, ← hc, ← hc, ← hc]
    rfl
  · rw [exec_queryStatus, takeCommand_refused ha (queryStatus_bad bad)]
  · intro h subject part s first n ha which
    have there : part.toNat ≤ 3 := by
      simp only [List.mem_cons, Prod.mk.injEq, List.not_mem_nil, or_false] at which
      omega
    rw [exec_queryCounters, takeCommand_done ha (queryCounters_done there).1 rfl, countersPart_zones which]
    rfl
  · rw [exec_queryCounters, takeCommand_done ha (queryCounters_done (part := 0) (Nat.zero_le 3)).1 rfl, countersPart_frames]
    rfl
  · refine ⟨clearCounters s, queryHead 5 ⟨subject, part, 0⟩ 4 ++ countersPart s part.toNat, ?_, ?_, rfl,
      fun i lt => ?_, fun z lt => ?_⟩
    · rw [exec_queryCounters, takeCommand_done ha (queryCounters_done there).1 rfl]
    · rw [exec_queryCounters, takeCommand_done ha (queryCounters_done there).2 rfl]
    · exact tget_map _ _ i lt
    · exact tget_map _ _ z lt
  · rw [exec_queryCounters, takeCommand_refused ha (queryCounters_bad bad)]
  · change Host.Outcome.next (takeCommand h 0xA2 identify s) = _
    rw [takeCommand_done (run := identify) ha rfl rfl]
    rfl

end Sys2Proof.Machine
end

section
/-! The playout engines: the sample an engine puts on its lane in a frame period, and its next place in its list (R96, R100 to R102, R107). -/

namespace Sys2Proof.Machine

/-! ### The place of an engine in its list -/

/-- The engine is bound to request `h` and is at fragment `f`, the one of index `i` in the request's list. -/
structure StandsAt (s : State) (x : Engine) (h i : Nat) (f : Fragment) : Prop where
  bound : x.handle = some h
  place : x.fragment = some i
  there : (request s h).fragments[i]? = some f

section Place

variable {s : State} {x : Engine} {h i : Nat} {f : Fragment}

theorem engineList_of_bound (bound : x.handle = some h) : engineList s x = (request s h).fragments := by
  rw [engineList, bound]
  rfl

theorem StandsAt.fragment (stands : StandsAt s x h i f) : engineFragment s x = some f := by
  rw [engineFragment, stands.place, engineList_of_bound stands.bound]
  exact stands.there

theorem engineFragment_none (place : x.fragment = none) : engineFragment s x = none := by
  rw [engineFragment, place, Option.bind_none]

/-! ### The base sample (R100 to R102) -/

theorem baseSample_within (stands : StandsAt s x h i f) (within : x.position < fragmentFrames f) :
    baseSample s x = fragmentSample s.cmc f x.position := by
  rw [baseSample, stands.fragment]
  exact if_pos within

theorem baseSample_past (stands : StandsAt s x h i f) (past : fragmentFrames f ≤ x.position) : baseSample s x = 0 := by
  rw [baseSample, stands.fragment]
  exact if_neg (not_lt.mpr past)

theorem baseSample_none (place : x.fragment = none) : baseSample s x = 0 := by
  rw [baseSample, engineFragment_none place]

/-- Within a clip, an even position gives a stored sample and an odd one the floored midpoint to the next; the last sample is held (R101, R102). -/
theorem fragmentSample_clip (m : Cmc) (start : Nat) {length pos : Nat} (within : pos < 2 * length) :
    fragmentSample m (.clip start length) pos =
      if pos % 2 = 0 ∨ pos / 2 + 1 = length then (clipAt m (start + pos / 2)).toInt * 256
      else ((clipAt m (start + pos / 2)).toInt + (clipAt m (start + pos / 2 + 1)).toInt) / 2 * 256 := by
  by_cases stored : pos % 2 = 0 ∨ pos / 2 + 1 = length
  · rw [if_pos stored]
    exact if_neg (by omega)
  · rw [if_neg stored]
    exact if_pos (by omega)

/-! ### The next place (R100, R107) -/

theorem advancePosition_within (stands : StandsAt s x h i f) (within : x.position < fragmentFrames f) :
    advancePosition s x = { x with position := x.position + 1 } := by
  rw [advancePosition, stands.fragment]
  dsimp only
  rw [min_eq_right (Nat.succ_le_of_lt within)]

theorem advancePosition_full (stands : StandsAt s x h i f) (full : x.position = fragmentFrames f) : advancePosition s x = x := by
  rw [advancePosition, stands.fragment]
  dsimp only
  rw [full, min_eq_left (Nat.le_succ _), ← full]

theorem advancePosition_none (place : x.fragment = none) : advancePosition s x = x := by
  rw [advancePosition, engineFragment_none place]

theorem passFragment_at (stands : StandsAt s x h i f) : passFragment s x =
    if fragmentFrames f ≤ x.position ∧ i + 1 < (request s h).fragments.length then
      { x with fragment := some (i + 1), position := 0 } else x := by
  rw [passFragment, stands.place, stands.fragment, engineList_of_bound stands.bound]

theorem passFragment_within (stands : StandsAt s x h i f) (within : x.position < fragmentFrames f) : passFragment s x = x := by
  rw [passFragment_at stands, if_neg fun c => not_lt.mpr c.1 within]

theorem passFragment_last (stands : StandsAt s x h i f) (last : i + 1 = (request s h).fragments.length) :
    passFragment s x = x := by
  rw [passFragment_at stands, if_neg fun c => c.2.ne last]

theorem passFragment_next (stands : StandsAt s x h i f) (past : fragmentFrames f ≤ x.position)
    (more : i + 1 < (request s h).fragments.length) :
    passFragment s x = { x with fragment := some (i + 1), position := 0 } := by
  rw [passFragment_at stands, if_pos ⟨past, more⟩]

theorem passFragment_none (place : x.fragment = none) : passFragment s x = x := by
  rw [passFragment, place]

/-! ### One frame period of an engine (R96) -/

theorem engineStep_silent (still : x.state = .idle ∨ x.state = .preroll) : engineStep s x = { x with output := 0 } := by
  rcases still with idle | preroll
  · rw [engineStep, idle]
  · rw [engineStep, preroll]

theorem engineStep_playing (playing : x.state = .playing) :
    engineStep s x = { advancePosition s x with output := BitVec.ofInt 24 (baseSample s x) } := by
  rw [engineStep, playing]

theorem engineStep_playing_within (playing : x.state = .playing) (stands : StandsAt s x h i f)
    (within : x.position < fragmentFrames f) : engineStep s x =
      { x with
        position := x.position + 1
        output := BitVec.ofInt 24 (fragmentSample s.cmc f x.position) } := by
  rw [engineStep_playing playing, advancePosition_within stands within, baseSample_within stands within]

/-- A STOPPING engine passes a fragment that is over first, then outputs, advances, and passes the fragment it has just ended (R107). -/
theorem engineStep_stopping (stopping : x.state = .stopping) : engineStep s x =
    { passFragment s (advancePosition s (passFragment s x)) with
      fade := (passFragment s x).fade - 1
      output := BitVec.ofInt 24 (baseSample s (passFragment s x) * (((passFragment s x).fade - 1 : Nat) : Int) / 64) } := by
  rw [engineStep, stopping]

/-- A STOPPING engine within a fragment, which it was at or has passed to (R107). -/
theorem engineStep_fading {p : Engine} (stopping : x.state = .stopping) (passed : passFragment s x = p)
    (stands : StandsAt s p h i f) (within : p.position < fragmentFrames f) : engineStep s x =
      { passFragment s { p with position := p.position + 1 } with
        fade := p.fade - 1
        output := BitVec.ofInt 24 (fragmentSample s.cmc f p.position * ((p.fade - 1 : Nat) : Int) / 64) } := by
  rw [engineStep_stopping stopping, passed, advancePosition_within stands within, baseSample_within stands within]

/-- A STOPPING engine without a base sample stays at its place, and only its fade goes on (R107). -/
theorem engineStep_faded (stopping : x.state = .stopping) (stays : passFragment s x = x)
    (holds : advancePosition s x = x) (silent : baseSample s x = 0) :
    engineStep s x = { x with fade := x.fade - 1, output := 0 } := by
  rw [engineStep_stopping stopping, stays, holds, stays, silent, Int.zero_mul, Int.zero_ediv]
  rfl

end Place

/-- The engines after the start work: each has made its step on the state at the start of the period (R96). -/
theorem tget_startPeriod_engines {s : State} (h : s.period.started = false) {e : Nat} (he : e < 6) :
    tget (startPeriod s).engines e = engineStep s (tget s.engines e) := by
  rw [startPeriod_of_not_started h, beginPeriod]
  dsimp only
  rw [chooseCell_engines, tget_map _ _ e he, engineStep_chooseCell]

/-- Settles O25: the start work makes one `engineStep` of every engine; the clauses are its cases by state and place. -/
theorem anEnginePlaysItsList : Obligations.AnEnginePlaysItsList := by
  intro s e hs he
  refine ⟨_, exec_framePeriod_start s, ?_⟩
  rintro x y hx rfl
  rw [tget_startPeriod_engines hs he, ← hx]
  refine ⟨engineStep_silent, fun i h start length playing bound place there within => ?_,
    fun i h n playing bound place there within => engineStep_playing_within playing ⟨bound, place, there⟩ within,
    fun i h f stopping bound place there within _ => ?_, fun i h f g stopping bound place there past next long _ => ?_,
    fun i h f stopping bound place there full last _ => ?_, fun stopping place _ => ?_⟩
  · rw [engineStep_playing_within playing ⟨bound, place, there⟩ within, fragmentSample_clip _ _ within]
  · have stands : StandsAt s x h i f := ⟨bound, place, there⟩
    have ahead : StandsAt s { x with position := x.position + 1 } h i f := ⟨bound, place, there⟩
    rw [engineStep_fading stopping (passFragment_within stands within) stands within]
    rcases Nat.lt_or_eq_of_le (Nat.succ_le_of_lt within) with short | full
    · rw [passFragment_within ahead short]
      exact ⟨stopping, bound, rfl, rfl, rfl, fun _ => ⟨place, rfl⟩, fun full => absurd full short.ne,
        fun full => absurd full short.ne⟩
    · rcases Nat.lt_or_eq_of_le (Nat.succ_le_of_lt (List.getElem?_eq_some_iff.mp there).1) with more | last
      · rw [passFragment_next ahead full.ge more]
        exact ⟨stopping, bound, rfl, rfl, rfl, fun short => absurd full short.ne, fun _ _ => ⟨rfl, rfl⟩,
          fun _ last => absurd last more.ne⟩
      · rw [passFragment_last ahead last]
        exact ⟨stopping, bound, rfl, rfl, rfl, fun short => absurd full short.ne, fun _ more => absurd last more.ne,
          fun _ _ => ⟨place, full⟩⟩
  · have more : i + 1 < (request s h).fragments.length := (List.getElem?_eq_some_iff.mp next).1
    have passed : StandsAt s { x with fragment := some (i + 1), position := 0 } h (i + 1) g := ⟨bound, rfl, next⟩
    have ahead : StandsAt s { x with fragment := some (i + 1), position := 1 } h (i + 1) g := ⟨bound, rfl, next⟩
    rw [engineStep_fading stopping (passFragment_next ⟨bound, place, there⟩ past more) passed (Nat.zero_lt_of_lt long),
      passFragment_within ahead long]
  · have stands : StandsAt s x h i f := ⟨bound, place, there⟩
    exact engineStep_faded stopping (passFragment_last stands last) (advancePosition_full stands full)
      (baseSample_past stands full.ge)
  · exact engineStep_faded stopping (passFragment_none place) (advancePosition_none place) (baseSample_none place)

end Sys2Proof.Machine
end

section
/-! The use counts and the clip memory: what every operation but CLIP_WRITE and power-on keeps of both (R72, R84, R103, R117). -/

namespace Sys2Proof.Machine
set_option Elab.async false

/-! ### The clip fragments that lie in a bank -/

/-- The number of clip fragments of a record whose clip lies in a bank (R117). -/
def clipUses (b : Nat) (r : Request) : Nat := (r.fragments.filter fun f => fragmentBank f == some b).length

theorem clipUses_of_nil {r : Request} (b : Nat) (h : r.fragments = []) : clipUses b r = 0 := by rw [clipUses, h]; rfl

theorem sum_map_range (n : Nat) (f : Nat → Nat) : ((List.range n).map f).sum = ∑ i ∈ Finset.range n, f i := rfl

/-- The clip fragments of all records that lie in a bank. -/
def allUses (s : State) (b : Nat) : Nat := ∑ h ∈ Finset.range 96, clipUses b (request s h)

theorem allUses_congr {s t : State} (b : Nat) (h : ∀ k, k < 96 → clipUses b (request t k) = clipUses b (request s k)) :
    allUses t b = allUses s b := Finset.sum_congr rfl fun k hk => h k (Finset.mem_range.mp hk)

/-- Where FREE records hold no fragments, a bank's uses are those of all records (R68, R117). -/
theorem bankUses_eq_allUses {s : State}
    (free : ∀ h, h < 96 → (request s h).state = .free → (request s h).fragments = []) (b : Nat) :
    bankUses s b = allUses s b := by
  refine (sum_map_range 96 _).trans (Finset.sum_congr rfl fun h hh => ?_)
  split
  · next e => exact (clipUses_of_nil b (free h (Finset.mem_range.mp hh) e)).symm
  · rfl

/-- When one record changes, the uses of a bank change by what it held and what it holds. -/
theorem allUses_of_one {s t : State} {h : Nat} (hh : h < 96) (others : ∀ k, k ≠ h → request t k = request s k) (b : Nat) :
    allUses t b + clipUses b (request s h) = allUses s b + clipUses b (request t h) := by
  have mem : h ∈ Finset.range 96 := Finset.mem_range.mpr hh
  have rest : ∑ k ∈ (Finset.range 96).erase h, clipUses b (request t k) =
      ∑ k ∈ (Finset.range 96).erase h, clipUses b (request s k) :=
    Finset.sum_congr rfl fun k hk => congrArg (clipUses b) (others k (Finset.ne_of_mem_erase hk))
  have before := Finset.add_sum_erase _ (fun k => clipUses b (request s k)) mem
  have after := Finset.add_sum_erase _ (fun k => clipUses b (request t k)) mem
  rw [allUses, allUses]
  omega

/-- As a reset leaves the records, none uses a bank. -/
theorem allUses_of_free {s : State} (free : ∀ h, h < 96 → (request s h).fragments = []) (b : Nat) : allUses s b = 0 :=
  Finset.sum_eq_zero fun h hh => clipUses_of_nil b (free h (Finset.mem_range.mp hh))

/-- The count of a bank after some banks are used. -/
theorem tget_foldl_raise (b : Nat) (hb : b < 64) : ∀ (bs : List Nat) (v : Vector Nat 64),
    tget (bs.foldl (fun v b => tmod v b (· + 1)) v) b = tget v b + (bs.filter (· == b)).length
  | [], _ => rfl
  | c :: bs, v => by
    rw [List.foldl_cons, tget_foldl_raise b hb bs, tget_tmod, List.filter_cons]
    by_cases e : c = b
    · subst e
      rw [if_pos ⟨rfl, hb⟩, if_pos (beq_self_eq_true c), List.length_cons]
      omega
    · rw [if_neg fun d => e d.1, if_neg (by simpa using e)]

theorem useCounts_admitRecord (h : Nat) (r : Request) (s : State) {b : Nat} (hb : b < 64) :
    tget (admitRecord h r s).cmc.useCounts b = tget s.cmc.useCounts b + clipUses b r := by
  rw [clipUses, ← length_filter_filterMap_fragmentBank, ← tget_foldl_raise b hb]
  rfl

theorem useCounts_endRequest_clipUses (h : Nat) (c : EndCause) (s : State) {b : Nat} (hb : b < 64) :
    tget (endRequest h c s).cmc.useCounts b = tget s.cmc.useCounts b - clipUses b (request s h) :=
  useCounts_endRequest h c s hb

namespace UseCountsAgree

variable {s t : State}

theorem counts_eq (a : UseCountsAgree s) {b : Nat} (hb : b < 64) : tget s.cmc.useCounts b = allUses s b :=
  (a.counts b hb).trans (bankUses_eq_allUses a.free b)

theorem of_allUses (free : ∀ h, h < 96 → (request s h).state = .free → (request s h).fragments = [])
    (counts : ∀ b, b < 64 → tget s.cmc.useCounts b = allUses s b) : UseCountsAgree s :=
  ⟨fun b hb => (counts b hb).trans (bankUses_eq_allUses free b).symm, free⟩

/-- A bank's count is at least what one record uses of it. -/
theorem clipUses_le (a : UseCountsAgree s) {h b : Nat} (hh : h < 96) (hb : b < 64) :
    clipUses b (request s h) ≤ tget s.cmc.useCounts b := by
  rw [a.counts_eq hb]
  exact Finset.single_le_sum (f := fun h => clipUses b (request s h)) (fun _ _ => Nat.zero_le _) (Finset.mem_range.mpr hh)

/-- One record changes, and each count with what the record uses of its bank. -/
theorem of_one (a : UseCountsAgree s) {h : Nat} (hh : h < 96) (others : ∀ k, k ≠ h → request t k = request s k)
    (own : (request t h).state = .free → (request t h).fragments = [])
    (counts : ∀ b, b < 64 → tget t.cmc.useCounts b + clipUses b (request s h) =
      tget s.cmc.useCounts b + clipUses b (request t h)) : UseCountsAgree t := by
  refine of_allUses (fun k hk e => ?_) fun b hb => ?_
  · by_cases this : k = h
    · subst this
      exact own e
    · rw [others k this] at e ⊢
      exact a.free k hk e
  · have uses := allUses_of_one hh others b
    have count := counts b hb
    rw [a.counts_eq hb] at count
    omega

/-- As a reset leaves it, every record is FREE and no bank is used (R94, R117). -/
theorem of_reset (hz : s.zar = resetZar) (hu : s.cmc.useCounts = Vector.replicate 64 0) : UseCountsAgree s := by
  have empty : ∀ h, h < 96 → (request s h).fragments = [] := fun h hh => by
    rw [request, hz]
    exact congrArg Request.fragments (tget_replicate _ h hh)
  refine of_allUses (fun h hh _ => empty h hh) fun b hb => ?_
  rw [hu, tget_replicate _ b hb, allUses_of_free empty]

end UseCountsAgree

/-! ### The relation -/

/-- The law of the use counts is carried on from `s` to `t`, and no sample is written between them. -/
structure KeepsUses (s t : State) : Prop where
  counts : UseCountsAgree s → UseCountsAgree t
  memory : t.cmc.memory = s.cmc.memory
  powerCycle : t.cmc.powerCycle = s.cmc.powerCycle

namespace KeepsUses

variable {s t u : State}

theorem refl (s : State) : KeepsUses s s := ⟨id, rfl, rfl⟩

theorem trans (a : KeepsUses s t) (b : KeepsUses t u) : KeepsUses s u :=
  ⟨b.counts ∘ a.counts, b.memory.trans a.memory, b.powerCycle.trans a.powerCycle⟩

/-- Records keep their fragments, and none becomes FREE; the use counts stand. -/
theorem of_records (b : KeepsUses s t) (hr : ∀ h, h < 96 → (request u h).fragments = (request t h).fragments ∧
      ((request u h).state = .free → (request t h).state = .free))
    (hu : u.cmc.useCounts = t.cmc.useCounts := by rfl) (hm : u.cmc.memory = t.cmc.memory := by rfl)
    (hc : u.cmc.powerCycle = t.cmc.powerCycle := by rfl) : KeepsUses s u where
  counts hs := by
    have agree := b.counts hs
    refine .of_allUses (fun k hk e => ?_) fun c hc => ?_
    · rw [(hr k hk).1]
      exact agree.free k hk ((hr k hk).2 e)
    · rw [hu, agree.counts_eq hc]
      exact (allUses_congr c fun k hk => by rw [clipUses, clipUses, (hr k hk).1]).symm
  memory := hm.trans b.memory
  powerCycle := hc.trans b.powerCycle

/-- Where neither records, use counts nor samples change. -/
theorem same (b : KeepsUses s t) (hr : u.zar.requests = t.zar.requests := by rfl)
    (hu : u.cmc.useCounts = t.cmc.useCounts := by rfl) (hm : u.cmc.memory = t.cmc.memory := by rfl)
    (hc : u.cmc.powerCycle = t.cmc.powerCycle := by rfl) : KeepsUses s u :=
  b.of_records (fun h _ => by rw [request, request, hr]; exact ⟨rfl, id⟩) hu hm hc

/-- As a reset leaves it (R94, R117). -/
theorem of_reset (hz : t.zar = resetZar) (hu : t.cmc.useCounts = Vector.replicate 64 0)
    (hm : t.cmc.memory = s.cmc.memory) (hc : t.cmc.powerCycle = s.cmc.powerCycle) : KeepsUses s t :=
  ⟨fun _ => .of_reset hz hu, hm, hc⟩

theorem foldl {α : Type} {f : State → α → State} (hf : ∀ t a, KeepsUses s t → KeepsUses s (f t a)) (l : List α)
    (b : KeepsUses s t) : KeepsUses s (l.foldl f t) := foldl_keeps _ f hf l t b

/-- A fold over states with a tally keeps what each of its steps keeps. -/
theorem foldl_fst {α β : Type} {f : State × β → α → State × β}
    (hf : ∀ p a, KeepsUses s p.1 → KeepsUses s (f p a).1) (l : List α) {p : State × β} (b : KeepsUses s p.1) :
    KeepsUses s (l.foldl f p).1 := foldl_keeps (fun p => KeepsUses s p.1) f hf l p b

/-! ### Updates of the arbiter -/

/-- A record that keeps its fragments and does not become FREE. -/
theorem setRequest_of (b : KeepsUses s t) (h : Nat) {r : Request} (hf : r.fragments = (request t h).fragments)
    (hs : r.state = .free → (request t h).state = .free) : KeepsUses s (Machine.setRequest h r t) :=
  b.of_records fun k _ => by
    rw [request_setRequest]
    split
    · next e =>
      obtain ⟨rfl, -⟩ := e
      exact ⟨hf, hs⟩
    · exact ⟨rfl, id⟩

/-- A record that keeps its state. -/
theorem setRequest (b : KeepsUses s t) (h : Nat) {r : Request} (hs : r.state = (request t h).state := by rfl)
    (hf : r.fragments = (request t h).fragments := by rfl) : KeepsUses s (Machine.setRequest h r t) :=
  b.setRequest_of h hf fun e => hs ▸ e

/-- A record that enters a state other than FREE. -/
theorem moveRequest (b : KeepsUses s t) (h : Nat) {r : Request} (hs : r.state ≠ .free := by nofun)
    (hf : r.fragments = (request t h).fragments := by rfl) : KeepsUses s (Machine.setRequest h r t) :=
  b.setRequest_of h hf fun e => absurd e hs

theorem pushEvent (b : KeepsUses s t) (kind cause : Byte) (n : Nat) (d : List Field) :
    KeepsUses s (Machine.pushEvent kind cause n d t) := by
  rw [pushEvent_spec]
  exact b.same

theorem setEngine (b : KeepsUses s t) (e : Nat) (x : Engine) : KeepsUses s (Machine.setEngine e x t) := b.same

theorem setWork (b : KeepsUses s t) (w : Work) : KeepsUses s (t.setWork w) := b.same

theorem releaseEngine (b : KeepsUses s t) (e : Nat) : KeepsUses s (Machine.releaseEngine e t) := by
  simp only [Machine.releaseEngine]
  split <;> exact b.same

theorem releaseEngine? (b : KeepsUses s t) (e : Option Nat) : KeepsUses s (Machine.releaseEngine? e t) := by
  cases e
  · exact b
  · exact b.releaseEngine _

theorem memory_endRequest (h : Nat) (c : EndCause) (s : State) : (Machine.endRequest h c s).cmc.memory = s.cmc.memory ∧
    (Machine.endRequest h c s).cmc.powerCycle = s.cmc.powerCycle := by
  rw [endRequest_eq, leaving_spec, raiseEnded, pushEvent_spec, tellScheduler_spec]
  exact ⟨rfl, rfl⟩

/-- An end gives back the banks of the record that it frees (R84 step 5). -/
theorem endRequest (b : KeepsUses s t) (h : Nat) (c : EndCause) : KeepsUses s (Machine.endRequest h c t) := by
  obtain ⟨memory, cycle⟩ := memory_endRequest h c t
  by_cases hh : h < 96
  · refine ⟨fun hs => ?_, memory.trans b.memory, cycle.trans b.powerCycle⟩
    have agree := b.counts hs
    have freed : request (Machine.endRequest h c t) h = freeRequest := by rw [request_endRequest, if_pos ⟨rfl, hh⟩]
    refine agree.of_one hh (fun k hk => ?_) (fun _ => congrArg Request.fragments freed) fun n hn => ?_
    · rw [request_endRequest, if_neg fun e => hk e.1.symm]
    · have held := agree.clipUses_le hh hn
      rw [useCounts_endRequest_clipUses h c t hn, freed, clipUses_of_nil n (r := freeRequest) rfl]
      omega
  · have counts : (Machine.endRequest h c t).cmc.useCounts = t.cmc.useCounts := by
      rw [endRequest_eq, leaving_spec, raiseEnded, pushEvent_spec, tellScheduler_spec, request_of_le (not_lt.mp hh)]
      rfl
    refine b.of_records (fun k _ => ?_) counts memory cycle
    rw [request_endRequest, if_neg fun e => hh e.2]
    exact ⟨rfl, id⟩

/-- An admission takes the banks of the record that it fills (R72 step 4). -/
theorem admitRecord (b : KeepsUses s t) {h : Nat} (found : freeHandle? t = some h) (r : Request) :
    KeepsUses s (Machine.admitRecord h r t) where
  counts hs := by
    have agree := b.counts hs
    obtain ⟨hh, unused⟩ := freeHandle?_spec found
    have filled : request (Machine.admitRecord h r t) h = admitted r t := by rw [request_admitRecord, if_pos ⟨rfl, hh⟩]
    refine agree.of_one hh (fun k hk => ?_) (fun free => ?_) fun n hn => ?_
    · rw [request_admitRecord, if_neg fun e => hk e.1.symm]
    · rw [filled] at free
      cases free
    · rw [useCounts_admitRecord h r t hn, filled, clipUses_of_nil n (agree.free h hh unused)]
      rfl
  memory := b.memory
  powerCycle := b.powerCycle

end KeepsUses
end Sys2Proof.Machine
end

section
/-! The arbiter's and the scheduler's operations keep the law of the use counts and write no sample (Chapters 5, 6, 9). -/

namespace Sys2Proof.Machine
set_option Elab.async false

namespace KeepsUses

variable {s t : State}

/-! ### Ends, joins and losses of zones (R79 to R84) -/

theorem enterEnding (b : KeepsUses s t) (h : Nat) (o : EndingOutcome) : KeepsUses s (Machine.enterEnding h o t) := by
  unfold Machine.enterEnding
  simp only
  split
  · exact (b.moveRequest h).setEngine ..
  · exact b.moveRequest h

theorem endLive (b : KeepsUses s t) (h : Nat) (c : EndCause) : KeepsUses s (Machine.endLive h c t) := by
  unfold Machine.endLive
  split
  · exact b.endRequest ..
  · exact b.enterEnding ..

theorem joinLive (b : KeepsUses s t) (h : Nat) : KeepsUses s (Machine.joinLive h t) := by
  have joined : KeepsUses s (writeClaims (pendingLive t h) (.joined h) t) := b.same
  unfold Machine.joinLive
  simp only
  split
  · exact b
  · split
    · exact (joined.moveRequest h).pushEvent ..
    · exact joined

theorem joinLane (b : KeepsUses s t) (h : Nat) : KeepsUses s (Machine.joinLane h t) := by
  unfold Machine.joinLane
  simp only
  split
  · exact b.joinLive h
  · exact b

theorem leavePreroll (b : KeepsUses s t) (e : Nat) : KeepsUses s (Machine.leavePreroll e t) := by
  unfold Machine.leavePreroll
  simp only
  repeat' split
  · exact b
  · exact b.endRequest ..
  · exact (b.setEngine ..).joinLive _
  · exact b

theorem testEngine (b : KeepsUses s t) (e : Option Nat) : KeepsUses s (Machine.testEngine e t) := by
  cases e
  · exact b
  · exact b.leavePreroll _

theorem displace (b : KeepsUses s t) (h : Nat) (c : RemovalCause) : KeepsUses s (Machine.displace h c t) := by
  unfold Machine.displace
  simp only
  split
  · exact b.enterEnding ..
  · exact b.endRequest ..

theorem unwait (b : KeepsUses s t) (e : Option Nat) (zs : ZoneSet) : KeepsUses s (Machine.unwait e zs t) := by
  unfold Machine.unwait
  split
  · simp only
    split
    · exact b.setEngine ..
    · exact b
  · exact b

theorem loseZones (b : KeepsUses s t) (h : Nat) (zs : ZoneSet) (c : RemovalCause) (k : Option Nat) :
    KeepsUses s (Machine.loseZones h zs c k t) := by
  have cleared : KeepsUses s (writeClaims zs .empty t) := b.same
  have shrunk := cleared.setRequest h (r := withPartial { request t h with granted := zdiff (request t h).granted zs })
  have lost := (shrunk.unwait (request t h).engine zs).pushEvent
      0x05 (BitVec.ofNat 8 (removalCode c)) h [f1? k, fZones zs, fZones (zdiff (request t h).granted zs)]
  unfold Machine.loseZones
  simp only
  split
  · exact lost.displace ..
  · exact lost.testEngine _

/-! ### The arbitration pass (R75 to R78) -/

theorem takeZones (b : KeepsUses s t) (h : Nat) (zs : ZoneSet) : KeepsUses s (Machine.takeZones h zs t) :=
  foldl (fun _ k b => b.loseZones k.1 k.2 .preemption (some h)) _ b

theorem granting (b : KeepsUses s t) (h : Nat) (zs : ZoneSet) (bind : Bool) :
    KeepsUses s (Machine.granting h zs bind t) := by
  have left : KeepsUses s (dequeue h t) := b.same
  exact left.moveRequest h

theorem bindIdle (b : KeepsUses s t) (h : Nat) (zs : ZoneSet) (bind : Bool) :
    KeepsUses s (Machine.bindIdle h zs bind t) := by
  obtain ⟨e, -⟩ | ⟨n, -, -, e⟩ := bindIdle_cases h zs bind t <;> rw [e]
  · exact b
  · exact (b.setRequest h).setEngine ..

theorem grant (b : KeepsUses s t) (h : Nat) (zs : ZoneSet) (bind : Bool) : KeepsUses s (Machine.grant h zs bind t) := by
  have claimed : KeepsUses s (writeClaims zs (.pendingJoin h) (Machine.takeZones h zs (Machine.granting h zs bind t))) :=
    ((b.granting h zs bind).takeZones h zs).same
  rw [grant_eq]
  exact (claimed.bindIdle h zs bind).joinLane h

theorem stopVictim (b : KeepsUses s t) : KeepsUses s (Machine.stopVictim t) := by
  unfold Machine.stopVictim
  split
  · exact b
  · split
    · exact b
    · exact (b.enterEnding ..).same

theorem walkRequest {p : State × Bool} (b : KeepsUses s p.1) (h : Nat) : KeepsUses s (Machine.walkRequest p h).1 := by
  obtain e | ⟨-, -, bind, -, -, e⟩ | e := walkRequest_cases p h <;> rw [e]
  · exact b
  · exact b.grant ..
  · exact b.stopVictim

theorem addWait (b : KeepsUses s t) (e : Option Nat) (zs : ZoneSet) : KeepsUses s (Machine.addWait e zs t) := by
  unfold Machine.addWait
  split
  · simp only
    split
    · exact b.setEngine ..
    · exact b
  · exact b

theorem takeLate (b : KeepsUses s t) (h : Nat) (zs : ZoneSet) : KeepsUses s (Machine.takeLate h zs t) := by
  have claimed : KeepsUses s (writeClaims zs (.pendingJoin h) t) := b.same
  exact (claimed.setRequest h).addWait ..

theorem lateJoin (t : State) (h : Nat) (b : KeepsUses s t) : KeepsUses s (Machine.lateJoin t h) := by
  obtain e | ⟨-, e⟩ := lateJoin_cases t h <;> rw [e]
  · exact b
  · exact (b.takeLate ..).joinLane h

theorem pass (b : KeepsUses s t) : KeepsUses s (Machine.pass t) :=
  (foldl lateJoin _ (foldl_fst (fun _ h b => b.walkRequest h) _ (p := (_, false)) (b.setWork _))).setWork _

theorem prerollTests (b : KeepsUses s t) : KeepsUses s (Machine.prerollTests t) :=
  foldl (fun _ e b => b.leavePreroll e) _ b

theorem passes (n : Nat) (b : KeepsUses s t) : KeepsUses s (Machine.passes n t) := by
  induction n generalizing t with
  | zero => exact b
  | succ n ih =>
    unfold Machine.passes
    split
    · exact ih b.pass.prerollTests
    · exact b

/-! ### Boundaries and fade ends (R86, R104, R108) -/

theorem continueList (b : KeepsUses s t) (e h i : Nat) : KeepsUses s (Machine.continueList e h i t) := by
  unfold Machine.continueList
  simp only
  split
  · exact b.setEngine ..
  · exact (b.setEngine ..).pushEvent ..

theorem takeBoundary (b : KeepsUses s t) (e h i : Nat) : KeepsUses s (Machine.takeBoundary e h i t) := by
  have joined := b.joinLive h
  have handed : KeepsUses s (handOver e h (Machine.joinLive h t)) := ((joined.setRequest h).releaseEngine e).setWork _
  unfold Machine.takeBoundary
  split
  · exact b.endRequest ..
  · simp only
    repeat' split
    · exact handed
    · exact joined.endRequest ..
    · exact joined.continueList ..

theorem boundary (b : KeepsUses s t) (e : Nat) : KeepsUses s (Machine.boundary e t) := by
  unfold Machine.boundary
  simp only
  split
  · exact b.takeBoundary ..
  · exact b

theorem cmc_requeue (h : Nat) (t : State) : (Machine.requeue h t).cmc = t.cmc := by
  simp only [Machine.requeue, needPass, State.setWork_cmc, pushEvent_spec, State.setCh_cmc, enqueue, State.setZar_cmc,
    Machine.setRequest]
  rw [releaseEngine?_spec]
  rfl

theorem requeue (b : KeepsUses s t) (h : Nat) : KeepsUses s (Machine.requeue h t) := by
  have cmc := cmc_requeue h t
  refine b.of_records (fun k _ => ?_) (by rw [cmc]) (by rw [cmc]) (by rw [cmc])
  rw [request_requeue]
  split
  · next e =>
    obtain ⟨rfl, -⟩ := e
    exact ⟨rfl, nofun⟩
  · exact ⟨rfl, id⟩

theorem takeOutcome (b : KeepsUses s t) (h : Nat) : KeepsUses s (Machine.takeOutcome h t) := by
  obtain ⟨c, -, e⟩ | ⟨-, -, -, e⟩ | ⟨-, e⟩ := takeOutcome_cases h t <;> rw [e]
  · exact b.endRequest h c
  · exact b.requeue h
  · exact b

theorem endFade (b : KeepsUses s t) (e : Nat) : KeepsUses s (Machine.endFade e t) := by
  unfold Machine.endFade
  simp only
  repeat' split
  · exact ((b.takeOutcome _).releaseEngine e).setWork _
  · exact (b.releaseEngine e).setWork _
  · exact b

/-! ### The scheduler's walk (R73, R157 to R170) -/

theorem schedulerAdmit (b : KeepsUses s t) (r : Request) {record : Nat → State → State}
    (hr : ∀ h t, KeepsUses s t → KeepsUses s (record h t)) : KeepsUses s (Machine.schedulerAdmit r record t).1 := by
  unfold Machine.schedulerAdmit
  simp only
  split
  · exact b
  · split
    · exact b
    · split
      · exact b
      · split
        · exact b
        · next h found =>
          have waiting : KeepsUses s (t.setWork { t.work with passesDue := 0 }) := b.setWork _
          exact (passes passBound (hr _ _ (waiting.admitRecord found _))).setWork _

theorem missTrigger (b : KeepsUses s t) (k i n : Nat) : KeepsUses s (Machine.missTrigger k i n t) := by
  have missed : KeepsUses s (dueDrop (.trigger k i) (modTrigger k i (fun x => { x with state := .missed }) t)) := b.same
  exact missed.pushEvent ..

theorem openCall (b : KeepsUses s t) (k : Nat) : KeepsUses s (Machine.openCall k t) := by
  have opened : KeepsUses s (setCall k { tget t.csc.calls k with state := .open } t) := b.same
  unfold Machine.openCall
  simp only
  split
  · exact opened.pushEvent ..
  · exact b

theorem fireTrigger (b : KeepsUses s t) (k i : Nat) (x : Trigger) (f : Time) :
    KeepsUses s (Machine.fireTrigger k i x f t).1 := by
  unfold Machine.fireTrigger
  simp only
  split
  · exact b.missTrigger ..
  · next y _ =>
    have admitted := b.schedulerAdmit (triggerRequest t k i x y) (record := recordFired k i) fun _ _ c => c.same
    split
    · next e => rw [e] at admitted; exact admitted.openCall k
    · next e => rw [e] at admitted; exact admitted.missTrigger ..
    · next e => rw [e] at admitted; exact admitted.missTrigger ..
    · next e =>
      rw [e] at admitted
      split
      · exact admitted
      · exact admitted.missTrigger ..

theorem takeTrigger (b : KeepsUses s t) (k i : Nat) : KeepsUses s (Machine.takeTrigger k i t) := by
  unfold Machine.takeTrigger
  simp only
  split
  · exact b
  · next x _ =>
    have fired := b.fireTrigger k i x (callTrigger (tget t.csc.calls k) i).fire
    repeat' split
    · exact b.missTrigger ..
    · exact b
    · next e => rw [e] at fired; exact fired.setWork _
    · next e => rw [e] at fired; exact fired
    · next e => rw [e] at fired; exact fired

theorem firePeriodic (b : KeepsUses s t) (i : Nat) : KeepsUses s (Machine.firePeriodic i t) := by
  have skips : ∀ {u}, KeepsUses s u → KeepsUses s (skipPeriodic i u) := fun c => c.same
  unfold Machine.firePeriodic
  simp only
  split
  · exact skips b
  · split
    · exact skips b
    · next x _ =>
      have admitted := b.schedulerAdmit (periodicRequest (tget t.csc.periodics i) x i) (record := recordPeriodic i)
        fun _ _ c => c.same
      split
      · next e => rw [e] at admitted; exact admitted
      all_goals next e => rw [e] at admitted; exact skips admitted

theorem takeEntry (t : State) (e : DueEntry) (b : KeepsUses s t) : KeepsUses s (Machine.takeEntry t e) := by
  unfold Machine.takeEntry
  split
  · exact b.takeTrigger ..
  · exact (b.firePeriodic _).same

theorem walk (b : KeepsUses s t) : KeepsUses s (Machine.walk t) := foldl takeEntry _ b

theorem settleFor (n : Nat) (b : KeepsUses s t) : KeepsUses s (Machine.settleFor n t) := by
  induction n generalizing t with
  | zero => exact b
  | succ n ih =>
    unfold Machine.settleFor
    split
    · simp only
      split
      · exact ih (b.setWork _).walk
      · exact ih (b.setWork _)
    · split
      · exact ih b.pass.prerollTests
      · exact b

/-- What an action brings about. -/
theorem settle (b : KeepsUses s t) : KeepsUses s (Machine.settle t) := b.settleFor _

/-- A pass that is due, and what it brings about. -/
theorem settlePass (b : KeepsUses s t) : KeepsUses s (Machine.settle (needPass t)) := (b.setWork _).settle

/-! ### Ends of several requests, close tests and special triggers (R87 to R89, R164, R167) -/

theorem endAll {f : Nat → State → State} (hf : ∀ h t, KeepsUses s t → KeepsUses s (f h t)) (hs : List Nat)
    (b : KeepsUses s t) : KeepsUses s (Machine.endAll f hs t) := by
  unfold Machine.endAll
  split
  · exact b
  · exact (foldl (fun t h b => hf h t b) hs b).settle

theorem expireAll (b : KeepsUses s t) : KeepsUses s (Machine.expireAll t) := endAll (fun h _ b => b.endRequest h _) _ b

theorem supersede (b : KeepsUses s t) (k : Nat) (p : CallTrigger → Bool) : KeepsUses s (Machine.supersede k p t) := by
  refine same (foldl (fun u i c => ?_) (List.range (tget t.csc.calls k).triggers.length) b)
  split
  · exact c
  · exact c.same

theorem closeCall (t : State) (k : Nat) (b : KeepsUses s t) : KeepsUses s (Machine.closeCall t k) := by
  have closed : ∀ {u} (c : Call), KeepsUses s u → KeepsUses s (setCall k c u) := fun _ d => d.same
  unfold Machine.closeCall
  simp only
  split
  · exact (closed _ (b.supersede k _)).pushEvent ..
  · exact b

theorem schedulerNotice (b : KeepsUses s t) : KeepsUses s (Machine.schedulerNotice t) := by
  unfold Machine.schedulerNotice
  split
  · exact foldl closeCall _ b.walk.settle
  · exact b

theorem fireSpecial (b : KeepsUses s t) (k i : Nat) : KeepsUses s (Machine.fireSpecial k i t).1 := by
  unfold Machine.fireSpecial
  simp only
  split
  · exact b
  · next x _ =>
    have fired := b.fireTrigger k i x (now t).1
    repeat' split
    · exact b
    · exact b.pushEvent ..
    · exact b.missTrigger ..
    all_goals next e => rw [e] at fired; exact fired.settle

/-! ### Commands and reports to the arbiter (R64, R82, R88, R91, R92) -/

theorem withdraw (b : KeepsUses s t) (h : Nat) : KeepsUses s (Machine.withdraw h t) := by
  unfold Machine.withdraw
  split
  · exact b.endRequest ..
  · exact b

theorem cancelRequest (b : KeepsUses s t) (h : Nat) : KeepsUses s (Machine.cancelRequest h t) := by
  unfold Machine.cancelRequest
  simp only
  repeat' split
  · exact b.endRequest ..
  · exact b.setRequest h
  · exact b.setRequest h
  · exact b.setRequest h
  · exact b
  · exact b

theorem releaseRequest (b : KeepsUses s t) (k : Nat) (hard : Bool) : KeepsUses s (Machine.releaseRequest k hard t) := by
  unfold Machine.releaseRequest
  simp only
  repeat' split
  · exact b.endRequest ..
  · exact b.enterEnding ..
  · exact b.enterEnding ..
  · exact b
  · exact b.setRequest k

theorem reportLive (b : KeepsUses s t) (z : Nat) : KeepsUses s (Machine.reportLive z t) := by
  have tested : ∀ {u}, KeepsUses s u → KeepsUses s (testWaiting z u) := fun c =>
    foldl (fun u e c => by split; exacts [c.leavePreroll e, c]) _ c
  unfold Machine.reportLive
  simp only
  refine (tested ?_).settle
  split
  · exact b.joinLane _
  · exact b
  · exact b

theorem zoneLost (b : KeepsUses s t) (z : Nat) (c : RemovalCause) : KeepsUses s (Machine.zoneLost z c t) := by
  unfold Machine.zoneLost
  simp only
  refine settlePass ?_
  split
  · exact b
  · exact b.loseZones ..

theorem countTalk (b : KeepsUses s t) : KeepsUses s (Machine.countTalk t) := b.of_records fun h hh => by
  rw [show request (Machine.countTalk t) h = countTalkOf (request t h) from tget_map _ _ h hh, countTalkOf]
  split <;> exact ⟨rfl, id⟩

end KeepsUses
end Sys2Proof.Machine
end

section
/-! The events of a frame period, the commands and the rows keep the law of the use counts, and all of them but CLIP_WRITE and power-on leave the clip memory; CLIP_WRITE writes no sample of a referenced bank (R103, R117, R118). -/

namespace Sys2Proof.Machine
set_option Elab.async false

namespace KeepsUses

variable {s t : State}

/-! ### Notices and the timed tests of the zone lines (R53 to R58, R138) -/

theorem onTick {f : State → State} (b : KeepsUses s t) (hf : ∀ u, KeepsUses s u → KeepsUses s (f u)) :
    KeepsUses s (Machine.onTick f t) :=
  withTime_keeps (KeepsUses s) (fun _ _ _ c => c.same) (fun _ _ c => c.same) _ _ f t hf b

theorem tickNotice {f : State → State} (b : KeepsUses s t) (hf : ∀ u, KeepsUses s u → KeepsUses s (f u)) :
    KeepsUses s (Machine.tickNotice f t) := (b.onTick hf).same

theorem lineTest {f : State → State} (b : KeepsUses s t) (hf : ∀ u, KeepsUses s u → KeepsUses s (f u)) (z : Nat) :
    KeepsUses s (Machine.lineTest z f t) := by
  unfold Machine.lineTest
  split
  · exact b.onTick hf
  · exact hf t b

theorem enterLive (z : Nat) (t : State) (b : KeepsUses s t) : KeepsUses s (Machine.enterLive z t) := by
  have entered : KeepsUses s (markTested z (modLine z (fun l => { l with line := .live, wakeCount := 0, hangCount := 0 }) t)) :=
    b.same
  exact entered.reportLive z

theorem wakeZone (z : Nat) (t : State) (b : KeepsUses s t) : KeepsUses s (Machine.wakeZone z t) := by
  unfold Machine.wakeZone
  simp only
  split
  · exact enterLive z _ b.same
  · exact b.same

theorem testToLive (t : State) (z : Nat) (b : KeepsUses s t) : KeepsUses s (Machine.testToLive t z) := by
  unfold Machine.testToLive
  simp only
  split
  · split
    · exact b.lineTest (enterLive z) z
    · split
      · exact b.lineTest (wakeZone z) z
      · exact b
    all_goals exact b
  · exact b

theorem idleTest (z : Nat) (t : State) (b : KeepsUses s t) : KeepsUses s (Machine.idleTest z t) := by
  have entered : ∀ f, KeepsUses s (markTested z (modLine z f t)) := fun _ => b.same
  unfold Machine.idleTest
  simp only
  split
  · exact b
  · split
    · exact (entered _).pushEvent ..
    · exact entered _

theorem hangEnd (t : State) (z : Nat) (b : KeepsUses s t) : KeepsUses s (Machine.hangEnd z t) := by
  have entered : KeepsUses s (markTested z (modLine z (fun l => { l with line := .standby }) t)) := b.same
  unfold Machine.hangEnd
  split
  · exact entered.onTick fun _ c => c.pushEvent ..
  · exact b

theorem quietTest (t : State) (z : Nat) (b : KeepsUses s t) : KeepsUses s (Machine.quietTest t z) := by
  unfold Machine.quietTest
  split
  · split
    · split
      · exact b.lineTest (wakeZone z) z
      · exact b
    · exact b.lineTest (idleTest z) z
    · exact hangEnd t z b
    all_goals exact b
  · exact b

theorem wakeEnd (t : State) (z : Nat) (b : KeepsUses s t) : KeepsUses s (Machine.wakeEnd z t) := by
  unfold Machine.wakeEnd
  split
  · exact enterLive z t b
  · exact b

theorem wakeTest (t : State) (z : Nat) (b : KeepsUses s t) : KeepsUses s (Machine.wakeTest t z) := by
  unfold Machine.wakeTest
  simp only
  split
  · split
    · exact wakeEnd t z b
    · exact b.same
  · exact b

theorem lineTests (b : KeepsUses s t) : KeepsUses s (Machine.lineTests t) :=
  foldl quietTest _ (foldl hangEnd _ (liveRounds_keeps (KeepsUses s) (fun _ => foldl testToLive _) 48 (foldl wakeTest _ b)))

/-! ### Other events of a frame period (R4, R5, R40, R88, R104, R108, R138, R144) -/

theorem windowEnd (t : State) (z : Nat) (b : KeepsUses s t) : KeepsUses s (Machine.windowEnd z t) := by
  unfold Machine.windowEnd
  split
  · exact b.same
  · exact b

theorem linkLost (b : KeepsUses s t) : KeepsUses s (Machine.linkLost t) := by
  have lost : KeepsUses s (t.setItp { t.itp with link := .lost, goodRun := 0, expecting := false }) := b.same
  unfold Machine.linkLost
  split
  · exact endAll (fun h _ b => b.endLive h _) _ (lost.pushEvent ..)
  · exact b

theorem linkRecovered (b : KeepsUses s t) : KeepsUses s (Machine.linkRecovered t) := by
  have found : KeepsUses s (t.setItp { t.itp with link := .sync, badRun := 0, goodRun := 0, expecting := false }) := b.same
  unfold Machine.linkRecovered
  split
  · exact (found.pushEvent ..).settlePass
  · exact b

theorem engineEvents (b : KeepsUses s t) : KeepsUses s (Machine.engineEvents t) :=
  foldl (fun _ e c => (c.endFade e).settle) _ (foldl (fun _ e c => (c.boundary e).settle) _ b)

theorem tickActions (t : State) (b : KeepsUses s t) : KeepsUses s (Machine.tickActions t) := by
  have counted : KeepsUses s (countHang (Machine.countTalk (Machine.expireAll t))) := b.expireAll.countTalk.same
  rw [Machine.tickActions, countHoldover_eq]
  exact counted.schedulerNotice.same

theorem tickEnd (b : KeepsUses s t) : KeepsUses s (Machine.tickEnd t) := by
  unfold Machine.tickEnd
  split
  · exact tickNotice b.same tickActions
  · exact b

theorem talkTimeouts (b : KeepsUses s t) (hs : List Nat) : KeepsUses s (Machine.talkTimeouts hs t) := by
  unfold Machine.talkTimeouts
  split
  · exact b
  · exact b.tickNotice fun _ => endAll (fun h _ b => b.endLive h _) _

theorem talkTimeout (b : KeepsUses s t) (h : Nat) : KeepsUses s (Machine.talkTimeout h t) := by
  unfold Machine.talkTimeout
  split
  · exact b.talkTimeouts _
  · exact b

theorem enterHoldover (t : State) (b : KeepsUses s t) : KeepsUses s (Machine.enterHoldover t) := by
  have entered : KeepsUses s (t.setStc { t.stc with status := .holdover }) := b.same
  exact entered.pushEvent ..

theorem holdoverEntry (b : KeepsUses s t) : KeepsUses s (Machine.holdoverEntry t) := by
  unfold Machine.holdoverEntry
  split
  · exact b.onTick enterHoldover
  · exact b

theorem advancePeriod (b : KeepsUses s t) : KeepsUses s (Machine.advancePeriod t) := b.same

/-- Everything of a frame period after the taking of its cell (log 1). -/
theorem periodRest (b : KeepsUses s t) : KeepsUses s (Machine.advancePeriod (Machine.lineTests (clockEvents
    (Machine.engineEvents (heldWakes (windowEnds (linkEvents t))))))) := by
  have woken : KeepsUses s (heldWakes (windowEnds (linkEvents t))) :=
    foldl wakeEnd _ (foldl windowEnd _ b.linkLost.linkRecovered)
  exact (woken.engineEvents.tickEnd.talkTimeouts _).holdoverEntry.lineTests.advancePeriod

/-! ### The start work and ingress frames (R1 to R9, R14 to R16, R19) -/

theorem startPeriod (b : KeepsUses s t) : KeepsUses s (Machine.startPeriod t) := by
  rw [startPeriod_spec]
  exact b.same

theorem chooseCell (b : KeepsUses s t) : KeepsUses s (Machine.chooseCell t) := by
  rw [chooseCell_spec]
  exact b.same

theorem discardPartial (b : KeepsUses s t) : KeepsUses s (Machine.discardPartial t) := by
  unfold Machine.discardPartial
  split
  · exact b
  · exact b.same

theorem takeServiceWord (b : KeepsUses s t) (start : Bool) (w : Word) :
    KeepsUses s (Machine.takeServiceWord start w t) := by
  unfold Machine.takeServiceWord
  split
  · exact b.discardPartial.same
  · split
    · exact b
    · split <;> exact b.same

theorem goodFrame (b : KeepsUses s t) (f : Frame) : KeepsUses s (Machine.goodFrame f t) := by
  have counted : ∀ x, KeepsUses s (t.setItp x) := fun _ => b.same
  unfold Machine.goodFrame
  simp only
  split
  · exact ((counted _).pushEvent ..).takeServiceWord ..
  · exact (counted _).takeServiceWord ..
  · split
    · exact (counted _).takeServiceWord ..
    · exact (counted _).discardPartial

theorem badFrame (b : KeepsUses s t) : KeepsUses s (Machine.badFrame t) := by
  have counted : ∀ x, KeepsUses s (t.setItp x) := fun _ => b.same
  unfold Machine.badFrame
  simp only
  split
  · exact counted _
  all_goals exact (counted _).discardPartial

theorem missingFrame (b : KeepsUses s t) : KeepsUses s (Machine.missingFrame t) := by
  have counted : ∀ x, KeepsUses s (t.setItp x) := fun _ => b.same
  unfold Machine.missingFrame
  simp only
  split
  · exact b
  · exact (counted _).discardPartial
  · split
    · exact (counted _).discardPartial
    · exact b

theorem ingressFrame (b : KeepsUses s t) (f : Frame) : KeepsUses s (Machine.ingressFrame f t) := by
  unfold Machine.ingressFrame
  split
  · exact b.goodFrame f
  · split
    · exact b.badFrame
    · exact b.missingFrame

theorem releaseHoldEnd (b : KeepsUses s t) (z : Nat) : KeepsUses s (Machine.releaseHoldEnd z t) := by
  unfold Machine.releaseHoldEnd
  simp only
  split
  · exact b.same
  · exact b

theorem holdWake (b : KeepsUses s t) (z : Nat) : KeepsUses s (Machine.holdWake z t) := by
  unfold Machine.holdWake
  split
  · exact b.same
  · exact b

theorem holdHang (b : KeepsUses s t) (z : Nat) : KeepsUses s (Machine.holdHang z t) := by
  unfold Machine.holdHang
  split
  · exact b.same
  · exact b

theorem pushReply (b : KeepsUses s t) (r : Reply) : KeepsUses s (Machine.pushReply r t) := by
  rw [pushReply_spec]
  exact b.same

end KeepsUses
end Sys2Proof.Machine
end

section
/-! The commands and the rows keep the law of the use counts, and all of them but CLIP_WRITE and power-on leave the clip memory (R117, R118). -/

namespace Sys2Proof.Machine
set_option Elab.async false

namespace KeepsUses

variable {s t : State}

/-! ### Commands that neither the arbiter nor the scheduler's walk acts on -/

/-- A refused command changes nothing. -/
theorem refuse (b : KeepsUses s t) (st : Status) : KeepsUses s (Machine.refuse st t).after := b

theorem laneSet (lane role zone : Byte) (b : KeepsUses s t) : KeepsUses s (Machine.laneSet lane role zone t).after := by
  unfold Machine.laneSet
  simp only
  repeat' split
  all_goals exact b.same

theorem routeSet (zone route lane : Byte) (coeff : Half) (b : KeepsUses s t) :
    KeepsUses s (Machine.routeSet zone route lane coeff t).after := by
  rw [routeSet_eq]
  split <;> exact b.same

theorem zoneMixSet (zone : Byte) (trim duckLevel rampStep : Half) (b : KeepsUses s t) :
    KeepsUses s (Machine.zoneMixSet zone trim duckLevel rampStep t).after := by
  unfold Machine.zoneMixSet
  simp only
  split <;> exact b.same

theorem ambientSet (zone flags : Byte) (threshold : Word) (slope ambMax stepMax hold : Half) (b : KeepsUses s t) :
    KeepsUses s (Machine.ambientSet zone flags threshold slope ambMax stepMax hold t).after := by
  unfold Machine.ambientSet
  simp only
  split
  · exact b.refuse _
  · exact (windowEnd t _ b).same

theorem clipRead (addr : Word) (b : KeepsUses s t) : KeepsUses s (Machine.clipRead addr t).after := by
  unfold Machine.clipRead
  simp only
  split <;> exact b

theorem phraseSet (phrase : Half) (present : Byte) (start length : Word) (b : KeepsUses s t) :
    KeepsUses s (Machine.phraseSet phrase present start length t).after := by
  unfold Machine.phraseSet
  simp only
  split <;> exact b.same

theorem templateSet (template wordingCount wordingIndex itemCount firstItem : Byte) (items : List ItemCell)
    (b : KeepsUses s t) :
    KeepsUses s (Machine.templateSet template wordingCount wordingIndex itemCount firstItem items t).after := by
  unfold Machine.templateSet
  simp only
  repeat' split
  all_goals exact b.same

theorem platformSet (platform : Byte) (x y : ZoneSet) (b : KeepsUses s t) :
    KeepsUses s (Machine.platformSet platform x y t).after := by
  unfold Machine.platformSet
  simp only
  split <;> exact b.same

theorem planSet (plan triggerCount : Byte) (closeMargin threshold : Half) (firstTrigger : Byte)
    (triggers : List TriggerCell) (b : KeepsUses s t) :
    KeepsUses s (Machine.planSet plan triggerCount closeMargin threshold firstTrigger triggers t).after := by
  unfold Machine.planSet
  simp only
  repeat' split
  all_goals exact b.same

theorem periodicSet (p : PeriodicFields) (b : KeepsUses s t) : KeepsUses s (Machine.periodicSet p t).after := by
  unfold Machine.periodicSet
  simp only
  repeat' split
  all_goals exact b.same

theorem callLoad (f : CallFields) (b : KeepsUses s t) : KeepsUses s (Machine.callLoad f t).after := by
  have placed : ∀ {u} (slot : Nat) (ts : List CallTrigger), KeepsUses s u → KeepsUses s (placeTriggers slot ts u) :=
    fun slot ts c => foldl (fun u p c => by split; exacts [c.same, c]) _ c
  unfold Machine.callLoad
  split
  · exact b.refuse _
  · split
    · exact b.refuse _
    · simp only
      split
      · exact b.refuse _
      · exact same (placed f.slot.toNat _ (u := setCall f.slot.toNat _ t) b.same)

theorem callClear (slot : Byte) (b : KeepsUses s t) : KeepsUses s (Machine.callClear slot t).after := by
  unfold Machine.callClear
  simp only
  split <;> exact b.same

theorem clockSet (window : Word) (limit : Half) (b : KeepsUses s t) :
    KeepsUses s (Machine.clockSet window limit t).after := by
  unfold Machine.clockSet
  simp only
  split
  · exact b.refuse _
  · split
    · exact enterHoldover _ b.same
    · exact b.same

/-! ### TIME (R141 to R145) -/

theorem raiseLocked (b : KeepsUses s t) (old : Stc) : KeepsUses s (Machine.raiseLocked old t) := by
  unfold Machine.raiseLocked
  split
  · exact b
  · exact b.pushEvent ..

theorem stepNotice (b : KeepsUses s t) : KeepsUses s (Machine.stepNotice t) := by
  unfold Machine.stepNotice
  split
  · exact b.schedulerNotice.expireAll
  · exact b.expireAll.schedulerNotice

theorem applyStep (b : KeepsUses s t) (reference : Time) (n : Nat) : KeepsUses s (Machine.applyStep reference n t) := by
  have moved : KeepsUses s (stepState reference t) := b.same
  exact ((moved.pushEvent ..).raiseLocked t.stc).stepNotice.same

theorem timeCommand (reference : Time) (flags : Byte) (b : KeepsUses s t) :
    KeepsUses s (Machine.timeCommand reference flags t).after := by
  have slewed : KeepsUses s (t.setStc (lockClock { t.stc with slew := timeOffset reference t })) := b.same
  obtain e | ⟨n, e⟩ | e := timeCommand_after reference flags t <;> rw [e]
  · exact b
  · exact b.applyStep reference n
  · exact slewed.raiseLocked t.stc

/-! ### Zone lines (R60 to R64) -/

/-- A zone whose line leaves service is taken from its holder, with what that brings about (R64). -/
theorem leaveService (b : KeepsUses s t) (z : Nat) (f : ZoneLine → ZoneLine) (old : LineState) (cause : RemovalCause) :
    KeepsUses s (Machine.zoneLost z cause (leaveStandby z old (modLine z f t))) := by
  have left : KeepsUses s (leaveStandby z old (modLine z f t)) := by
    rw [leaveStandby_eq]
    exact b.same
  exact left.zoneLost z cause

/-- A zone whose line enters service, with the pass that it brings about (R61, R63). -/
theorem enterService (b : KeepsUses s t) (z : Nat) (f : ZoneLine → ZoneLine) :
    KeepsUses s (Machine.settle (needPass (markTested z (modLine z f t)))) := by
  have entered : KeepsUses s (markTested z (modLine z f t)) := b.same
  exact entered.settlePass

theorem applyEnable (b : KeepsUses s t) (z : Nat) (enable : Bool) : KeepsUses s (Machine.applyEnable z enable t) := by
  by_cases off : (tget t.zlc z).line = .off
  · cases enable with
    | false => rw [applyEnable_same (.inr ⟨rfl, off⟩)]; exact b
    | true =>
      rw [applyEnable_on off]
      exact (b.enterService ..).pushEvent ..
  · cases enable with
    | false =>
      rw [applyEnable_off off]
      exact (b.leaveService ..).pushEvent ..
    | true => rw [applyEnable_same (.inl ⟨rfl, off⟩)]; exact b

theorem zoneSet (zone flags : Byte) (preroll hang : Half) (b : KeepsUses s t) :
    KeepsUses s (Machine.zoneSet zone flags preroll hang t).after := by
  have written : KeepsUses s (modLine zone.toNat (writeSettings flags preroll hang) t) := b.same
  unfold Machine.zoneSet
  simp only
  split
  · exact b.refuse _
  · split
    · exact b.refuse _
    · exact written.applyEnable ..

theorem zoneFault (zone faultCode : Byte) (b : KeepsUses s t) : KeepsUses s (Machine.zoneFault zone faultCode t).after := by
  unfold Machine.zoneFault
  simp only
  split
  · exact b.refuse _
  · split
    · exact b.refuse _
    · split
      · exact b
      · exact (b.leaveService ..).pushEvent ..

theorem zoneClear (zone : Byte) (b : KeepsUses s t) : KeepsUses s (Machine.zoneClear zone t).after := by
  unfold Machine.zoneClear
  simp only
  split
  · exact b.refuse _
  · split
    · exact b.refuse _
    · dsimp only
      rw [clearZone_eq]
      exact (b.enterService ..).pushEvent ..

/-! ### Requests (R71, R91) -/

theorem announce (f : AnnounceFields) (tag : Byte) (b : KeepsUses s t) : KeepsUses s (Machine.announce f tag t).after := by
  unfold Machine.announce
  simp only
  split
  · exact b.refuse _
  · split
    · exact b.refuse _
    · next r _ =>
      split
      · exact b.refuse _
      · split
        · exact b.refuse _
        · next found =>
          split
          · exact b.refuse _
          · have tested := (b.admitRecord found r).pass.prerollTests
            dsimp only
            exact tested.settle

theorem release (handle mode : Byte) (b : KeepsUses s t) : KeepsUses s (Machine.release handle mode t).after := by
  unfold Machine.release
  simp only
  split
  · exact b.refuse _
  · split
    · exact b.refuse _
    · split
      · exact b.refuse _
      · exact (b.releaseRequest ..).settle

/-! ### CALL_AMEND and CALL_CANCEL (R162 to R166) -/

theorem amendTrigger (slot : Nat) (p : State × Withdrawn) (i : Nat) (b : KeepsUses s p.1) :
    KeepsUses s (Machine.amendTrigger slot p i).1 := by
  have replaced : KeepsUses s (replaceTrigger slot i p.1) := by
    unfold replaceTrigger
    simp only
    split <;> exact b.same
  unfold Machine.amendTrigger
  simp only
  split
  · split
    · exact replaced
    · exact b
  · split
    · exact (b.withdraw _).settle
    · exact b
  · exact b

theorem amendTriggers (slot : Nat) (b : KeepsUses s t) : KeepsUses s (Machine.amendTriggers slot t).1 := by
  have all := foldl_fst (amendTrigger slot) (List.range (tget t.csc.calls slot).triggers.length) (p := (t, ⟨0, []⟩)) b
  unfold Machine.amendTriggers
  simp only
  split
  · exact all.walk.settle
  · exact all

theorem amendSpecial (slot : Nat) (role : TriggerRole) (fires : Bool) (b : KeepsUses s t) :
    KeepsUses s (Machine.amendSpecial slot role fires t).1 := by
  unfold Machine.amendSpecial
  split
  · exact b.fireSpecial ..
  · exact b

theorem noteDelay (slot : Nat) (q : Bool) (o : SpecialOutcome) (d : Int) (b : KeepsUses s t) :
    KeepsUses s (Machine.noteDelay slot q o d t) := by
  unfold Machine.noteDelay
  split
  · exact b.same
  · exact b

theorem callAmend (slot flags : Byte) (delay : Word) (platform : Byte) (b : KeepsUses s t) :
    KeepsUses s (Machine.callAmend slot flags delay platform t).after := by
  unfold Machine.callAmend
  simp only
  split
  · exact b.refuse _
  · split
    · exact b.refuse _
    · exact noteDelay _ _ _ _ (amendSpecial _ _ _ (amendSpecial _ _ _ (amendTriggers _ b.same)))

theorem cancelTrigger (slot : Nat) (p : State × Nat) (i : Nat) (b : KeepsUses s p.1) :
    KeepsUses s (Machine.cancelTrigger slot p i).1 := by
  unfold Machine.cancelTrigger
  simp only
  split
  · split
    · exact (b.cancelRequest _).settle
    · exact b
  · exact b

theorem cancelSpecial (slot : Nat) (old : CallState) (b : KeepsUses s t) :
    KeepsUses s (Machine.cancelSpecial slot old t).1 := by
  unfold Machine.cancelSpecial
  split
  · exact b.fireSpecial ..
  · exact b.supersede ..
  · exact b

theorem callCancel (slot : Byte) (b : KeepsUses s t) : KeepsUses s (Machine.callCancel slot t).after := by
  have set : ∀ {u} (c : Call), KeepsUses s u → KeepsUses s (setCall slot.toNat c u) := fun _ d => d.same
  unfold Machine.callCancel
  simp only
  split
  · exact b.refuse _
  · exact (set _ (cancelSpecial _ _ (foldl_fst (cancelTrigger slot.toNat) _ (p := (_, 0)) (b.supersede ..)))).pushEvent ..

/-! ### Reporting and UNIT_RESET (R179 to R184) -/

theorem queryAnswer {u : State} (b : KeepsUses s t) (c : KeepsUses s u) (kind : Nat) (q : QueryFields) (parts : Nat)
    (contents : List Field) : KeepsUses s (Machine.queryAnswer kind q parts contents u t).after := by
  unfold Machine.queryAnswer
  split
  · exact b.refuse _
  · exact c

theorem queryStatus (q : QueryFields) (b : KeepsUses s t) : KeepsUses s (Machine.queryStatus q t).after := by
  unfold Machine.queryStatus
  split
  · exact b.refuse _
  · split
    · exact b.queryAnswer b.same ..
    · exact b.queryAnswer b ..

theorem queryZone (q : QueryFields) (b : KeepsUses s t) : KeepsUses s (Machine.queryZone q t).after := by
  unfold Machine.queryZone
  split
  · exact b.refuse _
  · exact b.queryAnswer b ..

theorem queryRequest (q : QueryFields) (b : KeepsUses s t) : KeepsUses s (Machine.queryRequest q t).after := by
  unfold Machine.queryRequest
  simp only
  split
  · exact b.refuse _
  · split
    · exact b.refuse _
    · exact b.queryAnswer b ..

theorem queryEngine (q : QueryFields) (b : KeepsUses s t) : KeepsUses s (Machine.queryEngine q t).after := by
  unfold Machine.queryEngine
  split
  · exact b.refuse _
  · exact b.queryAnswer b ..

theorem queryCall (q : QueryFields) (b : KeepsUses s t) : KeepsUses s (Machine.queryCall q t).after := by
  unfold Machine.queryCall
  simp only
  split
  · exact b.refuse _
  · split
    · exact b.refuse _
    · exact b.queryAnswer b ..

theorem queryCounters (q : QueryFields) (b : KeepsUses s t) : KeepsUses s (Machine.queryCounters q t).after := by
  unfold Machine.queryCounters
  split
  · exact b.refuse _
  · refine b.queryAnswer ?_ ..
    split
    · exact b.same
    · exact b

theorem queryPhrase (q : QueryFields) (b : KeepsUses s t) : KeepsUses s (Machine.queryPhrase q t).after := by
  unfold Machine.queryPhrase
  split
  · exact b.refuse _
  · split
    · exact b.refuse _
    · exact b.queryAnswer b ..

theorem unitReset (t : State) : KeepsUses t (Machine.unitReset t).after := by
  rw [unitReset_after]
  exact of_reset rfl rfl rfl rfl

theorem pinReset (straps : BitVec 4) (t : State) : KeepsUses t (Machine.pinReset straps t) := of_reset rfl rfl rfl rfl

end KeepsUses
end Sys2Proof.Machine
end

section
/-! The rows keep the law of the use counts, and none but power-on writes a sample of a referenced bank (R103, R117, R118). -/

namespace Sys2Proof.Machine
set_option Elab.async false

/-! ### CLIP_WRITE (R118, R119) -/

/-- What lies outside a block, or past the end of the memory, stands as it was (R116, R119). -/
theorem clipAt_writeClips_of_outside (m : Cmc) (a b : Nat) (vs : List ClipSample)
    (h : b < a ∨ a + vs.length ≤ b ∨ clipCapacity ≤ b) : clipAt (writeClips m a vs) b = clipAt m b := by
  induction vs generalizing m a with
  | nil => rfl
  | cons v vs ih =>
    rw [List.length_cons] at h
    unfold writeClips
    rw [ih _ _ (by omega)]
    split
    · rw [clipAt, clipAt, memLookup_memWrite, if_neg (by omega)]
    · rfl

theorem secondBank_eq (a : Nat) : secondBank a =
    if bankOf (a + blockSize a - 1) = bankOf a then none else some (bankOf (a + blockSize a - 1)) := rfl

/-- A sample of a block lies in the first bank that the block touches or in the second (R118). -/
theorem bankOf_block {a b : Nat} (le : a ≤ b) (lt : b < a + 20) (inside : b < clipCapacity) :
    bankOf b = firstBank a ∨ secondBank a = some (bankOf b) := by
  have last : b ≤ a + blockSize a - 1 := by
    rw [blockSize]
    omega
  have near : blockSize a ≤ 20 := min_le_left ..
  rw [secondBank_eq]
  split
  · next one => exact .inl (by simp only [firstBank, bankOf] at *; omega)
  · next two =>
    by_cases first : bankOf b = firstBank a
    · exact .inl first
    · exact .inr (congrArg some (by simp only [firstBank, bankOf] at *; omega))

/-- The counts of the banks that a block touches (R118). -/
def blockUnused (a : Nat) (s : State) : Prop :=
  tget s.cmc.useCounts (firstBank a) = 0 ∧ ∀ b, secondBank a = some b → tget s.cmc.useCounts b = 0

theorem unused_iff (a : Nat) (s : State) : ¬(tget s.cmc.useCounts (firstBank a) > 0 ∨
    ((secondBank a).map fun b => tget s.cmc.useCounts b).getD 0 > 0) ↔ blockUnused a s := by
  rw [blockUnused]
  cases secondBank a <;> simp

/-- CLIP_WRITE leaves the state, or writes a block in banks that nothing refers to (R118, R119). -/
theorem clipWrite_after (addr : Word) (samples : List ClipSample) (s : State) : (clipWrite addr samples s).after = s ∨
    (blockUnused addr.toNat s ∧
      (clipWrite addr samples s).after = s.setCmc (writeClips s.cmc addr.toNat (samples.take 20))) := by
  unfold clipWrite
  simp only
  split
  · exact .inl rfl
  · split
    · exact .inl rfl
    · next unused => exact .inr ⟨(unused_iff ..).mp unused, rfl⟩

/-! ### The rows -/

/-- The law of the use counts is carried on from `s` to `t`, and no sample of a bank that `s` refers to is written between them. -/
structure SparesUsed (s t : State) : Prop where
  counts : UseCountsAgree s → UseCountsAgree t
  samples : ∀ a, 0 < tget s.cmc.useCounts (bankOf a) → clipAt t.cmc a = clipAt s.cmc a

namespace SparesUsed

variable {s t u : State}

/-- What leaves the clip memory may follow. -/
theorem after (a : SparesUsed s t) (b : KeepsUses t u) : SparesUsed s u where
  counts := b.counts ∘ a.counts
  samples n used := by rw [← a.samples n used, clipAt, clipAt, b.memory, b.powerCycle]

theorem refl (s : State) : SparesUsed s s := ⟨id, fun _ _ => rfl⟩

theorem of_keeps (b : KeepsUses s t) : SparesUsed s t := (refl s).after b

/-- The start work reads no clip memory command and writes no count. -/
theorem of_begun (a : SparesUsed (startPeriod s) t) : SparesUsed s t where
  counts h := a.counts ((KeepsUses.refl s).startPeriod.counts h)
  samples n used := (a.samples n (by rwa [startPeriod_cmc])).trans (by rw [startPeriod_cmc])

theorem clipWrite (addr : Word) (samples : List ClipSample) (s : State) :
    SparesUsed s (Machine.clipWrite addr samples s).after := by
  obtain e | ⟨⟨first, second⟩, e⟩ := clipWrite_after addr samples s <;> rw [e]
  · exact refl s
  · refine ⟨fun h => ?_, fun n used => clipAt_writeClips_of_outside _ _ _ _ ?_⟩
    · exact .of_allUses h.free fun b hb => by
        rw [State.setCmc_cmc, writeClips_useCounts]
        exact h.counts_eq hb
    · by_contra inside
      simp only [not_or, not_lt, not_le, List.length_take] at inside
      obtain own | other := bankOf_block (a := addr.toNat) (b := n) (by omega) (by omega) (by omega)
      · rw [own, first] at used
        exact used.ne rfl
      · rw [second _ other] at used
        exact used.ne rfl

/-- A command that is taken, when what it carries out has the relation. -/
theorem takeCommand {run : State → Answer} (hrun : ∀ s, SparesUsed s (run s).after) (h : Header) (code : Byte) (s : State) :
    SparesUsed s (Machine.takeCommand h code run s) :=
  takeCommand_keeps (SparesUsed s) (fun r t a => a.after ((KeepsUses.refl t).pushReply r))
    (fun _ t a => a.after (KeepsUses.refl t).same) h code run s (refl s) (of_begun (hrun _))

/-- A command that writes no sample. -/
theorem command {run : State → Answer} (hrun : ∀ s, KeepsUses s (run s).after) (h : Header) (code : Byte) (s : State) :
    SparesUsed s (Machine.takeCommand h code run s) := takeCommand (fun s => of_keeps (hrun s)) h code s

theorem unknownCommand (h : Header) (code : Byte) (s : State) : SparesUsed s (Machine.unknownCommand h code s) := by
  unfold Machine.unknownCommand
  split
  · exact refl s
  · exact command (fun s => (KeepsUses.refl s).refuse .noent) ..

theorem cellCommand {i : Instr} (h : Machine.cellCommand i s = .next t) : SparesUsed s t := by
  have r : ∀ s, KeepsUses s s := .refl
  cases i <;> cases h
  case laneSet => exact command (fun s => (r s).laneSet _ _ _) ..
  case routeSet => exact command (fun s => (r s).routeSet _ _ _ _) ..
  case zoneMixSet => exact command (fun s => (r s).zoneMixSet _ _ _ _) ..
  case ambientSet => exact command (fun s => (r s).ambientSet _ _ _ _ _ _ _) ..
  case zoneSet => exact command (fun s => (r s).zoneSet _ _ _ _) ..
  case zoneFault => exact command (fun s => (r s).zoneFault _ _) ..
  case zoneClear => exact command (fun s => (r s).zoneClear _) ..
  case announce => exact command (fun s => (r s).announce _ _) ..
  case release => exact command (fun s => (r s).release _ _) ..
  case clipWrite => exact takeCommand (clipWrite _ _) ..
  case clipRead => exact command (fun s => (r s).clipRead _) ..
  case phraseSet => exact command (fun s => (r s).phraseSet _ _ _ _) ..
  case templateSet => exact command (fun s => (r s).templateSet _ _ _ _ _ _) ..
  case time => exact command (fun s => (r s).timeCommand _ _) ..
  case clockSet => exact command (fun s => (r s).clockSet _ _) ..
  case platformSet => exact command (fun s => (r s).platformSet _ _ _) ..
  case planSet => exact command (fun s => (r s).planSet _ _ _ _ _ _) ..
  case callLoad => exact command (fun s => (r s).callLoad _) ..
  case callAmend => exact command (fun s => (r s).callAmend _ _ _ _) ..
  case callCancel => exact command (fun s => (r s).callCancel _) ..
  case callClear => exact command (fun s => (r s).callClear _) ..
  case periodicSet => exact command (fun s => (r s).periodicSet _) ..
  case queryStatus => exact command (fun s => (r s).queryStatus _) ..
  case queryZone => exact command (fun s => (r s).queryZone _) ..
  case queryRequest => exact command (fun s => (r s).queryRequest _) ..
  case queryEngine => exact command (fun s => (r s).queryEngine _) ..
  case queryCall => exact command (fun s => (r s).queryCall _) ..
  case queryCounters => exact command (fun s => (r s).queryCounters _) ..
  case queryPhrase => exact command (fun s => (r s).queryPhrase _) ..
  case identify => exact command r ..
  case unitReset => exact command .unitReset ..
  case unknownCommand => exact unknownCommand ..
  all_goals exact refl s

theorem cellEffect (m : CellMeaning) (s : State) : SparesUsed s (Machine.cellEffect m s) := by
  unfold Machine.cellEffect
  split
  · exact command (fun s => (KeepsUses.refl s).refuse .badarg) ..
  · split
    · next h => exact cellCommand h
    · exact refl s
    · exact refl s

theorem takeCell (s : State) : SparesUsed s (Machine.takeCell s) := by
  unfold Machine.takeCell
  split
  · exact refl s
  · exact (cellEffect ..).after (KeepsUses.refl _).same

theorem framePeriod (part : PeriodPart) (s : State) : SparesUsed s (Machine.framePeriod part s) := by
  cases part with
  | start => exact of_keeps (KeepsUses.refl s).startPeriod
  | whole => exact (of_begun (takeCell _)).after (KeepsUses.refl _).periodRest

theorem exec {c : Instr} (on : ∀ straps, c ≠ .powerOn straps) (h : Machine.exec c s = .next t) : SparesUsed s t := by
  have r := KeepsUses.refl s
  have begun := r.startPeriod
  have command : Machine.cellCommand c s = .next t → SparesUsed s t := cellCommand
  cases c
  case powerOn straps => exact absurd rfl (on straps)
  case pinReset => cases h; exact of_keeps (.pinReset ..)
  case framePeriod => cases h; exact framePeriod ..
  case ingressGoodFrame => cases h; exact of_keeps (r.chooseCell.ingressFrame _)
  case ingressBadFrame => cases h; exact of_keeps (r.chooseCell.ingressFrame _)
  case ingressMissingFrame => cases h; exact of_keeps r.chooseCell.missingFrame
  case linkLost => cases h; exact of_keeps begun.linkLost
  case linkRecovered => cases h; exact of_keeps begun.linkRecovered
  case egressCellPeriod => cases h; exact of_keeps r.chooseCell
  case windowEnd => cases h; exact of_keeps (.windowEnd _ _ begun)
  case releaseHoldEnd => cases h; exact of_keeps (r.releaseHoldEnd _)
  case wakeEnd => cases h; exact of_keeps (begun.holdWake _)
  case hangEnd => cases h; exact of_keeps (begun.holdHang _)
  case tickEnd => cases h; exact of_keeps begun.tickEnd
  case talkTimeout => cases h; exact of_keeps (begun.talkTimeout _)
  case holdoverEntry => cases h; exact of_keeps begun.holdoverEntry
  case prerollExit => cases h; exact of_keeps (begun.leavePreroll _).settle
  case fragmentBoundary => cases h; exact of_keeps (begun.boundary _).settle
  case fadeEnd => cases h; exact of_keeps (begun.endFade _).settle
  all_goals exact command h

end SparesUsed

/-- Settles O14: of the commands CLIP_WRITE alone writes samples, and it refuses a block that touches a referenced bank. -/
theorem aReferencedBankIsNeverWritten : Obligations.AReferencedBankIsNeverWritten :=
  fun _ _ _ on h => (SparesUsed.exec on h).samples

/-- Settles O9: records and counts change together at admissions and at ends, and every row is made of operations that keep the law. -/
theorem everyStepKeepsTheUseCounts : Obligations.EveryStepKeepsTheUseCounts := fun s t agree h => by
  unfold step at h
  split at h
  · cases h
    exact agree
  · next c rest _ =>
    have waiting : UseCountsAgree (s.setPending rest) := (KeepsUses.refl s).same.counts agree
    by_cases on : ∃ straps, c = .powerOn straps
    · obtain ⟨straps, rfl⟩ := on
      cases h
      exact .of_reset rfl rfl
    · exact (SparesUsed.exec (fun straps e => on ⟨straps, e⟩) h).counts waiting

end Sys2Proof.Machine
end

section
/-! CLIP_WRITE, CLIP_READ, PHRASE_SET and QUERY PHRASE (R116 to R123). -/

namespace Sys2Proof.Machine
set_option Elab.async false

variable {s : State}

/-! ### CLIP_WRITE and CLIP_READ (R118 to R120) -/

theorem exec_clipWrite (h : Header) (addr : Word) (samples : List ClipSample) (s : State) :
    exec (.clipWrite h addr samples) s = .next (takeCommand h 0x71 (clipWrite addr samples) s) := rfl

theorem exec_clipRead (h : Header) (addr : Word) (s : State) :
    exec (.clipRead h addr) s = .next (takeCommand h 0x73 (clipRead addr) s) := rfl

theorem clipAddressBad_iff (a : Nat) : clipAddressBad a = true ↔ a % 20 ≠ 0 ∨ a > 67108860 := by
  simp [clipAddressBad]

/-- A good address of a block: a multiple of 20, of which the last has four samples in the memory (R118). -/
structure BlockAddress (a n : Nat) : Prop where
  aligned : a % 20 = 0
  inside : a ≤ 67108860
  size : n = if a = 67108860 then 4 else 20

namespace BlockAddress

variable {a n : Nat} (good : BlockAddress a n)
include good

theorem not_bad : ¬clipAddressBad a = true := by
  obtain ⟨aligned, inside, -⟩ := good
  rw [clipAddressBad_iff]
  omega

theorem blockSize_eq : blockSize a = n := by
  obtain ⟨aligned, inside, size⟩ := good
  rw [blockSize, size, clipCapacity]
  split <;> omega

theorem secondBank_eq : secondBank a = if bankOf (a + n - 1) = bankOf a then none else some (bankOf (a + n - 1)) := by
  rw [Machine.secondBank_eq, good.blockSize_eq]

/-- The second bank's field of a reply, and the field of its use count (R118). -/
theorem secondBank_fields (s : State) :
    f1? (secondBank a) = (if bankOf (a + n - 1) = bankOf a then .b1 0xFF else f1 (bankOf (a + n - 1))) ∧
    f2 (((secondBank a).map fun b => tget s.cmc.useCounts b).getD 0) =
      (if bankOf (a + n - 1) = bankOf a then .b2 0 else f2 (tget s.cmc.useCounts (bankOf (a + n - 1)))) := by
  rw [good.secondBank_eq]
  split <;> exact ⟨rfl, rfl⟩

/-- A block is free to be written where the bank of its first sample and that of its last are unused (R118). -/
theorem blockUnused_iff (s : State) :
    blockUnused a s ↔ tget s.cmc.useCounts (bankOf a) = 0 ∧ tget s.cmc.useCounts (bankOf (a + n - 1)) = 0 := by
  rw [blockUnused, good.secondBank_eq, firstBank]
  split
  · next one => rw [one]; simp
  · simp

end BlockAddress

theorem clipWrite_bad {addr : Word} (samples : List ClipSample) (bad : addr.toNat % 20 ≠ 0 ∨ addr.toNat > 67108860) :
    clipWrite addr samples s = refuse .badarg s := if_pos ((clipAddressBad_iff _).mpr bad)

theorem clipRead_bad {addr : Word} (bad : addr.toNat % 20 ≠ 0 ∨ addr.toNat > 67108860) :
    clipRead addr s = refuse .badarg s := if_pos ((clipAddressBad_iff _).mpr bad)

theorem clipWrite_busy {addr : Word} {n : Nat} (good : BlockAddress addr.toNat n) (samples : List ClipSample)
    (used : ¬blockUnused addr.toNat s) : clipWrite addr samples s = ⟨.busy,
      [.b4 addr, f1 (bankOf addr.toNat), f2 (tget s.cmc.useCounts (bankOf addr.toNat)), f1? (secondBank addr.toNat),
        f2 (((secondBank addr.toNat).map fun b => tget s.cmc.useCounts b).getD 0)], s⟩ := by
  rw [← unused_iff, not_not] at used
  exact (if_neg good.not_bad).trans (if_pos used)

theorem clipWrite_done {addr : Word} {n : Nat} (good : BlockAddress addr.toNat n) (samples : List ClipSample)
    (unused : blockUnused addr.toNat s) : clipWrite addr samples s = ⟨.done,
      [.b4 addr, f2 n, f1 (bankOf addr.toNat), f1? (secondBank addr.toNat)],
      s.setCmc (writeClips s.cmc addr.toNat (samples.take 20))⟩ := by
  rw [← unused_iff] at unused
  rw [← good.blockSize_eq]
  exact (if_neg good.not_bad).trans (if_neg unused)

theorem clipRead_done {addr : Word} {n : Nat} (good : BlockAddress addr.toNat n) : clipRead addr s = ⟨.done,
    .b4 addr :: (List.range 20).map fun k =>
      .b2 (if addr.toNat + k < clipCapacity then clipAt s.cmc (addr.toNat + k) else 0), s⟩ := if_neg good.not_bad

/-- Writing samples changes the memory alone. -/
theorem writeClips_eq (m : Cmc) (a : Nat) (vs : List ClipSample) :
    writeClips m a vs = { m with memory := (writeClips m a vs).memory } := by
  have cycle := writeClips_powerCycle m a vs
  have phrases := writeClips_phrases m a vs
  have counts := writeClips_useCounts m a vs
  cases e : writeClips m a vs
  rw [e] at cycle phrases counts
  cases cycle
  cases phrases
  cases counts
  rfl

/-- The samples of a block are written, and those around it stand (R119). -/
theorem BlockAddress.clipAt_written {a n : Nat} (good : BlockAddress a n) {m : Cmc} (wf : memWf m.memory = true)
    {vs : List ClipSample} (all : vs.length = 20) (b : Nat) :
    (a ≤ b → b < a + n → clipAt (writeClips m a vs) b = vs.getD (b - a) 0) ∧
    (b < a ∨ a + n ≤ b → clipAt (writeClips m a vs) b = clipAt m b) := by
  obtain ⟨aligned, inside, size⟩ := good
  rw [clipAt_writeClips m a b vs wf, all, clipCapacity]
  refine ⟨fun le lt => if_pos ?_, fun out => if_neg ?_⟩ <;> split at size <;> omega

/-! ### PHRASE_SET (R121, R122) -/

theorem exec_phraseSet (h : Header) (phrase : Half) (present : Byte) (start length : Word) (s : State) :
    exec (.phraseSet h phrase present start length) s = .next (takeCommand h 0x72 (phraseSet phrase present start length) s) :=
  rfl

theorem f4_toNat (w : Word) : f4 w.toNat = .b4 w := by simp [f4]

theorem phraseClipBad_iff (start length : Nat) : phraseClipBad start length = true ↔
    length = 0 ∨ length > 1048576 ∨ start + length > 67108864 ∨ start / 1048576 ≠ (start + length - 1) / 1048576 := by
  simp [phraseClipBad, bankOf, clipCapacity, or_assoc]

theorem phraseSet_bad {phrase : Half} {present : Byte} {start length : Word} (bad : phrase.toNat > 1023 ∨ present.toNat > 1 ∨
    (present.toNat = 1 ∧ phraseClipBad start.toNat length.toNat = true)) :
    phraseSet phrase present start length s = refuse .badarg s := by
  rw [← byte_eq_iff present 1 (by decide)] at bad
  exact if_pos bad

/-- What a PHRASE_SET reply says of the entry before: whether it was present, and its start and length (R122). -/
def phraseBefore (id : Nat) (s : State) : List Field :=
  fBool (tget s.cmc.phrases id).isSome :: phraseFields s 3 (tget s.cmc.phrases id)

theorem phraseBefore_spec (id : Nat) (s : State) :
    (∀ p, tget s.cmc.phrases id = some p → phraseBefore id s = [.b1 1, f4 p.start, f4 p.length]) ∧
    (tget s.cmc.phrases id = none → ∃ x y, phraseBefore id s = [.b1 0, .b4 x, .b4 y]) := by
  unfold phraseBefore
  refine ⟨fun p e => by rw [e]; rfl, fun e => ⟨openValue 3 s, openValue 4 s, by rw [e]; rfl⟩⟩

theorem phraseSet_write {phrase : Half} {start length : Word} (id : phrase.toNat ≤ 1023)
    (good : ¬phraseClipBad start.toNat length.toNat = true) : phraseSet phrase 1 start length s =
      ⟨.done, [.b2 phrase, .b1 1, .b4 start, .b4 length, f1 (bankOf start.toNat)] ++ phraseBefore phrase.toNat s,
        s.setCmc { s.cmc with phrases := tset s.cmc.phrases phrase.toNat (some ⟨start.toNat, length.toNat⟩) }⟩ := by
  rw [← f4_toNat start, ← f4_toNat length]
  refine if_neg ?_
  rintro (above | many | ⟨-, bad⟩)
  · omega
  · exact absurd many (by decide)
  · exact good bad

theorem phraseSet_remove {phrase : Half} {start length : Word} (id : phrase.toNat ≤ 1023) :
    phraseSet phrase 0 start length s = ⟨.done,
      [.b2 phrase, .b1 0, .b4 (openValue 1 s), .b4 (openValue 2 s), .b1 0xFF] ++ phraseBefore phrase.toNat s,
      s.setCmc { s.cmc with phrases := tset s.cmc.phrases phrase.toNat none }⟩ := by
  refine if_neg ?_
  rintro (above | many | ⟨one, -⟩)
  · omega
  · exact absurd many (by decide)
  · exact absurd one (by decide)

/-! ### QUERY PHRASE (R123, R179) -/

theorem exec_queryPhrase (h : Header) (q : QueryFields) (s : State) :
    exec (.queryPhrase h q) s = .next (takeCommand h 0xA1 (queryPhrase q) s) := rfl

theorem queryPhrase_bad {q : QueryFields} (bad : q.subject.toNat > 1023 ∨ q.part.toNat > 0 ∨ q.flags.toNat > 0) :
    queryPhrase q s = refuse .badarg s := if_pos (bad.imp_right queryBad_of)

theorem not_phraseQueryBad {subject : Half} (id : subject.toNat ≤ 1023) :
    ¬(subject.toNat > 1023 ∨ queryBad ⟨subject, 0, 0⟩ 0 false = true) := by
  rw [queryBad_of_clear (Nat.le_refl 0) rfl]
  rintro (above | bad)
  · exact absurd above (not_lt.mpr id)
  · cases bad

theorem queryPhrase_done {subject : Half} {p : Phrase} (id : subject.toNat ≤ 1023)
    (present : tget s.cmc.phrases subject.toNat = some p) : queryPhrase ⟨subject, 0, 0⟩ s =
      ⟨.done, queryHead 6 ⟨subject, 0, 0⟩ 1 ++ [.b2 subject, f4 p.start, f4 p.length, f1 (bankOf p.start),
        f2 (tget s.cmc.useCounts (bankOf p.start))], s⟩ := by
  unfold queryPhrase
  rw [if_neg (not_phraseQueryBad id), present]
  exact queryAnswer_done Nat.zero_lt_one

theorem queryPhrase_noent {subject : Half} (id : subject.toNat ≤ 1023)
    (absent : tget s.cmc.phrases subject.toNat = none) : queryPhrase ⟨subject, 0, 0⟩ s = refuse .noent s := by
  unfold queryPhrase
  rw [if_neg (not_phraseQueryBad id), absent]

/-- Settles O47: each command by its checks, what it writes and what it answers. -/
theorem clipMemoryAndPhrases : Obligations.ClipMemoryAndPhrases := by
  refine ⟨fun h addr samples s ha bad => ?_, ?_, ?_, fun h addr s ha aligned inside => ?_,
    fun h phrase present start length s ha bad => ?_, fun h phrase start length s ha id some bank inside => ?_,
    fun h phrase start length s ha id => ?_, fun h q s ha bad => ?_, fun h subject s p ha id present => ?_,
    fun h subject s ha id absent => ?_⟩
  · exact ⟨congrArg _ (takeCommand_refused ha (clipWrite_bad samples bad)),
      congrArg _ (takeCommand_refused ha (clipRead_bad bad))⟩
  · rintro h addr samples s n b c ha aligned inside size rfl rfl used
    have good : BlockAddress addr.toNat n := ⟨aligned, inside, size⟩
    obtain ⟨bank, count⟩ := good.secondBank_fields s
    have busy := clipWrite_busy good samples (s := s) fun unused => by
      obtain ⟨first, second⟩ := (good.blockUnused_iff s).mp unused
      exact used.elim (fun u => u.ne first.symm) fun u => u.ne second.symm
    rw [bank, count] at busy
    rw [exec_clipWrite, takeCommand_answered ha (by rw [busy]; exact ha.room), busy]
    rfl
  · rintro h addr samples s n b c ha wf all aligned inside size rfl rfl first second
    have good : BlockAddress addr.toNat n := ⟨aligned, inside, size⟩
    have done := clipWrite_done good samples ((good.blockUnused_iff s).mpr ⟨first, second⟩)
    rw [(good.secondBank_fields s).1, List.take_of_length_le all.le] at done
    refine ⟨_, congrArg _ (takeCommand_done ha done rfl), ?_, fun a => (good.clipAt_written wf all a).1,
      fun a => (good.clipAt_written wf all a).2⟩
    exact congrArg s.setCmc (writeClips_eq ..)
  · refine ⟨_, by rw [List.length_map, List.length_range], fun k hk => ?_,
      congrArg _ (takeCommand_done ha (clipRead_done ⟨aligned, inside, rfl⟩) rfl)⟩
    rw [List.getElem?_map, List.getElem?_range hk]
    rfl
  · rw [← phraseClipBad_iff] at bad
    exact congrArg _ (takeCommand_refused ha (phraseSet_bad bad))
  · have good : ¬phraseClipBad start.toNat length.toNat = true := by
      rw [phraseClipBad_iff]
      omega
    obtain ⟨present, absent⟩ := phraseBefore_spec phrase.toNat s
    exact ⟨_, present, absent, congrArg _ (takeCommand_done ha (phraseSet_write id good) rfl)⟩
  · obtain ⟨present, absent⟩ := phraseBefore_spec phrase.toNat s
    exact ⟨_, _, _, present, absent, congrArg _ (takeCommand_done ha (phraseSet_remove id) rfl)⟩
  · exact congrArg _ (takeCommand_refused ha (queryPhrase_bad bad))
  · exact congrArg _ (takeCommand_done ha (queryPhrase_done id present) rfl)
  · exact congrArg _ (takeCommand_refused ha (queryPhrase_noent id absent))

end Sys2Proof.Machine
end

section
/-! TEMPLATE_SET: its checks, and what a cell makes of the load under way and of the template table (R125 to R127). -/

namespace Sys2Proof.Machine
set_option Elab.async false

variable {s : State}

theorem exec_templateSet (h : Header) (template wc wi ic first : Byte) (items : List ItemCell) (s : State) :
    exec (.templateSet h template wc wi ic first items) s =
      .next (takeCommand h 0x74 (templateSet template wc wi ic first items) s) := rfl

/-! ### The checks of a cell (R125) -/

theorem itemBad_iff (x : ItemCell) : itemBad x = true ↔ 7 < x.kind.toNat ∨ (x.kind.toNat = 0 ∧ 1023 < x.arg.toNat) ∨
    (x.kind.toNat = 1 ∧ (x.arg.toNat = 0 ∨ 480000 < x.arg.toNat)) := by
  have zero : x.arg = 0 ↔ x.arg.toNat = 0 := by rw [← BitVec.toNat_inj]; rfl
  simp [itemBad, ← byte_eq_iff x.kind 0 (by decide), ← byte_eq_iff x.kind 1 (by decide), ← zero, or_assoc]

theorem templateCellBad_iff (wc wi ic first : Nat) (items : List ItemCell) : templateCellBad wc wi ic first items = true ↔
    wc ≤ wi ∨ ic = 0 ∨ 24 < ic ∨ first ∉ [0, 7, 14, 21] ∨ ic ≤ first ∨
      ∃ x ∈ items.take (min 7 (ic - first)), itemBad x = true := by
  simp [templateCellBad, carriedItems, or_assoc]

/-! ### The items of a cell in its wording (R126) -/

theorem takeItems_first (ws : List WordingLoad) (ic : Nat) (kinds : List Item) :
    takeItems ws ic 0 kinds = ws ++ [⟨ic, kinds, worstOf kinds⟩] := if_pos rfl

theorem modify_length_append {α : Type} (f : α → α) (x : α) :
    ∀ l : List α, (l ++ [x]).modify l.length f = l ++ [f x]
  | [] => rfl
  | y :: l => congrArg (y :: ·) (modify_length_append f x l)

theorem takeItems_next {first : Nat} (later : 0 < first) (before : List WordingLoad) (v : WordingLoad) (ic : Nat)
    (kinds : List Item) : takeItems (before ++ [v]) ic first kinds =
      before ++ [⟨v.itemCount, v.items ++ kinds, v.worst + worstOf kinds⟩] := by
  rw [takeItems, if_neg (by omega), lmod, List.length_append, List.length_singleton, Nat.add_sub_cancel,
    modify_length_append]

theorem lastWorst_append (before : List WordingLoad) (v : WordingLoad) : lastWorst (before ++ [v]) = v.worst := by
  simp [lastWorst]

/-! ### The load that a cell belongs to (R126) -/

theorem templateLoadFor_first (load : Option TemplateLoad) (id wc ic : Nat) :
    templateLoadFor load id wc 0 ic 0 = some ⟨id, wc, [], 0, 0⟩ := if_pos ⟨rfl, rfl⟩

theorem templateLoadFor_none {load : Option TemplateLoad} {id wc wi ic first : Nat} (later : ¬(wi = 0 ∧ first = 0))
    (unfit : ∀ l, load = some l → l.template ≠ id ∨ l.wordingCount ≠ wc ∨ l.nextWording ≠ wi ∨ l.nextFirst ≠ first ∨
      (0 < first ∧ ∃ before v, l.wordings = before ++ [v] ∧ v.itemCount ≠ ic)) :
    templateLoadFor load id wc wi ic first = none := by
  unfold templateLoadFor
  rw [if_neg later]
  cases load with
  | none => rfl
  | some l =>
    dsimp only
    split
    · rfl
    · next same =>
      simp only [not_or, not_not] at same
      obtain ⟨template, count, wording, place⟩ := same
      obtain e | e | e | e | ⟨within, before, v, e, other⟩ := unfit l rfl
      · exact absurd template e
      · exact absurd count e
      · exact absurd wording e
      · exact absurd place e
      · rw [e, List.getLast?_append, if_pos ⟨within, by simpa using other⟩]

theorem templateLoadFor_some {l : TemplateLoad} {id wc wi ic first : Nat} (later : ¬(wi = 0 ∧ first = 0))
    (template : l.template = id) (count : l.wordingCount = wc) (wording : l.nextWording = wi) (place : l.nextFirst = first)
    (within : 0 < first → ∃ before v, l.wordings = before ++ [v] ∧ v.itemCount = ic) :
    templateLoadFor (some l) id wc wi ic first = some l := by
  unfold templateLoadFor
  rw [if_neg later]
  dsimp only
  rw [if_neg (by simp [template, count, wording, place]), if_neg]
  rintro ⟨later, other⟩
  obtain ⟨before, v, e, same⟩ := within later
  rw [e, List.getLast?_append] at other
  exact other (by simp [same])

/-! ### TEMPLATE_SET, case by case -/

section Cell

variable {template wc wi ic first : Byte} {items : List ItemCell}

theorem templateSet_bad (bad : template.toNat > 63 ∨ wc.toNat > 4 ∨
    (1 ≤ wc.toNat ∧ templateCellBad wc.toNat wi.toNat ic.toNat first.toNat items = true)) :
    templateSet template wc wi ic first items s = refuse .badarg s := by
  unfold templateSet
  by_cases range : template.toNat > 63 ∨ wc.toNat > 4
  · exact if_pos range
  · obtain ⟨some, cell⟩ := (or_assoc.mpr bad).resolve_left range
    exact (if_neg range).trans ((if_neg (by omega)).trans (if_pos cell))

theorem templateSet_remove (id : template.toNat ≤ 63) : templateSet template 0 wi ic first items s =
    ⟨.done, [.b1 template, .b1 2, .b1 0xFF, .b1 0xFF, .b2 0, f1? (s.tex.load.map (·.template)), .b1 0],
      s.setTex ⟨tset s.tex.templates template.toNat none, none⟩⟩ := by
  unfold templateSet
  exact (if_neg (by simp; omega)).trans (if_pos rfl)

/-- A cell in its ranges, with the load that it belongs to. -/
structure CellOf (s : State) (template wc wi ic first : Byte) (items : List ItemCell) (load : Option TemplateLoad) : Prop where
  id : template.toNat ≤ 63
  least : 1 ≤ wc.toNat
  most : wc.toNat ≤ 4
  good : templateCellBad wc.toNat wi.toNat ic.toNat first.toNat items = false
  load : templateLoadFor s.tex.load template.toNat wc.toNat wi.toNat ic.toNat first.toNat = load

/-- The wordings of a load with the cell's items taken. -/
def cellWordings (l : TemplateLoad) (ic first : Byte) (items : List ItemCell) : List WordingLoad :=
  takeItems l.wordings ic.toNat first.toNat ((carriedItems ic.toNat first.toNat items).map itemOf)

/-- The load that a cell discards: the one under way, where the cell begins another (R126). -/
def cellDiscards (s : State) (wi first : Byte) : Option Nat :=
  if wi.toNat = 0 ∧ first.toNat = 0 then s.tex.load.map (·.template) else none

namespace CellOf

variable {l : TemplateLoad} {load : Option TemplateLoad}

theorem ranges (c : CellOf s template wc wi ic first items load) : ¬(template.toNat > 63 ∨ wc.toNat > 4) ∧ ¬wc.toNat = 0 ∧
    ¬templateCellBad wc.toNat wi.toNat ic.toNat first.toNat items = true := by
  obtain ⟨id, least, most, good, -⟩ := c
  exact ⟨by omega, by omega, Bool.eq_false_iff.mp good⟩

theorem refuses (c : CellOf s template wc wi ic first items none) :
    templateSet template wc wi ic first items s = refuse .state s := by
  obtain ⟨range, kept, good⟩ := c.ranges
  unfold templateSet
  dsimp only
  rw [if_neg range, if_neg kept, if_neg good, c.load]

theorem overflows (c : CellOf s template wc wi ic first items (some l))
    (long : 32 < lastWorst (cellWordings l ic first items)) :
    templateSet template wc wi ic first items s = refuse .badarg s := by
  obtain ⟨range, kept, good⟩ := c.ranges
  unfold templateSet
  dsimp only
  rw [if_neg range, if_neg kept, if_neg good, c.load]
  exact if_pos long

theorem continues (c : CellOf s template wc wi ic first items (some l))
    (fits : lastWorst (cellWordings l ic first items) ≤ 32) {w f : Nat}
    (next : nextPosition wc.toNat wi.toNat ic.toNat first.toNat = some (w, f)) :
    templateSet template wc wi ic first items s = ⟨.done,
      [.b1 template, .b1 0, f1 w, f1 f, f2 (lastWorst (cellWordings l ic first items)), f1? (cellDiscards s wi first), .b1 0],
      s.setTex { s.tex with load := some { l with
        wordings := cellWordings l ic first items, nextWording := w, nextFirst := f } }⟩ := by
  obtain ⟨range, kept, good⟩ := c.ranges
  unfold templateSet
  dsimp only
  rw [if_neg range, if_neg kept, if_neg good, c.load, next]
  exact if_neg (not_lt.mpr fits)

theorem completes (c : CellOf s template wc wi ic first items (some l))
    (fits : lastWorst (cellWordings l ic first items) ≤ 32)
    (last : nextPosition wc.toNat wi.toNat ic.toNat first.toNat = none) :
    templateSet template wc wi ic first items s = ⟨.done,
      [.b1 template, .b1 1, .b1 0xFF, .b1 0xFF, f2 (lastWorst (cellWordings l ic first items)),
        f1? (cellDiscards s wi first), fBool (loadedTemplate (cellWordings l ic first items)).callField],
      s.setTex ⟨tset s.tex.templates template.toNat (some (loadedTemplate (cellWordings l ic first items))), none⟩⟩ := by
  obtain ⟨range, kept, good⟩ := c.ranges
  unfold templateSet
  dsimp only
  rw [if_neg range, if_neg kept, if_neg good, c.load, last]
  exact if_neg (not_lt.mpr fits)

end CellOf

/-- A first cell in its ranges begins a load, whatever load was under way (R126). -/
theorem cellOf_first (id : template.toNat ≤ 63) (least : 1 ≤ wc.toNat) (most : wc.toNat ≤ 4) (some : 1 ≤ ic.toNat)
    (few : ic.toNat ≤ 24) (good : (items.take (min 7 ic.toNat)).any itemBad = false) :
    CellOf s template wc 0 ic 0 items (Option.some ⟨template.toNat, wc.toNat, [], 0, 0⟩) where
  id := id
  least := least
  most := most
  good := by
    rw [Bool.eq_false_iff, Ne, templateCellBad_iff]
    rintro (e | e | e | e | e | ⟨x, hx, bad⟩)
    · exact absurd e (by simp; omega)
    · omega
    · omega
    · exact e (.head _)
    · exact absurd e (by simp; omega)
    · exact Bool.eq_false_iff.mp good (List.any_eq_true.mpr ⟨x, hx, bad⟩)
  load := templateLoadFor_first ..

theorem cellWordings_first (n m w f : Nat) : cellWordings ⟨n, m, [], w, f⟩ ic 0 items =
    [⟨ic.toNat, (items.take (min 7 ic.toNat)).map itemOf, worstOf ((items.take (min 7 ic.toNat)).map itemOf)⟩] := rfl

/-- A cell that fits the load adds its items to the wording that the load is at (R126). -/
theorem cellWordings_later {l : TemplateLoad} {before : List WordingLoad} {v : WordingLoad}
    (place : (first.toNat = 0 ∧ l.wordings = before ∧ v = ⟨ic.toNat, [], 0⟩) ∨
      (0 < first.toNat ∧ l.wordings = before ++ [v] ∧ v.itemCount = ic.toNat)) {kinds : List Item}
    (carried : kinds = (items.take (min 7 (ic.toNat - first.toNat))).map itemOf) :
    cellWordings l ic first items = before ++ [⟨ic.toNat, v.items ++ kinds, v.worst + worstOf kinds⟩] := by
  rw [cellWordings, carriedItems, ← carried]
  obtain ⟨zero, rfl, rfl⟩ | ⟨later, e, same⟩ := place
  · rw [zero, takeItems_first, List.nil_append, Nat.zero_add]
  · rw [e, takeItems_next later, same]

/-- The call-field flag of a completed load (R124). -/
theorem loadedTemplate_eq {ws : List WordingLoad} {flag : Bool}
    (calls : flag = true ↔ ∃ w ∈ ws, ∃ x ∈ w.items, itemCallField x = true) :
    loadedTemplate ws = ⟨ws.map fun w => ⟨w.items, w.worst⟩, flag⟩ := by
  have same : (ws.any fun w => w.items.any itemCallField) = flag := by
    rw [Bool.eq_iff_iff, calls]
    simp
  rw [loadedTemplate, same]

end Cell

/-! ### The statement -/

/-- Settles O48: a cell is refused, begins a load, does not fit the one under way, moves it on, or completes it. -/
theorem templateSetLoadsATemplate : Obligations.TemplateSetLoadsATemplate := by
  refine ⟨fun h template wc wi ic first items s ha bad => ?_, fun h template wi ic first items s ha id => ?_, ?_, ?_,
    fun h template wc wi ic first items s ha id least most good later unfit => ?_, ?_⟩
  · refine congrArg _ (takeCommand_refused ha (templateSet_bad ?_))
    rw [templateCellBad_iff]
    simpa only [itemBad_iff] using bad
  · exact congrArg _ (takeCommand_done ha (templateSet_remove id) rfl)
  · rintro h template ic items s kinds worst ha id some few good rfl rfl fits
    rw [← Nat.min_eq_right few] at good fits ⊢
    have cell := cellOf_first (s := s) (wc := 1) id (Nat.le_refl 1) (by decide) some (by omega) good
    have done := cell.completes fits (by
      rw [nextPosition, if_neg (by simp; omega)]
      rfl)
    rw [cellWordings_first, loadedTemplate_eq (flag := ((items.take (min 7 ic.toNat)).map itemOf).any itemCallField)
      (by simp)] at done
    exact congrArg _ (takeCommand_done ha done rfl)
  · rintro h template wc ic items s kinds worst w f ha id least most some few more good rfl rfl fits position
    have cell := cellOf_first (s := s) id least most some few good
    have done := cell.continues fits (w := w) (f := f) (by
      rw [position, nextPosition]
      simp
      split <;> simp <;> omega)
    exact congrArg _ (takeCommand_done ha done rfl)
  · have cell : CellOf s template wc wi ic first items none :=
      ⟨id, least, most, good, templateLoadFor_none later unfit⟩
    exact congrArg _ (takeCommand_refused ha cell.refuses)
  · rintro h template wc wi ic first items s l before v kinds worst ws ha id least most good later load here count wording
      place stands carried rfl rfl
    have cell : CellOf s template wc wi ic first items (some l) := by
      refine ⟨id, least, most, good, ?_⟩
      rw [load]
      refine templateLoadFor_some later here count wording place fun within => ?_
      obtain ⟨zero, -⟩ | ⟨-, e, same⟩ := stands
      · omega
      · exact ⟨before, v, e, same⟩
    have wordings : cellWordings l ic first items =
        before ++ [⟨ic.toNat, v.items ++ kinds, v.worst + (kinds.map itemWorst).sum⟩] :=
      cellWordings_later stands carried
    have total : lastWorst (cellWordings l ic first items) = v.worst + (kinds.map itemWorst).sum := by
      rw [wordings, lastWorst_append]
    have discards : cellDiscards s wi first = none := if_neg later
    refine ⟨fun long => ?_, fun fits more => ?_, fun fits full more => ?_, fun fits full last flag calls => ?_⟩
    · exact congrArg _ (takeCommand_refused ha (cell.overflows (total ▸ long)))
    · have done := cell.continues (total ▸ fits) (if_pos more)
      rw [total, discards, wordings, f1_toNat] at done
      exact congrArg _ (takeCommand_done ha done rfl)
    · have done := cell.continues (total ▸ fits) ((if_neg (by omega)).trans (if_pos more))
      rw [total, discards, wordings] at done
      exact congrArg _ (takeCommand_done ha done rfl)
    · have done := cell.completes (total ▸ fits) ((if_neg (by omega)).trans (if_neg (by omega)))
      rw [total, discards, wordings, loadedTemplate_eq calls] at done
      exact congrArg _ (takeCommand_done ha done rfl)

end Sys2Proof.Machine
end

section
/-! The choice of a wording and its latest start (R133 to R135): each fold over the candidates keeps the best one so far. -/

namespace Sys2Proof.Machine
set_option Elab.async false

variable {s : State}

/-! ### The best candidate of a list -/

section Best

variable {W α : Type} [LinearOrder α] (skip : W → Prop) (key : W → α)

/-- The better of the best so far and one more candidate: the smaller key, the earlier of equals. -/
def better [DecidablePred skip] (best : Option W) (w : W) : Option W :=
  if skip w then best else
  match best with
  | none => some w
  | some b => if key w < key b then some w else some b

/-- `w` stands at place `i`, counts, has the smallest key of those that count, and is the first with it. -/
structure IsBestAt (ws : List W) (w : W) (i : Nat) : Prop where
  place : ws[i]? = some w
  counts : ¬skip w
  least : ∀ (j : Nat) (v : W), ws[j]? = some v → ¬skip v → key w ≤ key v
  first : ∀ (j : Nat) (v : W), ws[j]? = some v → ¬skip v → j < i → key w < key v

variable {skip key}

section Step

variable [DecidablePred skip] {w b : W}

theorem better_of_skip (best : Option W) (skipped : skip w) : better skip key best w = best := if_pos skipped

theorem better_none (counts : ¬skip w) : better skip key none w = some w := if_neg counts

theorem better_some (counts : ¬skip w) :
    better skip key (some b) w = if key w < key b then some w else some b := if_neg counts

end Step

theorem getElem?_concat_eq_some {ws : List W} {x v : W} {j : Nat} :
    (ws ++ [x])[j]? = some v ↔ ws[j]? = some v ∨ (j = ws.length ∧ v = x) := by
  rw [List.getElem?_append]
  split
  · simp
    omega
  · next past => simp [List.getElem?_eq_none (Nat.le_of_not_lt past), List.getElem?_singleton]; grind

theorem IsBestAt.mem {ws : List W} {w : W} {i : Nat} (h : IsBestAt skip key ws w i) : w ∈ ws :=
  List.mem_of_getElem? h.place

/-- A candidate that does not count, or is no better, leaves the best one as it is. -/
theorem IsBestAt.concat {ws : List W} {w x : W} {i : Nat} (h : IsBestAt skip key ws w i) (worse : ¬skip x → key w ≤ key x) :
    IsBestAt skip key (ws ++ [x]) w i where
  place := getElem?_concat_eq_some.mpr (.inl h.place)
  counts := h.counts
  least j v at_j counts := by
    obtain old | ⟨-, rfl⟩ := getElem?_concat_eq_some.mp at_j
    · exact h.least j v old counts
    · exact worse counts
  first j v at_j counts before := by
    obtain old | ⟨rfl, -⟩ := getElem?_concat_eq_some.mp at_j
    · exact h.first j v old counts before
    · have inside := (List.getElem?_eq_some_iff.mp h.place).1
      omega

/-- A candidate that counts and beats all before it is the best one. -/
theorem isBestAt_length {ws : List W} {x : W} (counts : ¬skip x)
    (beats : ∀ (j : Nat) (v : W), ws[j]? = some v → ¬skip v → key x < key v) :
    IsBestAt skip key (ws ++ [x]) x ws.length where
  place := getElem?_concat_eq_some.mpr (.inr ⟨rfl, rfl⟩)
  counts := counts
  least j v at_j counts := by
    obtain old | ⟨-, rfl⟩ := getElem?_concat_eq_some.mp at_j
    · exact (beats j v old counts).le
    · exact le_rfl
  first j v at_j counts before := by
    obtain old | ⟨rfl, -⟩ := getElem?_concat_eq_some.mp at_j
    · exact beats j v old counts
    · omega

variable [DecidablePred skip]

/-- What the fold over a list has found: nothing where nothing counts, else the best candidate. -/
theorem foldl_better (ws : List W) :
    (ws.foldl (better skip key) none = none ∧ ∀ w ∈ ws, skip w) ∨
      ∃ w i, ws.foldl (better skip key) none = some w ∧ IsBestAt skip key ws w i := by
  induction ws using List.reverseRecOn with
  | nil => exact .inl ⟨rfl, by simp⟩
  | append_singleton ws x ih =>
    rw [List.foldl_append, List.foldl_cons, List.foldl_nil]
    by_cases skipped : skip x
    · rw [better_of_skip _ skipped]
      refine ih.imp (fun ⟨found, all⟩ => ⟨found, ?_⟩) fun ⟨w, i, found, best⟩ => ⟨w, i, found, ?_⟩
      · simpa [or_imp, forall_and, skipped] using all
      · exact best.concat fun counts => absurd skipped counts
    · right
      obtain ⟨found, all⟩ | ⟨w, i, found, best⟩ := ih
      · rw [found, better_none skipped]
        exact ⟨x, _, rfl, isBestAt_length skipped fun j v at_j counts => absurd (all v (List.mem_of_getElem? at_j)) counts⟩
      · rw [found, better_some skipped]
        by_cases smaller : key x < key w
        · exact ⟨x, _, if_pos smaller,
            isBestAt_length skipped fun j v at_j counts => smaller.trans_le (best.least j v at_j counts)⟩
        · exact ⟨w, i, if_neg smaller, best.concat fun _ => not_lt.mp smaller⟩

theorem foldl_better_none {ws : List W} (all : ∀ w ∈ ws, skip w) : ws.foldl (better skip key) none = none := by
  obtain ⟨found, -⟩ | ⟨w, i, -, best⟩ := foldl_better (skip := skip) (key := key) ws
  · exact found
  · exact absurd (all w best.mem) best.counts

theorem foldl_better_some {ws : List W} {w : W} (found : ws.foldl (better skip key) none = some w) :
    ∃ i, IsBestAt skip key ws w i := by
  obtain ⟨nothing, -⟩ | ⟨v, i, other, best⟩ := foldl_better (skip := skip) (key := key) ws
  · exact absurd (nothing.symm.trans found) (by simp)
  · obtain rfl := Option.some.inj (other.symm.trans found)
    exact ⟨i, best⟩

/-- Only one candidate is the best one. -/
theorem IsBestAt.foldl_eq {ws : List W} {w : W} {i : Nat} (best : IsBestAt skip key ws w i) :
    ws.foldl (better skip key) none = some w := by
  obtain ⟨-, all⟩ | ⟨v, j, found, other⟩ := foldl_better (skip := skip) (key := key) ws
  · exact absurd (all w best.mem) best.counts
  · obtain before | rfl | after := lt_trichotomy i j
    · exact absurd (other.first i w best.place best.counts before) (best.least j v other.place other.counts).not_gt
    · rw [found, ← other.place, best.place]
    · exact absurd (best.first j v other.place other.counts after) (other.least i w best.place best.counts).not_gt

end Best

/-! ### The two choices of R134 -/

/-- The key of the longest wording: its duration, with the order turned round. -/
def longer (w : WordingExpansion) : ℕᵒᵈ := OrderDual.toDual (listDuration w.fragments)

/-- The key of the shortest wording. -/
def shorter (w : WordingExpansion) : ℕ := listDuration w.fragments

theorem longer_lt {w v : WordingExpansion} : longer w < longer v ↔ listDuration v.fragments < listDuration w.fragments := Iff.rfl

theorem longer_le {w v : WordingExpansion} : longer w ≤ longer v ↔ listDuration v.fragments ≤ listDuration w.fragments := Iff.rfl

theorem longestWithin_eq (budget : Int) (ws : List WordingExpansion) : longestWithin budget ws =
    ws.foldl (better (fun w => w.fragments = [] ∨ budget < (listDuration w.fragments : Int)) longer) none := by
  unfold longestWithin
  congr
  funext best w
  cases best with
  | none => rfl
  | some b => rfl

theorem shortestOf_eq (ws : List WordingExpansion) :
    shortestOf ws = ws.foldl (better (fun w => w.fragments = []) shorter) none := by
  unfold shortestOf
  congr
  funext best w
  cases best with
  | none => rfl
  | some b => rfl

theorem longestWithin_some {budget : Int} {ws : List WordingExpansion} {w : WordingExpansion}
    (found : longestWithin budget ws = some w) :
    w ∈ ws ∧ w.fragments ≠ [] ∧ (listDuration w.fragments : Int) ≤ budget := by
  rw [longestWithin_eq] at found
  obtain ⟨i, best⟩ := foldl_better_some found
  exact ⟨best.mem, by simpa using best.counts⟩

theorem longestWithin_none {budget : Int} {ws : List WordingExpansion}
    (all : ∀ w ∈ ws, w.fragments = [] ∨ budget < (listDuration w.fragments : Int)) : longestWithin budget ws = none :=
  (longestWithin_eq budget ws).trans (foldl_better_none all)

/-- The longest wording that fits, the lowest index among equals (R134). -/
theorem longestWithin_of_longest {budget : Int} {ws : List WordingExpansion} {i : Nat} {w : WordingExpansion}
    (place : ws[i]? = some w) (spoken : w.fragments ≠ []) (fits : (listDuration w.fragments : Int) ≤ budget)
    (longest : ∀ (j : Nat) (v : WordingExpansion), ws[j]? = some v → v.fragments ≠ [] →
      (listDuration v.fragments : Int) ≤ budget → listDuration v.fragments < listDuration w.fragments ∨
        (listDuration v.fragments = listDuration w.fragments ∧ i ≤ j)) : longestWithin budget ws = some w := by
  have best : IsBestAt (fun w => w.fragments = [] ∨ budget < (listDuration w.fragments : Int)) longer ws w i :=
    { place
      counts := by simpa using ⟨spoken, fits⟩
      least := fun j v at_j counts => by
        obtain ⟨spoken, fits⟩ : v.fragments ≠ [] ∧ _ := by simpa using counts
        exact longer_le.mpr ((longest j v at_j spoken fits).elim Nat.le_of_lt fun ⟨same, _⟩ => same.le)
      first := fun j v at_j counts before => by
        obtain ⟨spoken, fits⟩ : v.fragments ≠ [] ∧ _ := by simpa using counts
        exact longer_lt.mpr ((longest j v at_j spoken fits).resolve_right fun ⟨_, after⟩ => absurd before after.not_gt) }
  rw [longestWithin_eq, best.foldl_eq]

theorem shortestOf_some {ws : List WordingExpansion} {w : WordingExpansion} (found : shortestOf ws = some w) :
    w ∈ ws ∧ w.fragments ≠ [] := by
  rw [shortestOf_eq] at found
  obtain ⟨i, best⟩ := foldl_better_some found
  exact ⟨best.mem, best.counts⟩

/-- The shortest wording, the lowest index among equals (R134). -/
theorem shortestOf_of_shortest {ws : List WordingExpansion} {i : Nat} {w : WordingExpansion}
    (place : ws[i]? = some w) (spoken : w.fragments ≠ [])
    (shortest : ∀ (j : Nat) (v : WordingExpansion), ws[j]? = some v → v.fragments ≠ [] →
      listDuration w.fragments < listDuration v.fragments ∨
        (listDuration v.fragments = listDuration w.fragments ∧ i ≤ j)) : shortestOf ws = some w := by
  have best : IsBestAt (fun w => w.fragments = []) shorter ws w i :=
    { place
      counts := spoken
      least := fun j v at_j counts => (shortest j v at_j counts).elim Nat.le_of_lt fun ⟨same, _⟩ => same.ge
      first := fun j v at_j counts before =>
        (shortest j v at_j counts).resolve_right fun ⟨_, after⟩ => absurd before after.not_gt }
  rw [shortestOf_eq, best.foldl_eq]

/-! ### The wording that the expander hands on -/

theorem expansionBudget_eq (s : State) (d : Time) : expansionBudget s d = (d - (now s).1).toInt * 480 - (now s).2 := rfl

theorem chooseWording_fits {d : Time} {ws : List WordingExpansion} {w : WordingExpansion}
    (fits : longestWithin (expansionBudget s d) ws = some w) : chooseWording s (some d) ws = some (w, false) := by
  rw [chooseWording, fits]

theorem chooseWording_overruns {d : Time} {ws : List WordingExpansion}
    (nothing : longestWithin (expansionBudget s d) ws = none) :
    chooseWording s (some d) ws = (shortestOf ws).map fun w => (w, true) := by
  rw [chooseWording, nothing]

theorem chooseWording_none_cons (w : WordingExpansion) (ws : List WordingExpansion) :
    chooseWording s none (w :: ws) = if w.fragments = [] then none else some (w, false) := by
  by_cases empty : w.fragments = [] <;> simp [chooseWording, empty]

/-- The wording handed on is one of the wordings; with a deadline and without OVERRUN it fits the budget. -/
theorem chooseWording_some {deadline : Option Time} {ws : List WordingExpansion} {p : WordingExpansion × Bool}
    (chosen : chooseWording s deadline ws = some p) : p.1 ∈ ws ∧ p.1.fragments ≠ [] ∧
      ∀ d, deadline = some d → p.2 = false → (listDuration p.1.fragments : Int) ≤ expansionBudget s d := by
  cases deadline with
  | none =>
    cases ws with
    | nil => simp [chooseWording] at chosen
    | cons w ws =>
      rw [chooseWording_none_cons] at chosen
      split at chosen
      · simp at chosen
      · next spoken =>
        obtain rfl := Option.some.inj chosen
        exact ⟨List.mem_cons_self, spoken, by simp⟩
  | some d =>
    cases found : longestWithin (expansionBudget s d) ws with
    | some w =>
      obtain rfl := Option.some.inj ((chooseWording_fits found).symm.trans chosen)
      obtain ⟨mem, spoken, fits⟩ := longestWithin_some found
      exact ⟨mem, spoken, by rintro _ ⟨⟩ -; exact fits⟩
    | none =>
      rw [chooseWording_overruns found, Option.map_eq_some_iff] at chosen
      obtain ⟨w, shortest, rfl⟩ := chosen
      obtain ⟨mem, spoken⟩ := shortestOf_some shortest
      exact ⟨mem, spoken, by simp⟩

theorem chooseWording_of_empty {deadline : Option Time} {ws : List WordingExpansion} (all : ∀ w ∈ ws, w.fragments = []) :
    chooseWording s deadline ws = none := by
  refine Option.eq_none_iff_forall_ne_some.mpr fun p chosen => ?_
  obtain ⟨mem, spoken, -⟩ := chooseWording_some chosen
  exact spoken (all p.1 mem)

/-! ### An expansion (R128) -/

/-- What an expansion hands on: a wording of the template with its duration, and the latest start. -/
theorem expand_some {template : Nat} {deadline : Option Time} {call : Option CallInfo} {late : Option (Time × Nat)}
    {x : Expanded} (h : expand s template deadline call late = some x) :
    ∃ t, tget s.tex.templates template = some t ∧ ∃ p,
      chooseWording s deadline (t.wordings.map (expandWording s call)) = some p ∧
      x = ⟨p.1.fragments, listDuration p.1.fragments, p.2, p.1.missing,
        latestStartOf deadline p.2 (listDuration p.1.fragments) late⟩ := by
  rw [expand, Option.bind_eq_some_iff] at h
  obtain ⟨t, loaded, h⟩ := h
  rw [Option.map_eq_some_iff] at h
  obtain ⟨p, chosen, rfl⟩ := h
  exact ⟨t, loaded, p, chosen, rfl⟩

/-! ### The latest start (R135) -/

theorem toInt_ofInt_32 {n : Int} (low : -2 ^ 31 ≤ n) (high : n < 2 ^ 31) : (BitVec.ofInt 32 n).toInt = n :=
  BitVec.toInt_ofInt_eq_self (by decide) low high

/-- A deadline that is at least `c` ticks ahead, moved back by `c` ticks, is at or after `T`. -/
theorem timeAdd_neg_not_earlier {d t : Time} {c : Nat} (ahead : (c : Int) ≤ (d - t).toInt) :
    earlier (timeAdd d (-(c : Int))) t = false ∧ (d - timeAdd d (-(c : Int))).toInt = c := by
  have small : (d - t).toInt < 2 ^ 31 := (d - t).toInt_lt
  have start : timeAdd d (-(c : Int)) - t = BitVec.ofInt 32 ((d - t).toInt - c) := by
    rw [timeAdd, Int.sub_eq_add_neg, BitVec.ofInt_add, BitVec.ofInt_toInt]
    ring
  have back : d - timeAdd d (-(c : Int)) = BitVec.ofInt 32 c := by
    rw [timeAdd, BitVec.ofInt_neg]
    ring
  rw [earlier, timeDiff, start, back, toInt_ofInt_32 (by omega) (by omega), toInt_ofInt_32 (by omega) (by omega)]
  exact ⟨decide_eq_false (by omega), rfl⟩

theorem latestStartOf_within (deadline : Time) (duration : Nat) (late : Option (Time × Nat)) :
    latestStartOf (some deadline) false duration late =
      some (timeAdd deadline (-(((duration + 479) / 480 : Nat) : Int))) := rfl

/-- Settles O51: the folds find the best candidate, and a duration within the budget fits before the deadline in whole ticks. -/
theorem theLongestWordingThatFitsIsChosen : Obligations.TheLongestWordingThatFitsIsChosen := by
  refine ⟨?_, fun s w ws spoken => ?_, fun s w ws empty => ?_, fun s template deadline call late x h within => ?_⟩
  · rintro s ws d _ rfl
    rw [← expansionBudget_eq]
    refine ⟨fun i w place spoken fits longest => chooseWording_fits (longestWithin_of_longest place spoken fits longest),
      fun nothing i w place spoken shortest => ?_, chooseWording_of_empty⟩
    rw [chooseWording_overruns (longestWithin_none nothing), shortestOf_of_shortest place spoken shortest]
    rfl
  · rw [chooseWording_none_cons, if_neg spoken]
  · rw [chooseWording_none_cons, if_pos empty]
  · obtain ⟨t, -, p, chosen, rfl⟩ := expand_some h
    obtain ⟨-, -, fits⟩ := chooseWording_some chosen
    have ahead := fits deadline rfl within
    rw [expansionBudget_eq] at ahead
    obtain ⟨start, ticks⟩ := timeAdd_neg_not_earlier (d := deadline) (t := (now s).1)
      (c := (listDuration p.1.fragments + 479) / 480) (by omega)
    have chosenWithin : p.2 = false := within
    refine ⟨_, chosenWithin ▸ latestStartOf_within deadline _ late, start, ?_⟩
    rw [ticks]
    dsimp only
    omega

end Sys2Proof.Machine
end

section
/-! What an item expands to, and what a wording and a template make of their items (R128 to R132). -/

namespace Sys2Proof.Machine
set_option Elab.async false

variable {s : State} {call : Option CallInfo}

/-! ### The parts of an item -/

/-- The parts of a wording, in order (R128). -/
def wordingParts (s : State) (call : Option CallInfo) (w : Wording) : List (Option Fragment) :=
  w.items.flatMap (itemParts s call)

theorem expandWording_eq (s : State) (call : Option CallInfo) (w : Wording) :
    expandWording s call w = ⟨(wordingParts s call w).filterMap id, (wordingParts s call w).any Option.isNone⟩ := rfl

theorem expandWording_item (s : State) (call : Option CallInfo) (i : Item) (n : Nat) :
    expandWording s call ⟨[i], n⟩ = ⟨(itemParts s call i).filterMap id, (itemParts s call i).any Option.isNone⟩ := by
  rw [expandWording_eq, wordingParts, List.flatMap_singleton]

/-- An item that is left out gives no fragment and counts as missing (R132). -/
theorem expandWording_left_out {i : Item} {n : Nat} (out : itemParts s call i = [none]) :
    expandWording s call ⟨[i], n⟩ = ⟨[], true⟩ := by
  rw [expandWording_item, out]
  rfl

theorem any_isNone_eq (parts : List (Option Fragment)) : parts.any Option.isNone = parts.contains none := by
  rw [Bool.eq_iff_iff, List.any_eq_true, List.contains_iff_mem]
  simp only [Option.isNone_iff_eq_none, exists_eq_right]

/-- An item that speaks phrases gives the clips of those that are present. -/
theorem expandWording_phrases {i : Item} {n : Nat} {ids : List Nat}
    (phrases : itemParts s call i = ids.map (phraseFragment s)) : expandWording s call ⟨[i], n⟩ =
      ⟨ids.filterMap (phraseFragment s), (ids.map (phraseFragment s)).contains none⟩ := by
  rw [expandWording_item, phrases, List.filterMap_map, any_isNone_eq]
  rfl

theorem itemParts_of_no_call {i : Item} (field : itemCallField i = true) : itemParts s none i = [none] := by
  cases i with
  | phrase | pause => exact absurd field Bool.false_ne_true
  | schedTime | expectedTime | platform | destination | via | delayMinutes => rfl

theorem itemParts_platform_zero {c : CallInfo} (zero : c.platform = 0) : itemParts s (some c) .platform = [none] :=
  congrArg (fun x => [x]) (if_pos zero)

theorem itemParts_platform {c : CallInfo} (given : c.platform ≠ 0) :
    itemParts s (some c) .platform = [c.platform].map (phraseFragment s) :=
  congrArg (fun x => [x]) (if_neg given)

theorem timePhrases_length_le (t : Time) : (timePhrases t).length ≤ 3 := by
  unfold timePhrases
  dsimp only
  split
  · exact Nat.le_succ 2
  · split
    · exact Nat.le_refl 3
    · exact Nat.le_succ 2

/-- A call-field item has at least one place, also without call fields. -/
theorem callParts_length_le {f : CallInfo → List (Option Fragment)} {n : Nat} (least : 1 ≤ n)
    (bound : ∀ c, call = some c → (f c).length ≤ n) : (callParts call f).length ≤ n := by
  cases call with
  | none => exact least
  | some c => exact bound c rfl

/-- The worst-case count of Table 7.2 bounds the parts of an item. -/
theorem itemParts_length_le (few : ∀ c, call = some c → c.via.length ≤ 4) (i : Item) :
    (itemParts s call i).length ≤ itemWorst i := by
  cases i with
  | phrase | pause => exact Nat.le_refl 1
  | schedTime | expectedTime =>
    exact callParts_length_le (by decide) fun c _ => (List.length_map _).trans_le (timePhrases_length_le _)
  | platform | destination | delayMinutes => exact callParts_length_le (Nat.le_refl 1) fun c _ => Nat.le_refl 1
  | via => exact callParts_length_le (by decide) fun c given => (List.length_map _).trans_le (few c given)

/-! ### A wording and a template -/

theorem expandWording_fragments (s : State) (call : Option CallInfo) (w : Wording) : (expandWording s call w).fragments =
    w.items.flatMap fun i => (expandWording s call ⟨[i], 0⟩).fragments := by
  simp only [expandWording_item]
  rw [expandWording_eq, wordingParts, List.filterMap_flatMap]

theorem expandWording_missing (s : State) (call : Option CallInfo) (w : Wording) : (expandWording s call w).missing = true ↔
    ∃ i ∈ w.items, (expandWording s call ⟨[i], 0⟩).missing = true := by
  simp only [expandWording_item]
  rw [expandWording_eq, wordingParts, List.any_flatMap, List.any_eq_true]

theorem expandWording_length_le (few : ∀ c, call = some c → c.via.length ≤ 4) (w : Wording) :
    (expandWording s call w).fragments.length ≤ (w.items.map itemWorst).sum := by
  calc (expandWording s call w).fragments.length
      ≤ (wordingParts s call w).length := List.length_filterMap_le _ _
    _ = (w.items.map fun i => (itemParts s call i).length).sum := List.length_flatMap
    _ ≤ (w.items.map itemWorst).sum := List.sum_le_sum fun i _ => itemParts_length_le few i

theorem expand_not_loaded {template : Nat} {deadline : Option Time} {late : Option (Time × Nat)}
    (absent : tget s.tex.templates template = none) : expand s template deadline call late = none := by
  rw [expand, absent, Option.bind_none]

theorem expand_of_empty {template : Nat} {deadline : Option Time} {late : Option (Time × Nat)} {t : Template}
    (loaded : tget s.tex.templates template = some t) (all : ∀ w ∈ t.wordings, (expandWording s call w).fragments = []) :
    expand s template deadline call late = none := by
  rw [expand, loaded, Option.bind_some, chooseWording_of_empty (List.forall_mem_map.mpr all), Option.map_none]

/-! ### The statement -/

/-- The phrase directory gives each phrase its clip. -/
theorem phraseFragment_unique {clip : Nat → Option Fragment}
    (present : ∀ id p, tget s.cmc.phrases id = some p → clip id = some (.clip p.start p.length))
    (absent : ∀ id, tget s.cmc.phrases id = none → clip id = none) : phraseFragment s = clip := by
  funext id
  rw [phraseFragment]
  cases entry : tget s.cmc.phrases id with
  | none => exact (absent id entry).symm
  | some p => exact (present id p entry).symm

/-- Settles O49: each item gives the parts of its row of Table 7.2, and a wording and a template collect them. -/
theorem itemsExpandToFragments : Obligations.ItemsExpandToFragments := by
  refine ⟨fun s call w => ⟨expandWording_fragments s call w, expandWording_missing s call w⟩,
    fun s call n => expandWording_item s call _ 0, ?_,
    fun s i field => expandWording_left_out (itemParts_of_no_call field),
    fun s c zero => expandWording_left_out (itemParts_platform_zero zero),
    fun s call w few => expandWording_length_le few w, ?_, ?_⟩
  · intro s call clip ids i present absent row
    obtain rfl := phraseFragment_unique present absent
    refine expandWording_phrases ?_
    obtain ⟨id, rfl, rfl⟩ | ⟨c, rfl, rfl, given, rfl⟩ | ⟨c, rfl, rfl, rfl⟩ | ⟨c, rfl, rfl, rfl⟩ | ⟨c, rfl, rfl, rfl⟩ |
      ⟨c, t, hour, minute, rfl, ⟨rfl, rfl⟩ | ⟨rfl, rfl⟩, rfl, rfl, rfl⟩ := row
    · rfl
    · exact itemParts_platform given
    · rfl
    · rfl
    · rfl
    · rfl
    · rfl
  · rintro s template deadline call late (absent | ⟨t, loaded, all⟩)
    · exact expand_not_loaded absent
    · exact expand_of_empty loaded all
  · intro s template deadline call late x y loaded h
    obtain ⟨t, found, p, chosen, rfl⟩ := expand_some h
    obtain rfl := Option.some.inj (loaded.symm.trans found)
    obtain ⟨mem, spoken, -⟩ := chooseWording_some chosen
    obtain ⟨w, inTemplate, given⟩ := List.mem_map.mp mem
    exact ⟨spoken, rfl, w, inTemplate, given⟩

end Sys2Proof.Machine
end

section
/-! What moves station time (R136, R142): a TIME cell, the two resets, and the end of a frame period, by one tick. -/

namespace Sys2Proof.Machine

variable {s t : State}

/-! ### Commands and cells -/

/-- A command that is taken leaves station time where what it carries out does. -/
theorem time_takeCommand {run : State → Answer} (hrun : ∀ s, (run s).after.stc.time = s.stc.time) (h : Header)
    (code : Byte) (s : State) : (takeCommand h code run s).stc.time = s.stc.time := by
  refine takeCommand_keeps (fun t => t.stc.time = s.stc.time) (fun r t ht => ?_) (fun _ _ ht => ht) h code run s rfl ?_
  · rw [pushReply_spec]
    split <;> exact ht
  · rw [hrun, startPeriod_stc]

/-- A command whose effect is made of elementary actions leaves station time. -/
theorem time_command {run : State → Answer} (hrun : ∀ s, KeepsOnTime s (run s).after) (h : Header) (code : Byte)
    (s : State) : (takeCommand h code run s).stc.time = s.stc.time :=
  time_takeCommand (fun s => (hrun s).clock.time) h code s

/-- UNIT_RESET leaves the clock (R184, Table 10.3). -/
theorem time_unitReset (s : State) : (unitReset s).after.stc.time = s.stc.time := by rw [unitReset_after]; rfl

theorem time_unknownCommand (h : Header) (code : Byte) (s : State) : (unknownCommand h code s).stc.time = s.stc.time := by
  unfold unknownCommand
  split
  · rfl
  · exact time_takeCommand (fun _ => rfl) h code s

/-- Of the rows that a cell can spell, TIME alone moves station time. -/
theorem time_cellCommand {i : Instr} (noTime : ∀ h r f, i ≠ .time h r f) (h : cellCommand i s = .next t) :
    t.stc.time = s.stc.time := by
  have b := KeepsOnTime.actions
  cases i <;> cases h
  case time => exact absurd rfl (noTime _ _ _)
  case unitReset => exact time_takeCommand time_unitReset ..
  case unknownCommand => exact time_unknownCommand ..
  case laneSet => exact time_command (b.laneSet _ _ _) ..
  case routeSet => exact time_command (b.routeSet _ _ _ _) ..
  case zoneMixSet => exact time_command (b.zoneMixSet _ _ _ _) ..
  case ambientSet => exact time_command (b.ambientSet _ _ _ _ _ _ _) ..
  case zoneSet => exact time_command (b.zoneSet _ _ _ _) ..
  case zoneFault => exact time_command (b.zoneFault _ _) ..
  case zoneClear => exact time_command (b.zoneClear _) ..
  case announce => exact time_command (b.announce _ _) ..
  case release => exact time_command (b.release _ _) ..
  case clipWrite => exact time_command (b.clipWrite _ _) ..
  case clipRead => exact time_command (b.clipRead _) ..
  case phraseSet => exact time_command (b.phraseSet _ _ _ _) ..
  case templateSet => exact time_command (b.templateSet _ _ _ _ _ _) ..
  case clockSet => exact time_command (b.clockSet _ _) ..
  case platformSet => exact time_command (b.platformSet _ _ _) ..
  case planSet => exact time_command (b.planSet _ _ _ _ _ _) ..
  case callLoad => exact time_command (b.callLoad _) ..
  case callAmend => exact time_command (b.callAmend _ _ _ _) ..
  case callCancel => exact time_command (b.callCancel _) ..
  case callClear => exact time_command (b.callClear _) ..
  case periodicSet => exact time_command (b.periodicSet _) ..
  case queryStatus => exact time_command (b.queryStatus _) ..
  case queryZone => exact time_command (b.queryZone _) ..
  case queryRequest => exact time_command (b.queryRequest _) ..
  case queryEngine => exact time_command (b.queryEngine _) ..
  case queryCall => exact time_command (b.queryCall _) ..
  case queryCounters => exact time_command (b.queryCounters _) ..
  case queryPhrase => exact time_command (b.queryPhrase _) ..
  case identify => exact time_command b.refl ..
  all_goals rfl

theorem time_cellEffect {m : CellMeaning} (noTime : ∀ h r f, m ≠ .command (.time h r f)) (s : State) :
    (cellEffect m s).stc.time = s.stc.time := by
  unfold cellEffect
  split
  · exact time_takeCommand (fun _ => rfl) ..
  · split
    · next h => exact time_cellCommand (fun hd r f e => noTime hd r f (congrArg _ e)) h
    · rfl
    · rfl

/-- Taking the complete cell leaves station time, unless it spells TIME. -/
theorem time_takeCell (noTime : ∀ ws, s.ch.complete = some ws → ∀ h r f, decodeCell ws ≠ .command (.time h r f)) :
    (takeCell s).stc.time = s.stc.time := by
  cases complete : s.ch.complete with
  | none => rw [takeCell_of_none complete]
  | some ws =>
    rw [takeCell, complete]
    exact time_cellEffect (noTime ws complete) s

/-! ### The frame period -/

/-- The clock's advance leaves station time or moves it by one tick (R136). -/
theorem time_advanceClock (c : Stc) : (advanceClock c).time = c.time ∨ (advanceClock c).time = c.time + 1 := by
  unfold advanceClock
  split
  · exact .inl rfl
  · exact .inr rfl

theorem time_of_periodFrame (f : PeriodFrame s t) : t.stc.time = s.stc.time := by rw [f.stc]

/-- A frame period without a TIME cell moves station time by the clock's advance alone (R136, R138). -/
theorem time_closePeriod (noTime : ∀ ws, s.ch.complete = some ws → ∀ h r f, decodeCell ws ≠ .command (.time h r f)) :
    (closePeriod s).stc.time = s.stc.time ∨ (closePeriod s).stc.time = s.stc.time + 1 := by
  have events := (time_of_periodFrame (PeriodFrame.periodEvents (takeCell s))).trans (time_takeCell noTime)
  rw [← events]
  exact time_advanceClock _

/-! ### Rows -/

/-- What elementary actions make of the state after the start work leaves station time. -/
theorem time_of_begun (k : KeepsOnTime (startPeriod s) t) : t.stc.time = s.stc.time := by
  rw [k.clock.time, startPeriod_stc]

/-- A row leaves station time, unless it is a reset, TIME or the end of a frame period. -/
theorem time_exec {c : Instr} (noPowerOn : ∀ straps, c ≠ .powerOn straps)
    (noPinReset : ∀ straps, c ≠ .pinReset straps) (noTime : ∀ h r f, c ≠ .time h r f) (noEnd : c ≠ .framePeriod .whole) (h : exec c s = .next t) :
    t.stc.time = s.stc.time := by
  have b := KeepsOnTime.actions
  have chosen := (b.chooseCell s).clock.time
  have command : cellCommand c s = .next t → t.stc.time = s.stc.time := time_cellCommand noTime
  cases c
  case powerOn straps => exact absurd rfl (noPowerOn straps)
  case pinReset straps => exact absurd rfl (noPinReset straps)
  case framePeriod part =>
    cases part with
    | start => cases h; exact congrArg Stc.time (startPeriod_stc s)
    | whole => exact absurd rfl noEnd
  case ingressGoodFrame => cases h; exact (b.ingressFrame ..).clock.time.trans chosen
  case ingressBadFrame => cases h; exact (b.ingressFrame ..).clock.time.trans chosen
  case ingressMissingFrame => cases h; exact (b.missingFrame _).clock.time.trans chosen
  case linkLost => cases h; exact time_of_begun (b.linkLost _)
  case linkRecovered => cases h; exact time_of_begun (b.linkRecovered _)
  case egressCellPeriod => cases h; exact chosen
  case windowEnd => cases h; exact time_of_begun (b.windowEnd ..)
  case releaseHoldEnd => cases h; exact (b.releaseHoldEnd ..).clock.time
  case wakeEnd => cases h; exact time_of_begun (b.holdWake ..)
  case hangEnd => cases h; exact time_of_begun (b.holdHang ..)
  case tickEnd => cases h; rw [time_of_periodFrame (.tickEnd _), startPeriod_stc]
  case talkTimeout => cases h; exact time_of_begun (b.talkTimeout ..)
  case holdoverEntry => cases h; exact time_of_begun (b.holdoverEntry _)
  case prerollExit => cases h; exact time_of_begun (b.trans (b.leavePreroll ..) (b.settle _))
  case fragmentBoundary => cases h; exact time_of_begun (b.trans (b.boundary ..) (b.settle _))
  case fadeEnd => cases h; exact time_of_begun (b.trans (b.endFade ..) (b.settle _))
  all_goals exact command h

/-- Settles O15: every operation but a step and the clock's advance leaves station time, and the advance stands at the end of a frame period. -/
theorem timeMovesBackOnlyByAStep : Obligations.TimeMovesBackOnlyByAStep := by
  intro c s t noPowerOn noPinReset noTime noCell h
  by_cases ends : c = .framePeriod .whole
  · subst ends
    cases h
    have closed := time_closePeriod (s := startPeriod s) (by rw [startPeriod_complete]; exact noCell)
    rw [startPeriod_stc] at closed
    exact closed.imp_right fun moved => ⟨moved, rfl⟩
  · exact .inl (time_exec noPowerOn noPinReset noTime ends h)

end Sys2Proof.Machine
end

section
/-! HOLDOVER_ENTRY, CLOCK_SET and TIME: the entry to HOLDOVER, the settings, slews and steps (R141 to R146). -/

namespace Sys2Proof.Machine

variable {s : State}

/-! ### The entry to HOLDOVER (R144, R145) -/

theorem exec_holdoverEntry (begun : s.period.started = true) : exec .holdoverEntry s = .next (holdoverEntry s) := by
  show Host.Outcome.next (holdoverEntry (startPeriod s)) = _
  rw [startPeriod_of_started begun]

theorem holdoverDue_iff (c : Stc) :
    holdoverDue c = true ↔ c.status = .locked ∧ 100 * c.holdoverLimit ≤ c.holdoverCount := by simp [holdoverDue]

theorem not_holdoverDue_iff (c : Stc) :
    ¬holdoverDue c = true ↔ c.status ≠ .locked ∨ c.holdoverCount < 100 * c.holdoverLimit := by
  rw [holdoverDue_iff, not_and_or, not_le]

/-- The CLOCK_STATE of an entry to HOLDOVER, with its stamp (R145). -/
def holdoverEvent (time : Time) (phase : Nat) (c : Stc) : Event :=
  ⟨0x09, 2, 0, time, phase, [.b1 1, f4 c.holdoverCount, f4i c.slew]⟩

theorem enterHoldover_raises (room : s.ch.events.length < 32) : enterHoldover s =
    (s.setStc { s.stc with status := .holdover }).setCh
      { s.ch with events := s.ch.events ++ [holdoverEvent s.stc.time s.stc.phase s.stc] } := by
  rw [enterHoldover, raiseClockState, pushEvent_spec, State.setStc_ch, if_pos room]
  rfl

/-- The entry that is due is an action on the tick-end notice: its event bears the new T and phase 0 (R138, R144). -/
theorem holdoverEntry_due {T : Time} (due : holdoverDue s.stc = true) (tick : s.period.tick = some T)
    (room : s.ch.events.length < 32) : holdoverEntry s =
      (s.setStc { s.stc with status := .holdover }).setCh
        { s.ch with events := s.ch.events ++ [holdoverEvent T 0 s.stc] } := by
  have entered := enterHoldover_raises (s := noticed s) room
  have stamp : (noticed s).stc.time = T := by
    show s.period.tick.getD s.stc.time = T
    rw [tick]
    rfl
  rw [stamp] at entered
  rw [holdoverEntry, if_pos ⟨due, by rw [tick]; rfl⟩]
  show ((enterHoldover (noticed s)).setStc { (enterHoldover (noticed s)).stc with
    time := s.stc.time, phase := s.stc.phase }).setPeriod { (enterHoldover (noticed s)).period with read := s.period.read } = _
  rw [entered]
  rfl

theorem holdoverEntry_not_due (h : ¬holdoverDue s.stc = true ∨ s.period.tick = none) : holdoverEntry s = s := by
  refine if_neg fun ⟨due, ticked⟩ => ?_
  obtain early | unticked := h
  · exact early due
  · rw [unticked] at ticked
    cases ticked

/-! ### CLOCK_SET (R146) -/

theorem exec_clockSet (h : Header) (window : Word) (limit : Half) (s : State) :
    exec (.clockSet h window limit) s = .next (takeCommand h 0x82 (clockSet window limit) s) := rfl

/-- The clock with both settings written (R146). -/
def clockWritten (window : Word) (limit : Half) (c : Stc) : Stc :=
  { c with slewWindow := window.toNat, holdoverLimit := limit.toNat }

theorem clockSet_bad {window : Word} {limit : Half} (bad : window.toNat > 1048575 ∨ limit.toNat = 0) :
    clockSet window limit s = refuse .badarg s :=
  if_pos (bad.imp_right BitVec.eq_of_toNat_eq)

theorem clockSet_good {window : Word} {limit : Half} (small : window.toNat ≤ 1048575) (positive : limit.toNat ≠ 0)
    {t : State} (ht : t = if holdoverDue (clockWritten window limit s.stc) then
      enterHoldover (s.setStc (clockWritten window limit s.stc)) else s.setStc (clockWritten window limit s.stc)) :
    clockSet window limit s = ⟨.done, [.b4 window, .b2 limit, f4 s.stc.slewWindow, f2 s.stc.holdoverLimit,
      f1 (statusCode t.stc.status), f4 t.stc.holdoverCount], t⟩ := by
  subst ht
  refine if_neg ?_
  rintro (large | rfl)
  · omega
  · exact positive rfl

/-- CLOCK_SET that leaves the clock short of its limit writes the settings alone (R146). -/
theorem clockSet_writes {window : Word} {limit : Half} (small : window.toNat ≤ 1048575) (positive : limit.toNat ≠ 0)
    (early : ¬holdoverDue (clockWritten window limit s.stc) = true) : clockSet window limit s = ⟨.done,
      [.b4 window, .b2 limit, f4 s.stc.slewWindow, f2 s.stc.holdoverLimit, f1 (statusCode s.stc.status),
        f4 s.stc.holdoverCount], s.setStc (clockWritten window limit s.stc)⟩ :=
  clockSet_good small positive (if_neg early).symm

/-- CLOCK_SET that puts the count of a LOCKED clock at or past the limit brings the entry to HOLDOVER with it (R146). -/
theorem clockSet_enters {window : Word} {limit : Half} (small : window.toNat ≤ 1048575) (positive : limit.toNat ≠ 0)
    (due : holdoverDue (clockWritten window limit s.stc) = true) (room : s.ch.events.length < 32) :
    clockSet window limit s = ⟨.done, [.b4 window, .b2 limit, f4 s.stc.slewWindow, f2 s.stc.holdoverLimit, .b1 2,
        f4 s.stc.holdoverCount],
      (s.setStc { clockWritten window limit s.stc with status := .holdover }).setCh
        { s.ch with events := s.ch.events ++ [holdoverEvent s.stc.time s.stc.phase s.stc] }⟩ :=
  clockSet_good small positive
    ((if_pos due).trans (enterHoldover_raises (s := s.setStc (clockWritten window limit s.stc)) room)).symm

/-- Settles O37: HOLDOVER_ENTRY and CLOCK_SET by whether the entry is due, the row's entry on the notice of its tick end. -/
theorem holdoverEntryAndClockSet : Obligations.HoldoverEntryAndClockSet := by
  refine ⟨fun s T begun locked due tick room => ?_, fun s begun h => ?_, fun h window limit s ha bad => ?_,
    fun h window limit s ha small positive early => ?_, fun h window limit s ha small positive locked due room => ?_⟩
  · rw [exec_holdoverEntry begun, holdoverEntry_due ((holdoverDue_iff _).mpr ⟨locked, due⟩) tick room]
    rfl
  · rw [exec_holdoverEntry begun, holdoverEntry_not_due]
    rw [not_holdoverDue_iff, or_assoc]
    exact h
  · rw [exec_clockSet, takeCommand_refused ha (clockSet_bad bad)]
  · rw [exec_clockSet, takeCommand_done ha (clockSet_writes small positive ((not_holdoverDue_iff _).mpr early)) rfl]
    rfl
  · rw [exec_clockSet, takeCommand_done ha (clockSet_enters small positive ((holdoverDue_iff _).mpr ⟨locked, due⟩) room) rfl]
    rfl

/-! ### TIME: what it reads (R140, R141) -/

theorem exec_time (h : Header) (reference : Time) (flags : Byte) (s : State) :
    exec (.time h reference flags) s = .next (takeCommand h 0x81 (timeCommand reference flags) s) := rfl

theorem timeCommand_bad {reference : Time} {flags : Byte} (bad : flags.toNat > 1) :
    timeCommand reference flags s = refuse .badarg s := if_pos bad

section Cell

variable {reference capT : Time} {capP : Nat} (cell : s.ch.capture = some (capT, capP))
include cell

theorem captured_of_cell : captured s = (capT, capP) := by rw [captured, cell]; rfl

theorem timeDT_of_cell : timeDT reference s = (reference - capT).toInt := by
  rw [timeDT, captured_of_cell cell]
  rfl

theorem timeOffset_of_cell : timeOffset reference s = (reference - capT).toInt * 480 - capP := by
  rw [timeOffset, timeDT_of_cell cell, captured_of_cell cell]

end Cell

theorem stepReason_eq_none {reference : Time} (set : s.stc.status ≠ .unset)
    (near : (timeOffset reference s).natAbs ≤ s.stc.slewWindow) : stepReason reference false s = none := by
  rw [stepReason, if_neg set, if_neg Bool.false_ne_true, if_neg (not_lt.mpr near)]

/-- The reason of a step as R141's table gives it, by FORCE_STEP's code. -/
theorem stepReason_eq {reference : Time} {flags : Byte} (few : flags.toNat ≤ 1) :
    stepReason reference (flagBit flags 0) s = if s.stc.status = .unset then some 0 else if flags = 1 then some 1
      else if s.stc.slewWindow < (timeOffset reference s).natAbs then some 2 else none := by
  simp only [stepReason, flagBit_zero_of_le_one few, decide_eq_true_eq, gt_iff_lt]

/-- A good TIME that is applied as a slew. -/
theorem timeCommand_slew {reference : Time} {flags : Byte} (few : flags.toNat ≤ 1)
    (slews : stepReason reference (flagBit flags 0) s = none) : timeCommand reference flags s =
      ⟨.done, [.b1 0, .b1 0xFF, f4i (timeDT reference s), fTime (captured s).1, f2 (captured s).2,
        fTime (applySlew reference s).stc.time, f2 (applySlew reference s).stc.phase, f4i (applySlew reference s).stc.slew,
        f1 (statusCode s.stc.status), f1 (statusCode (applySlew reference s).stc.status)], applySlew reference s⟩ := by
  rw [timeCommand, if_neg (by omega), slews]
  rfl

/-- A good TIME that is applied as a step. -/
theorem timeCommand_step {reference : Time} {flags : Byte} {n : Nat} (few : flags.toNat ≤ 1)
    (steps : stepReason reference (flagBit flags 0) s = some n) : timeCommand reference flags s =
      ⟨.done, [.b1 1, f1 n, f4i (timeDT reference s), fTime (captured s).1, f2 (captured s).2,
        fTime (applyStep reference n s).stc.time, f2 (applyStep reference n s).stc.phase,
        f4i (applyStep reference n s).stc.slew, f1 (statusCode s.stc.status),
        f1 (statusCode (applyStep reference n s).stc.status)], applyStep reference n s⟩ := by
  rw [timeCommand, if_neg (by omega), steps]
  rfl

/-! ### TIME: CLOCK_STATE (R145) -/

/-- The CLOCK_STATE of a TIME command that has set the clock `c`, of which `old` was the clock before, where one is raised: unless it found LOCKED (R145, log 17). -/
def lockedEvents (old c : Stc) : List Event :=
  if old.status = .locked then [] else
    [⟨0x09, BitVec.ofNat 8 (statusCode c.status), 0, c.time, c.phase,
      [f1 (statusCode old.status), f4 old.holdoverCount, f4i c.slew]⟩]

theorem raiseLocked_raises (old : Stc) (room : s.ch.events.length < 32) :
    raiseLocked old s = s.setCh { s.ch with events := s.ch.events ++ lockedEvents old s.stc } := by
  unfold raiseLocked lockedEvents
  split
  · rw [List.append_nil]
    rfl
  · rw [raiseClockState, pushEvent_spec, if_pos room]
    rfl

theorem raiseLocked_act (old : Stc) (s : State) : ActFrame s (raiseLocked old s) := by
  unfold raiseLocked
  split
  · exact .refl s
  · exact .pushEvent ..

/-- A slew writes remainder, status and count, and raises CLOCK_STATE where it found HOLDOVER (R143, R145). -/
theorem applySlew_eq (reference : Time) (room : s.ch.events.length < 32) : applySlew reference s =
    (s.setStc (lockClock { s.stc with slew := timeOffset reference s })).setCh { s.ch with
      events := s.ch.events ++ lockedEvents s.stc (lockClock { s.stc with slew := timeOffset reference s }) } :=
  raiseLocked_raises (s := s.setStc (lockClock { s.stc with slew := timeOffset reference s })) s.stc room

/-! ### TIME: steps (R142) -/

theorem stepNotice_act (s : State) : ActFrame s (stepNotice s) := by
  unfold stepNotice
  split
  · exact (ActFrame.schedulerNotice s).trans (.expireAll _)
  · exact (ActFrame.expireAll s).trans (.schedulerNotice _)

/-- The clock after a step (R142, R144). -/
def steppedClock (reference : Time) (s : State) : Stc := lockClock (stepClock (timeOffset reference s) s.stc)

/-- The state after a step but for its events and its notices: the clock moved, a tick end due again, the old T and phase still read (R136, R142, log 9). -/
def stepped (reference : Time) (s : State) : State :=
  (s.setStc (steppedClock reference s)).setPeriod { s.period with
    tickTaken := false, handed := some (steppedClock reference s).time, read := some (now s) }

/-- The state that the notices of a step find: TIME_STEP and CLOCK_STATE are raised (R142, R145). -/
def stepRaised (reference : Time) (n : Nat) (s : State) : State :=
  raiseLocked s.stc (raiseTimeStep reference n s (stepState reference s))

theorem applyStep_eq (reference : Time) (n : Nat) (s : State) : applyStep reference n s =
    (stepNotice (stepRaised reference n s)).setPeriod { (stepNotice (stepRaised reference n s)).period with
      read := some (now s) } := rfl

theorem stepRaised_act (reference : Time) (n : Nat) (s : State) :
    ActFrame (stepState reference s) (stepRaised reference n s) := (ActFrame.pushEvent ..).trans (raiseLocked_act ..)

/-- After the clock is moved, a step is events and actions (R142). -/
theorem applyStep_act (reference : Time) (n : Nat) (s : State) :
    ActFrame (stepped reference s) (applyStep reference n s) := by
  have acts := (stepRaised_act reference n s).trans (stepNotice_act _)
  rw [applyStep_eq, acts.period]
  exact acts.setPeriod _

/-- The TIME_STEP of a step, which is stamped with the clock after it (R145). -/
def timeStepEvent (reference : Time) (n : Nat) (s : State) : Event :=
  ⟨0x08, BitVec.ofNat 8 n, 0, (steppedClock reference s).time, (steppedClock reference s).phase,
    [f4i (timeDT reference s), f2 (captured s).2, fTime s.stc.time, f2 s.stc.phase]⟩

/-- TIME_STEP, then CLOCK_STATE, stand before every event of the notices (R142, R145). -/
theorem applyStep_events (reference : Time) (n : Nat) (room : s.ch.events.length + 2 ≤ 32) :
    s.ch.events ++ timeStepEvent reference n s :: lockedEvents s.stc (steppedClock reference s) <+:
      (applyStep reference n s).ch.events := by
  have told : (raiseTimeStep reference n s (stepState reference s)).ch.events =
      s.ch.events ++ [timeStepEvent reference n s] :=
    events_pushEvent (s := stepState reference s) (show s.ch.events.length < 32 by omega) ..
  have moved : (raiseTimeStep reference n s (stepState reference s)).stc = steppedClock reference s :=
    (ActFrame.pushEvent ..).stc
  have raised : (stepRaised reference n s).ch.events =
      s.ch.events ++ timeStepEvent reference n s :: lockedEvents s.stc (steppedClock reference s) := by
    rw [stepRaised, raiseLocked_raises s.stc (by rw [told, List.length_append, List.length_singleton]; omega), moved,
      State.setCh_ch, told, List.append_assoc]
    rfl
  rw [← raised]
  exact (stepNotice_act _).events

/-- The events of a slew: its clock was set, so it found LOCKED or HOLDOVER (R145). -/
theorem append_lockedEvents_of_set {old c : Stc} (set : old.status ≠ .unset) (events : List Event) :
    events ++ lockedEvents old c = if old.status = .locked then events else events ++
      [⟨0x09, BitVec.ofNat 8 (statusCode c.status), 0, c.time, c.phase, [.b1 2, f4 old.holdoverCount, f4i c.slew]⟩] := by
  unfold lockedEvents
  cases found : old.status
  case unset => exact absurd found set
  case locked => exact List.append_nil events
  case holdover => rfl

/-- Settles O38: the answer by the reason of R141's table; a slew is its clock and CLOCK_STATE, a step is its clock, its two events and the notices. -/
theorem aTimeCellSlewsOrStepsTheClock : Obligations.ATimeCellSlewsOrStepsTheClock := by
  refine ⟨fun h reference flags s ha bad => ?_, ?_, ?_⟩
  · rw [exec_time, takeCommand_refused ha (timeCommand_bad bad)]
  · rintro h reference s capT capP offset ha set cell rfl near room
    have offset := timeOffset_of_cell (reference := reference) cell
    have answer := timeCommand_slew (reference := reference) (flags := 0) (s := s) (by decide)
      (stepReason_eq_none set (offset ▸ near))
    rw [applySlew_eq reference room, append_lockedEvents_of_set set, captured_of_cell cell, timeDT_of_cell cell, offset]
      at answer
    rw [exec_time, takeCommand_done ha answer rfl]
    rfl
  · rintro h reference flags s capT capP offset reason stc' ha few cell rfl table steps rfl
    rw [← timeOffset_of_cell cell] at table ⊢
    rw [← stepReason_eq few] at table
    obtain ⟨n, rfl⟩ := Option.ne_none_iff_exists'.mp steps
    have act := applyStep_act reference n s
    have answer := timeCommand_step few table.symm
    rw [act.stc, captured_of_cell cell, timeDT_of_cell cell] at answer
    refine ⟨applyStep reference n s, ?_, act, fun room => ?_⟩
    · rw [exec_time, takeCommand_done ha answer act.replies]
      rfl
    · have events := applyStep_events reference n room
      rw [timeStepEvent, captured_of_cell cell, timeDT_of_cell cell] at events
      exact events

end Sys2Proof.Machine
end

section
/-! An end that puts a trigger of a CANCELLED call into the due list (R156, R161): the laws of queue, claims, engines and triggers leave open which cause an ENDING request carries, and one that ends WITHDRAWN re-arms its trigger whatever the state of its call. -/

namespace Sys2Proof.Machine
set_option Elab.async false

/-- A CANCELLED call whose one NORMAL trigger is still FIRED, with its fire time to come (R166). -/
def cancelledCall : Call :=
  { freeCall with state := .cancelled, triggers := [⟨.normal, 6000, .fired, some 0⟩] }

/-- The request of that trigger, displaced and ENDING, to end WITHDRAWN when its engine has faded out. -/
def withdrawnRequest : Request :=
  { freeRequest with
    state := .ending, cls := .timed, origin := .call 0 0, fragments := [.pause 10], requested := zone1 0, minCoverage := 1
    level := 16384, engine := some 0, ending := .ends .withdrawn }

/-- The part with that call and its request, when the fade of engine 0 has ended and FADE_END is the next row. -/
def beforeWithdrawal : State :=
  let r := State.reset
  { r with
    zar := { r.zar with requests := tset r.zar.requests 0 withdrawnRequest, nextOrder := 1 }
    engines := tset r.engines 0 { idleEngine with state := .stopping, handle := some 0, fragment := some 0 }
    csc := { r.csc with
      plans := tset r.csc.plans 0 (some ⟨0, 0, [⟨.normal, 6000, 0, .concourse, .timed, 0, false, false, none, 0⟩]⟩)
      calls := tset r.csc.calls 0 cancelledCall }
    period := { r.period with started := true }
    pending := [.fadeEnd 0] }

/-! ### The laws hold before the step -/

theorem request_beforeWithdrawal {h : Nat} (lt : h < 96) :
    request beforeWithdrawal h = if h = 0 then withdrawnRequest else freeRequest := by
  rw [request, beforeWithdrawal, tget_tset]
  by_cases e : h = 0
  · rw [if_pos ⟨e.symm, by decide⟩, if_pos e]
  · rw [if_neg fun c => e c.1.symm, if_neg e]
    exact tget_replicate _ h lt

theorem state_beforeWithdrawal {h : Nat} (lt : h < 96) :
    (request beforeWithdrawal h).state = if h = 0 then .ending else .free := by
  rw [request_beforeWithdrawal lt]
  split <;> rfl

theorem engine_beforeWithdrawal {h : Nat} (lt : h < 96) :
    (request beforeWithdrawal h).engine = if h = 0 then some 0 else none := by
  rw [request_beforeWithdrawal lt]
  split <;> rfl

theorem granted_beforeWithdrawal {h : Nat} (lt : h < 96) : (request beforeWithdrawal h).granted = 0 := by
  rw [request_beforeWithdrawal lt]
  split <;> rfl

theorem handle_beforeWithdrawal {e : Nat} (lt : e < 6) :
    (tget beforeWithdrawal.engines e).handle = if e = 0 then some 0 else none := by
  revert e; decide +kernel

theorem claim_beforeWithdrawal {z : Nat} (lt : z < 48) : claim beforeWithdrawal z = .empty :=
  tget_replicate _ z lt

theorem call_beforeWithdrawal {slot : Nat} (lt : slot < 256) :
    tget beforeWithdrawal.csc.calls slot = if slot = 0 then cancelledCall else freeCall := by
  rw [beforeWithdrawal, tget_tset]
  by_cases e : slot = 0
  · rw [if_pos ⟨e.symm, by decide⟩, if_pos e]
  · rw [if_neg fun c => e c.1.symm, if_neg e]
    exact tget_replicate _ slot lt

/-- The one trigger of the state. -/
theorem triggerAt_beforeWithdrawal {slot i : Nat} {x : CallTrigger} (lt : slot < 256)
    (hx : triggerAt beforeWithdrawal slot i = some x) : slot = 0 ∧ i = 0 ∧ x = ⟨.normal, 6000, .fired, some 0⟩ := by
  rw [triggerAt, call_beforeWithdrawal lt] at hx
  split at hx
  · next e =>
    match i, hx with
    | 0, hx => exact ⟨e, rfl, (Option.some.inj hx).symm⟩
    | i + 1, hx => cases hx
  · cases hx

theorem waitingQueueLaw_beforeWithdrawal : WaitingQueueLaw beforeWithdrawal where
  bound := by decide
  handles := nofun
  lists h lt := by
    rw [state_beforeWithdrawal lt]
    refine ⟨nofun, fun waits => ?_⟩
    split at waits <;> cases waits
  once := .nil
  sorted := .nil
  engine h lt waits := by
    rw [state_beforeWithdrawal lt] at waits
    split at waits <;> cases waits
  outcome h lt out := by
    rw [request_beforeWithdrawal lt] at out ⊢
    split
    · rfl
    · next e => rw [if_neg e] at out; exact absurd rfl out

theorem claimsAgree_beforeWithdrawal : ClaimsAgree beforeWithdrawal where
  named z hz h hh := by
    rw [claim_beforeWithdrawal hz, granted_beforeWithdrawal hh, zmem_zero]
    exact ⟨nofun, nofun⟩
  handles z hz h held := by rw [claim_beforeWithdrawal hz] at held; cases held
  within z _ h hh held := by rw [granted_beforeWithdrawal hh, zmem_zero] at held; cases held
  usable z hz h held := by rw [claim_beforeWithdrawal hz] at held; cases held
  unheld h hh _ := granted_beforeWithdrawal hh

/-- Engine 0 and request 0 alone are bound, to each other. -/
theorem bound_beforeWithdrawal {h e : Nat} (lt : h < 96) (bound : (request beforeWithdrawal h).engine = some e) :
    h = 0 ∧ e = 0 := by
  rw [engine_beforeWithdrawal lt] at bound
  split at bound
  · next z => exact ⟨z, (Option.some.inj bound).symm⟩
  · cases bound

theorem enginesAgree_beforeWithdrawal : EnginesAgree beforeWithdrawal where
  bound e he h mine := by
    rw [handle_beforeWithdrawal he] at mine
    split at mine
    · next z =>
      obtain rfl := Option.some.inj mine
      exact ⟨by decide, by rw [z]; rfl⟩
    · cases mine
  owned h hh e bound := by
    obtain ⟨rfl, rfl⟩ := bound_beforeWithdrawal hh bound
    exact ⟨by decide, handle_beforeWithdrawal (by decide)⟩
  idle := by decide +kernel
  held h hh e bound := by
    obtain ⟨rfl, rfl⟩ := bound_beforeWithdrawal hh bound
    exact .inr (.inr rfl)
  stopping h hh e bound := by
    obtain ⟨rfl, rfl⟩ := bound_beforeWithdrawal hh bound
    exact ⟨fun _ => rfl, fun _ => rfl⟩
  ending h hh ends := by
    rw [state_beforeWithdrawal hh] at ends
    split at ends
    · next z => subst z; exact ⟨nofun, nofun⟩
    · cases ends
  source h hh held := by
    rw [state_beforeWithdrawal hh] at held
    split at held <;> obtain c | c := held <;> cases c
  lane h hh _ := by
    rw [request_beforeWithdrawal hh]
    split <;> rfl

theorem triggersAgree_beforeWithdrawal : TriggersAgree beforeWithdrawal where
  fired slot lt i x hx _ := by
    obtain ⟨rfl, rfl, rfl⟩ := triggerAt_beforeWithdrawal lt hx
    exact ⟨0, by decide, rfl, nofun, rfl⟩
  cleared slot lt i x hx other := by
    obtain ⟨-, -, rfl⟩ := triggerAt_beforeWithdrawal lt hx
    exact absurd rfl other
  owned h hh taken slot i from_ := by
    rw [request_beforeWithdrawal hh] at taken from_
    split at taken
    · next z =>
      rw [if_pos z] at from_
      cases from_
      refine ⟨by decide, ⟨.normal, 6000, .fired, some 0⟩, ?_, rfl, congrArg some z.symm⟩
      rw [triggerAt, call_beforeWithdrawal (by decide)]
      rfl
    · exact absurd rfl taken
  previous i lt h own := by
    rw [show tget beforeWithdrawal.csc.periodics i = absentPeriodic from tget_replicate _ i lt] at own
    cases own
  periodic h hh taken i from_ := by
    rw [request_beforeWithdrawal hh] at from_
    split at from_ <;> cases from_
  closed slot lt state i x hx _ := by
    obtain ⟨rfl, -, -⟩ := triggerAt_beforeWithdrawal lt hx
    rw [call_beforeWithdrawal lt] at state
    obtain c | c := state <;> cases c

/-- No call is SCHEDULED or OPEN. -/
theorem callRuns_beforeWithdrawal {slot : Nat} (lt : slot < 256) :
    callRuns (tget beforeWithdrawal.csc.calls slot) = false := by
  rw [call_beforeWithdrawal lt]
  split <;> rfl

theorem dueListLaw_beforeWithdrawal : DueListLaw beforeWithdrawal where
  lists e := by
    refine ⟨nofun, fun stands => ?_⟩
    obtain ⟨time, item⟩ := e
    cases item with
    | trigger slot i =>
      obtain ⟨lt, runs, -⟩ := stands
      rw [callRuns_beforeWithdrawal lt] at runs
      cases runs
    | periodic i =>
      obtain ⟨lt, present, -⟩ := stands
      rw [show tget beforeWithdrawal.csc.periodics _ = absentPeriodic from tget_replicate _ _ lt] at present
      cases present
  once := .nil
  plans slot lt runs := by
    rw [callRuns_beforeWithdrawal lt] at runs
    cases runs

/-! ### The step -/

theorem step_beforeWithdrawal :
    step beforeWithdrawal = .next (settle (endFade 0 (beforeWithdrawal.setPending []))) := exec_fadeEnd rfl

/-- The end of the request has put its trigger into the due list, and its call stands as it was. -/
theorem due_afterWithdrawal :
    (settle (endFade 0 (beforeWithdrawal.setPending []))).csc.due = [⟨6000, .trigger 0 0⟩] ∧
    callRuns (tget (settle (endFade 0 (beforeWithdrawal.setPending []))).csc.calls 0) = false := by decide +kernel

/-- Refutes O12: its first clause. In `beforeWithdrawal` all five laws hold, and FADE_END ends a request WITHDRAWN whose call is CANCELLED; R161 makes its trigger PENDING and places it in the due list, where R156 has triggers of SCHEDULED and OPEN calls alone. No law excludes an ending outcome of cause WITHDRAWN, which no command gives. -/
theorem not_everyStepKeepsTheScheduleLaws : ¬ Obligations.EveryStepKeepsTheScheduleLaws := by
  rintro ⟨keeps, -⟩
  obtain ⟨due, cancelled⟩ := due_afterWithdrawal
  obtain ⟨-, law⟩ := keeps beforeWithdrawal _ waitingQueueLaw_beforeWithdrawal claimsAgree_beforeWithdrawal
    enginesAgree_beforeWithdrawal triggersAgree_beforeWithdrawal dueListLaw_beforeWithdrawal step_beforeWithdrawal
  have listed : (⟨6000, .trigger 0 0⟩ : DueEntry) ∈ (settle (endFade 0 (beforeWithdrawal.setPending []))).csc.due := by
    rw [due]
    exact .head _
  obtain ⟨-, runs, -⟩ := (law.lists _).mp listed
  rw [cancelled] at runs
  cases runs

end Sys2Proof.Machine
end

section
/-! PLATFORM_SET and PLAN_SET: the tables of platforms and plans (R149, R151, R152). -/

namespace Sys2Proof.Machine
set_option Elab.async false

/-! ### PLATFORM_SET (R149) -/

theorem exec_platformSet (h : Header) (platform : Byte) (ps cs : ZoneSet) (s : State) :
    exec (.platformSet h platform ps cs) s = .next (takeCommand h 0x91 (platformSet platform ps cs) s) := rfl

theorem platformSet_badarg {platform : Byte} (ps cs : ZoneSet) (s : State) (bad : platform.toNat = 0 ∨ platform.toNat > 32) :
    platformSet platform ps cs s = refuse .badarg s := if_pos bad

theorem platformSet_writes {platform : Byte} (ps cs : ZoneSet) (s : State) (low : 1 ≤ platform.toNat)
    (high : platform.toNat ≤ 32) : platformSet platform ps cs s =
      ⟨.done, [.b1 platform, .zones ps, .zones cs, .zones (tget s.csc.platforms (platform.toNat - 1)).platformZones,
          .zones (tget s.csc.platforms (platform.toNat - 1)).concourseZones],
        s.setCsc { s.csc with platforms := tset s.csc.platforms (platform.toNat - 1) ⟨ps, cs⟩ }⟩ :=
  if_neg (by omega)

/-- The zone sets that a firing for a written platform reads (R148). -/
theorem targetZones_written {c : Call} {p : Nat} {t : State} (ps cs : ZoneSet) (s : State) (low : 1 ≤ p) (high : p ≤ 32)
    (ht : t = s.setCsc { s.csc with platforms := tset s.csc.platforms (p - 1) ⟨ps, cs⟩ }) (named : c.platform = p) :
    targetZones t c .platform = ps ∧ targetZones t c .concourse = cs ∧ targetZones t c .both = ps ||| cs := by
  have entry : platformEntry t c.platform = ⟨ps, cs⟩ := by
    rw [ht, named]
    exact tget_tset_self _ _ _ (by omega)
  have given : c.platform ≠ 0 := by omega
  exact ⟨(if_neg given).trans (congrArg (·.platformZones) entry), (if_neg given).trans (congrArg (·.concourseZones) entry),
    (if_neg given).trans (congrArg (fun p => p.platformZones ||| p.concourseZones) entry)⟩

/-- Settles O52: PLATFORM_SET refuses or writes, and a firing reads what is written. -/
theorem platformSetWritesBothSets : Obligations.PlatformSetWritesBothSets := by
  refine ⟨fun h platform ps cs s ha bad => ?_, fun h platform ps cs s old t low high ho ht => ?_⟩
  · rw [exec_platformSet, takeCommand_refused ha (platformSet_badarg ps cs s bad)]
  · subst ho ht
    have run := platformSet_writes ps cs s low high
    refine ⟨fun ha => ?_, fun broadcast begun => ?_, fun c named => ?_⟩
    · rw [exec_platformSet, takeCommand_answered ha (by rw [run]; exact ha.room), run]
    · rw [exec_platformSet, takeCommand_broadcast begun broadcast, run]
    · exact targetZones_written ps cs s low high rfl named

/-! ### The checks of PLAN_SET (R151) -/

theorem exec_planSet (h : Header) (plan count : Byte) (margin threshold : Half) (first : Byte)
    (triggers : List TriggerCell) (s : State) : exec (.planSet h plan count margin threshold first triggers) s =
      .next (takeCommand h 0x92 (planSet plan count margin threshold first triggers) s) := rfl

theorem offsetBad_iff (w : Word) : offsetBad w = true ↔ 8640000 < w.toInt.natAbs := by
  rw [offsetBad, offsetLimit, Bool.or_eq_true, decide_eq_true_iff, decide_eq_true_iff]
  omega

theorem triggerBad_iff (x : TriggerCell) : triggerBad x = true ↔
    3 < x.role.toNat ∨ 2 < x.target.toNat ∨ (x.cls.toNat ≠ 2 ∧ x.cls.toNat ≠ 3) ∨ 15 < x.priority.toNat ∨
      3 < x.flags.toNat ∨ 1 < x.deadlinePresent.toNat ∨ 63 < x.template.toNat ∨
      (x.role.toNat = 0 ∧ 8640000 < x.offset.toInt.natAbs) ∨
      (x.deadlinePresent.toNat = 1 ∧ 8640000 < x.deadlineOffset.toInt.natAbs) := by
  have two : x.cls = 2 ↔ x.cls.toNat = 2 := byte_eq_iff x.cls 2 (by decide)
  have three : x.cls = 3 ↔ x.cls.toNat = 3 := byte_eq_iff x.cls 3 (by decide)
  have normal : x.role = 0 ↔ x.role.toNat = 0 := byte_eq_iff x.role 0 (by decide)
  have present : x.deadlinePresent = 1 ↔ x.deadlinePresent.toNat = 1 := byte_eq_iff x.deadlinePresent 1 (by decide)
  simp only [triggerBad, Bool.or_eq_true, Bool.and_eq_true, decide_eq_true_iff, bne_iff_ne, beq_iff_eq, offsetBad_iff,
    ne_eq, two, three, normal, present, gt_iff_lt, or_assoc]

theorem planCellBad_iff (count first : Nat) (triggers : List TriggerCell) : planCellBad count first triggers = true ↔
    first ∉ [0, 2, 4, 6] ∨ count ≤ first ∨ ∃ x ∈ triggers.take (min 2 (count - first)), triggerBad x = true := by
  simp only [planCellBad, carriedTriggers, Bool.or_eq_true, Bool.not_eq_true', decide_eq_true_iff, List.any_eq_true,
    or_assoc, ge_iff_le, ← Bool.not_eq_true, List.contains_iff_mem]

theorem mem_calls {s : State} {c : Call} : c ∈ s.csc.calls.toList ↔ ∃ k, k < 256 ∧ tget s.csc.calls k = c := by
  rw [toList_eq_map_tget, List.mem_map]
  simp only [List.mem_range]

theorem callRuns_iff (c : Call) : callRuns c = true ↔ c.state = .scheduled ∨ c.state = .open := by
  rw [callRuns, Bool.or_eq_true, beq_iff_eq, beq_iff_eq]

theorem planInUse_iff (s : State) (plan : Nat) : planInUse s plan = true ↔ ∃ k, k < 256 ∧
    ((tget s.csc.calls k).state = .scheduled ∨ (tget s.csc.calls k).state = .open) ∧ (tget s.csc.calls k).plan = plan := by
  simp only [planInUse, List.any_eq_true, mem_calls, Bool.and_eq_true, callRuns_iff, beq_iff_eq]
  constructor
  · rintro ⟨-, ⟨k, lt, rfl⟩, runs, named⟩
    exact ⟨k, lt, runs, named⟩
  · rintro ⟨k, lt, runs, named⟩
    exact ⟨_, ⟨k, lt, rfl⟩, runs, named⟩

theorem planInUse_eq_false {s : State} {plan : Nat} (unused : ∀ k, k < 256 →
    (tget s.csc.calls k).state = .scheduled ∨ (tget s.csc.calls k).state = .open → (tget s.csc.calls k).plan ≠ plan) :
    planInUse s plan = false :=
  Bool.eq_false_iff.mpr fun used => by
    obtain ⟨k, lt, runs, named⟩ := (planInUse_iff s plan).mp used
    exact unused k lt runs named

theorem specialTwice_of {ts : List Trigger} {role : TriggerRole} (special : role ≠ .normal)
    (twice : 1 < (ts.filter fun x => x.role == role).length) : specialTwice ts = true := by
  have found : roleTwice ts role = true := decide_eq_true twice
  rw [specialTwice, Bool.or_eq_true, Bool.or_eq_true]
  cases role with
  | normal => exact absurd rfl special
  | alteration => exact .inl (.inl found)
  | delayNotice => exact .inl (.inr found)
  | cancellation => exact .inr found

theorem specialTwice_eq_false {ts : List Trigger}
    (once : ∀ role, role ≠ .normal → (ts.filter fun x => x.role == role).length ≤ 1) : specialTwice ts = false := by
  have alone (role : TriggerRole) (special : role ≠ .normal) : roleTwice ts role = false :=
    decide_eq_false (Nat.not_lt.mpr (once role special))
  rw [specialTwice, alone .alteration nofun, alone .delayNotice nofun, alone .cancellation nofun]
  rfl

/-! ### The branches of PLAN_SET (R151, R152) -/

section
variable {plan count : Byte} {margin threshold : Half} {first : Byte} {triggers : List TriggerCell} {s : State}

theorem planSet_badarg (bad : 31 < plan.toNat ∨ 8 < count.toNat ∨
    (count.toNat ≠ 0 ∧ planCellBad count.toNat first.toNat triggers = true)) :
    planSet plan count margin threshold first triggers s = refuse .badarg s := by
  unfold planSet
  dsimp only
  by_cases range : plan.toNat > 31 ∨ count.toNat > 8
  · exact if_pos range
  · rw [if_neg range]
    exact if_pos ((bad.resolve_left fun b => range (.inl b)).resolve_left fun b => range (.inr b))

/-- PLAN_SET past its range checks. -/
theorem planSet_past_checks (lt : plan.toNat ≤ 31) (few : count.toNat ≤ 8)
    (good : count.toNat = 0 ∨ planCellBad count.toNat first.toNat triggers = false) :
    planSet plan count margin threshold first triggers s =
      if planInUse s plan.toNat then refuse .state s
      else if count.toNat = 0 then
        ⟨.done, [.b1 plan, f1 2, f1? none, f1? (planLoadId s), f2 (planCalls s plan.toNat)],
          s.setCsc { s.csc with plans := tset s.csc.plans plan.toNat none, load := none }⟩
      else match planLoadFor s.csc.load plan.toNat count.toNat margin.toNat threshold.toNat first.toNat with
        | none => refuse .state s
        | some l =>
          if specialTwice (l.triggers ++ (carriedTriggers count.toNat first.toNat triggers).map triggerOf) then
            refuse .badarg s
          else if (l.triggers ++ (carriedTriggers count.toNat first.toNat triggers).map triggerOf).length < count.toNat then
            ⟨.done, [.b1 plan, f1 0, f1 (first.toNat + 2), f1? (if first.toNat = 0 then planLoadId s else none),
                f2 (planCalls s plan.toNat)],
              s.setCsc { s.csc with load := some { l with
                triggers := l.triggers ++ (carriedTriggers count.toNat first.toNat triggers).map triggerOf
                nextFirst := first.toNat + 2 } }⟩
          else
            ⟨.done, [.b1 plan, f1 1, f1? none, f1? (if first.toNat = 0 then planLoadId s else none),
                f2 (planCalls s plan.toNat)],
              s.setCsc { s.csc with
                plans := tset s.csc.plans plan.toNat (some ⟨l.closeMargin, l.threshold,
                  l.triggers ++ (carriedTriggers count.toNat first.toNat triggers).map triggerOf⟩)
                load := none }⟩ := by
  unfold planSet
  dsimp only
  exact (if_neg (by omega)).trans (if_neg fun both => both.1 (good.resolve_right (by rw [both.2]; nofun)))

/-- The load that a cell begins or continues (R151, the table). -/
theorem planLoadFor_of {before : List Trigger} {m d : Nat} {old : Option Nat}
    (fits : (first.toNat = 0 ∧ before = [] ∧ m = margin.toNat ∧ d = threshold.toNat ∧ old = s.csc.load.map (·.plan)) ∨
      (first.toNat ≠ 0 ∧ s.csc.load = some ⟨plan.toNat, count.toNat, m, d, before, first.toNat⟩ ∧
        before.length = first.toNat ∧ old = none)) :
    planLoadFor s.csc.load plan.toNat count.toNat margin.toNat threshold.toNat first.toNat =
        some ⟨plan.toNat, count.toNat, m, d, before, first.toNat⟩ ∧
      before.length = first.toNat ∧ (if first.toNat = 0 then planLoadId s else none) = old := by
  unfold planLoadFor
  obtain ⟨begins, rfl, rfl, rfl, rfl⟩ | ⟨continues, load, length, rfl⟩ := fits
  · rw [if_pos begins, if_pos begins, begins]
    exact ⟨rfl, rfl, rfl⟩
  · rw [if_neg continues, if_neg continues, load]
    exact ⟨if_neg (by simp), length, rfl⟩

theorem planLoadFor_eq_none {load : Option PlanLoad} {p n m d f : Nat} (continues : f ≠ 0)
    (other : ∀ l, load = some l → l.plan ≠ p ∨ l.triggerCount ≠ n ∨ l.nextFirst ≠ f) :
    planLoadFor load p n m d f = none := by
  unfold planLoadFor
  rw [if_neg continues]
  cases load with
  | none => rfl
  | some l => exact if_pos (other l rfl)

/-- The cells taken so far and the places of this cell make a count short of the plan's exactly while more cells follow. -/
theorem length_carried (before : List Trigger) (two : triggers.length = 2) (length : before.length = first.toNat)
    (more : first.toNat < count.toNat) :
    (before ++ (carriedTriggers count.toNat first.toNat triggers).map triggerOf).length < count.toNat ↔
      first.toNat + 2 < count.toNat := by
  rw [carriedTriggers, List.length_append, List.length_map, List.length_take, two, length]
  omega

end

/-- Settles O50: each clause is a branch of `planSet`. -/
theorem planSetLoadsAPlan : Obligations.PlanSetLoadsAPlan := by
  refine ⟨fun h plan count margin threshold first triggers s ha bad => ?_,
    fun h plan count margin threshold first triggers s k ha lt few good hk runs named => ?_,
    fun h plan margin threshold first triggers s ha lt unused => ?_,
    fun h plan count margin threshold first triggers s ha lt pos few good unused continues other => ?_,
    fun h plan count margin threshold first triggers s before m d old ts ha lt pos few good two unused fits hts => ?_⟩
  · rw [exec_planSet, takeCommand_refused ha (planSet_badarg ?_)]
    refine bad.imp_right (Or.imp_right fun ⟨pos, cell⟩ => ⟨by omega, (planCellBad_iff ..).mpr ?_⟩)
    simpa only [triggerBad_iff] using cell
  · rw [exec_planSet, takeCommand_refused ha]
    rw [planSet_past_checks lt few good]
    exact if_pos ((planInUse_iff ..).mpr ⟨k, hk, runs, named⟩)
  · have run : planSet plan 0 margin threshold first triggers s = _ :=
      planSet_past_checks lt (Nat.zero_le 8) (.inl rfl)
    rw [planInUse_eq_false unused, if_neg Bool.false_ne_true] at run
    rw [exec_planSet, takeCommand_answered ha (by rw [run]; exact ha.room), run]
    rfl
  · have load := planLoadFor_eq_none (m := margin.toNat) (d := threshold.toNat) continues other
    rw [exec_planSet, takeCommand_refused ha]
    rw [planSet_past_checks lt few (.inr good), planInUse_eq_false unused, if_neg Bool.false_ne_true, if_neg (by omega), load]
  · obtain ⟨load, length, discarded⟩ := planLoadFor_of (plan := plan) (count := count) fits
    have more : first.toNat < count.toNat := Nat.lt_of_not_le fun le => by
      rw [(planCellBad_iff ..).mpr (.inr (.inl le))] at good
      cases good
    have run := planSet_past_checks (margin := margin) (threshold := threshold) (s := s) lt few (.inr good)
    have short := length_carried before two length more
    rw [planInUse_eq_false unused, if_neg Bool.false_ne_true, if_neg (by omega), load, discarded] at run
    change ts = before ++ (carriedTriggers count.toNat first.toNat triggers).map triggerOf at hts
    dsimp only at run
    rw [← hts] at run short
    refine ⟨fun role special twice => ?_, fun once follows => ?_, fun once last => ?_⟩
    · rw [exec_planSet, takeCommand_refused ha (by rw [run]; exact if_pos (specialTwice_of special twice))]
    · rw [specialTwice_eq_false once, if_neg Bool.false_ne_true, if_pos (short.mpr follows)] at run
      rw [exec_planSet, takeCommand_answered ha (by rw [run]; exact ha.room), run]
      rfl
    · rw [specialTwice_eq_false once, if_neg Bool.false_ne_true, if_neg (fun c => by have := short.mp c; omega)] at run
      rw [exec_planSet, takeCommand_answered ha (by rw [run]; exact ha.room), run]
      rfl

end Sys2Proof.Machine
end

section
/-! The due list's operations, and the commands that place and clear calls: CALL_LOAD and CALL_CLEAR (R155, R156, R168). -/

namespace Sys2Proof.Machine
set_option Elab.async false

variable {s : State}

/-! ### The due list (R156) -/

theorem mem_dueInsert {e x : DueEntry} {l : List DueEntry} : x ∈ dueInsert e l ↔ x = e ∨ x ∈ l := by
  induction l with
  | nil => rw [dueInsert, List.mem_singleton]; simp
  | cons b rest ih =>
    rw [dueInsert]
    split
    · rw [List.mem_cons]
    · rw [List.mem_cons, ih, List.mem_cons, or_left_comm]

theorem mem_dueRemove {i : DueItem} {x : DueEntry} {l : List DueEntry} : x ∈ dueRemove i l ↔ x ∈ l ∧ x.item ≠ i := by
  rw [dueRemove, List.mem_filter, bne_iff_ne]

/-- A placing moves its item to the time given and leaves every other entry. -/
theorem mem_duePlace {i : DueItem} {t : Time} {x : DueEntry} :
    x ∈ (duePlace i t s).csc.due ↔ (x ∈ s.csc.due ∧ x.item ≠ i) ∨ x = ⟨t, i⟩ := by
  rw [duePlace, State.setCsc_csc, mem_dueInsert, mem_dueRemove, or_comm]

theorem mem_dueDrop {i : DueItem} {x : DueEntry} : x ∈ (dueDrop i s).csc.due ↔ x ∈ s.csc.due ∧ x.item ≠ i := mem_dueRemove

/-! ### The triggers of a loaded call (R155, R156) -/

/-- One more trigger of a loaded call in the due list. -/
def placeTrigger (slot : Nat) (s : State) (p : CallTrigger × Nat) : State :=
  if p.1.role = .normal then duePlace (.trigger slot p.2) p.1.fire s else s

theorem placeTrigger_spec (slot : Nat) (s : State) (p : CallTrigger × Nat) :
    placeTrigger slot s p = s.setCsc { s.csc with due := (placeTrigger slot s p).csc.due } := by
  rw [placeTrigger]
  split <;> rfl

theorem mem_placeTrigger {slot : Nat} {p : CallTrigger × Nat} {e : DueEntry} : e ∈ (placeTrigger slot s p).csc.due ↔
    (e ∈ s.csc.due ∧ (p.1.role = .normal → e.item ≠ .trigger slot p.2)) ∨
      (p.1.role = .normal ∧ e = ⟨p.1.fire, .trigger slot p.2⟩) := by
  rw [placeTrigger]
  split
  · next normal => simp only [mem_duePlace, normal, true_imp_iff, true_and]
  · next special => simp only [special, false_imp_iff, and_true, false_and, or_false]

theorem foldl_placeTrigger_spec (slot : Nat) (l : List (CallTrigger × Nat)) (s : State) :
    l.foldl (placeTrigger slot) s = s.setCsc { s.csc with due := (l.foldl (placeTrigger slot) s).csc.due } := by
  induction l generalizing s with
  | nil => rfl
  | cons p l ih => rw [List.foldl_cons, ih, placeTrigger_spec]; rfl

/-- The entries after the placing of the triggers that stand from index `n` on. -/
theorem mem_foldl_placeTrigger {slot : Nat} {e : DueEntry} (ts : List CallTrigger) (n : Nat) (s : State) :
    e ∈ ((ts.zipIdx n).foldl (placeTrigger slot) s).csc.due ↔
      (e ∈ s.csc.due ∧ ∀ (i : Nat) (x : CallTrigger), ts[i]? = some x → x.role = .normal → e.item ≠ .trigger slot (n + i)) ∨
      (∃ (i : Nat) (x : CallTrigger), ts[i]? = some x ∧ x.role = .normal ∧ e = ⟨x.fire, .trigger slot (n + i)⟩) := by
  induction ts generalizing n s with
  | nil => simp
  | cons a ts ih =>
    rw [List.zipIdx_cons, List.foldl_cons, ih, mem_placeTrigger]
    have shift (i : Nat) : n + 1 + i = n + (i + 1) := by omega
    constructor
    · rintro (⟨⟨old, head⟩ | ⟨normal, rfl⟩, tail⟩ | ⟨i, x, hx, normal, rfl⟩)
      · refine .inl ⟨old, fun i x hx normal => ?_⟩
        cases i with
        | zero => cases hx; exact head normal
        | succ i => exact shift i ▸ tail i x hx normal
      · exact .inr ⟨0, a, rfl, normal, rfl⟩
      · exact .inr ⟨i + 1, x, hx, normal, by rw [shift]⟩
    · rintro (⟨old, apart⟩ | ⟨i, x, hx, normal, rfl⟩)
      · exact .inl ⟨.inl ⟨old, apart 0 a rfl⟩, fun i x hx normal => shift i ▸ apart (i + 1) x hx normal⟩
      · cases i with
        | zero =>
          cases hx
          refine .inl ⟨.inr ⟨normal, rfl⟩, fun i x _ _ same => ?_⟩
          injection same with _ index
          omega
        | succ i => exact .inr ⟨i, x, hx, normal, by rw [shift]⟩

theorem placeTriggers_eq (slot : Nat) (ts : List CallTrigger) (s : State) :
    placeTriggers slot ts s = (ts.zipIdx 0).foldl (placeTrigger slot) s := rfl

/-! ### CALL_LOAD (R155) -/

theorem exec_callLoad (h : Header) (c : CallFields) (s : State) :
    exec (.callLoad h c) s = .next (takeCommand h 0x93 (callLoad c) s) := rfl

theorem callFieldsBad_of {c : CallFields} (bad : c.kind.toNat > 1 ∨ c.destination.toNat > 1023 ∨ c.viaCount.toNat > 4 ∨
    c.platform.toNat > 32 ∨ c.plan.toNat > 31 ∨ (∃ v ∈ c.via.take c.viaCount.toNat, v.toNat > 1023)) :
    callFieldsBad c = true := by
  simp only [callFieldsBad, Bool.or_eq_true, decide_eq_true_iff, List.any_eq_true, or_assoc]
  exact bad.imp_right (.imp_right (.imp_right fun b => (or_assoc.mpr b).symm))

theorem noneFired_iff (c : Call) : noneFired c = true ↔ ∀ x ∈ c.triggers, x.state ≠ .fired := by
  simp only [noneFired, List.all_eq_true, bne_iff_ne]

theorem anyFired_iff (c : Call) : anyFired c = true ↔ ∃ x ∈ c.triggers, x.state = .fired := by
  rw [anyFired, Bool.not_eq_true', ← Bool.not_eq_true, noneFired_iff]
  simp only [ne_eq, not_forall, not_not, exists_prop]

theorem slotBusy_iff (c : Call) : slotBusy c = true ↔ c.state = .scheduled ∨ c.state = .open ∨
    (c.state = .cancelled ∧ ∃ x ∈ c.triggers, x.state = .fired) := by
  rw [slotBusy, Bool.or_eq_true, callRuns_iff, Bool.and_eq_true, beq_iff_eq, anyFired_iff, or_assoc]

theorem callLoad_busy {c : CallFields} {p : Plan} (good : callFieldsBad c = false)
    (plan : tget s.csc.plans c.plan.toNat = some p) (busy : slotBusy (tget s.csc.calls c.slot.toNat) = true) :
    callLoad c s = refuse .state s := by
  unfold callLoad
  rw [if_neg (by rw [good]; nofun), plan]
  exact if_pos busy

theorem callLoad_noent {c : CallFields} (good : callFieldsBad c = false) (plan : tget s.csc.plans c.plan.toNat = none) :
    callLoad c s = refuse .noent s := by
  unfold callLoad
  rw [if_neg (by rw [good]; nofun), plan]

/-- The record that an accepted CALL_LOAD writes. -/
def loadedRecord (c : CallFields) (p : Plan) : Call :=
  { loadedCall c with triggers := p.triggers.map (loadedTrigger (loadedCall c)) }

theorem callLoad_accepted {c : CallFields} {p : Plan} (good : callFieldsBad c = false)
    (plan : tget s.csc.plans c.plan.toNat = some p) (idle : slotBusy (tget s.csc.calls c.slot.toNat) = false) :
    callLoad c s =
      ⟨.done, [.b1 c.slot, f1 (callCode (tget s.csc.calls c.slot.toNat).state), f4i (loadedCall c).delay,
          fTime (expectedTime (loadedCall c)), f2 (loadedRecord c p).triggers.length] ++
          (loadedRecord c p).triggers.map (fun t => fTime t.fire),
        noteLoad c.slot.toNat (placeTriggers c.slot.toNat (loadedRecord c p).triggers
          (setCall c.slot.toNat (loadedRecord c p) s))⟩ := by
  unfold callLoad
  rw [if_neg (by rw [good]; nofun), plan]
  dsimp only
  rw [if_neg (by rw [idle]; nofun)]
  rfl

/-- Settles O53: the branches of `callLoad`, and the due list after the placings. -/
theorem callLoadSchedulesACall : Obligations.CallLoadSchedulesACall := by
  refine ⟨fun h c s ha bad => ?_, fun h c s ha good plan => ?_, fun h c s p ha good plan busy => ?_,
    fun h c s p delay ts ha good plan idle hd hts => ?_⟩
  · rw [exec_callLoad, takeCommand_refused ha]
    exact if_pos (callFieldsBad_of bad)
  · rw [exec_callLoad, takeCommand_refused ha (callLoad_noent good plan)]
  · rw [exec_callLoad, takeCommand_refused ha (callLoad_busy good plan ((slotBusy_iff _).mpr busy))]
  · have free : slotBusy (tget s.csc.calls c.slot.toNat) = false := Bool.eq_false_iff.mpr fun busy => by
      rw [slotBusy_iff] at busy
      obtain state | state | ⟨state, none⟩ := idle
      · rw [state] at busy; simp at busy
      · rw [state] at busy; simp at busy
      · obtain s1 | s1 | ⟨-, x, hx, fired⟩ := busy
        · rw [state] at s1; cases s1
        · rw [state] at s1; cases s1
        · exact none x hx fired
    have triggers : (loadedRecord c p).triggers = ts := by rw [hts, hd]; rfl
    have run := callLoad_accepted good plan free
    rw [triggers, placeTriggers_eq] at run
    have placed := foldl_placeTrigger_spec c.slot.toNat (ts.zipIdx 0) (setCall c.slot.toNat (loadedRecord c p) s)
    have calls := congrArg (fun t => t.csc.calls) placed
    have record : loadedRecord c p = ⟨.scheduled, c.number.toNat, c.kind == 1, c.destination.toNat,
        (c.via.take c.viaCount.toNat).map (·.toNat), c.scheduled, delay, c.platform.toNat, c.plan.toNat, ts, delay⟩ := by
      rw [← triggers, hd]; rfl
    refine ⟨noteLoad c.slot.toNat ((ts.zipIdx 0).foldl (placeTrigger c.slot.toNat)
      (setCall c.slot.toNat (loadedRecord c p) s)), ?_, ?_, ?_, fun k lt other => ?_, fun e => ?_⟩
    · rw [exec_callLoad, takeCommand_answered ha, run, hd]
      · rfl
      · rw [run, placed]; exact ha.room
    · rw [placed]; rfl
    · change tget ((ts.zipIdx 0).foldl (placeTrigger c.slot.toNat) (setCall c.slot.toNat (loadedRecord c p) s)).csc.calls
        c.slot.toNat = _
      rw [placed, ← record]
      exact tget_tset_self _ _ _ c.slot.isLt
    · change tget ((ts.zipIdx 0).foldl (placeTrigger c.slot.toNat) (setCall c.slot.toNat (loadedRecord c p) s)).csc.calls k = _
      rw [placed]
      exact tget_tset_of_ne _ _ (Ne.symm other)
    · have entries := mem_foldl_placeTrigger (slot := c.slot.toNat) (e := e) ts 0
        (setCall c.slot.toNat (loadedRecord c p) s)
      simp only [Nat.zero_add] at entries
      exact entries

end Sys2Proof.Machine
end

section
/-! What supersedes the triggers of a call, and the end of calls by command: CALL_CANCEL and CALL_CLEAR (R166, R168). -/

namespace Sys2Proof.Machine
set_option Elab.async false

variable {s t : State} {slot : Nat}

/-! ### Superseding (R166, R167) -/

theorem supersedeTrigger_eq_self_iff (p : CallTrigger → Bool) (x : CallTrigger) :
    supersedeTrigger p x = x ↔ ¬ (x.state = .pending ∧ p x = true) := by
  rw [supersedeTrigger]
  split
  · next both =>
    refine ⟨fun same => ?_, fun none => absurd both none⟩
    have state := congrArg CallTrigger.state same
    rw [both.1] at state
    cases state
  · next none => exact ⟨fun _ => none, fun _ => rfl⟩

/-- The due list loses the entry of one trigger that is superseded. -/
def dropSuperseded (slot : Nat) (p : CallTrigger → Bool) (c : Call) (s : State) (i : Nat) : State :=
  if supersedeTrigger p (callTrigger c i) = callTrigger c i then s else dueDrop (.trigger slot i) s

theorem supersede_eq (slot : Nat) (p : CallTrigger → Bool) (s : State) : supersede slot p s =
    setCall slot { tget s.csc.calls slot with triggers := (tget s.csc.calls slot).triggers.map (supersedeTrigger p) }
      ((List.range (tget s.csc.calls slot).triggers.length).foldl (dropSuperseded slot p (tget s.csc.calls slot)) s) := rfl

theorem dropSuperseded_spec (slot : Nat) (p : CallTrigger → Bool) (c : Call) (s : State) (i : Nat) :
    dropSuperseded slot p c s i = s.setCsc { s.csc with due := (dropSuperseded slot p c s i).csc.due } := by
  rw [dropSuperseded]
  split <;> rfl

theorem foldl_dropSuperseded_spec (slot : Nat) (p : CallTrigger → Bool) (c : Call) (l : List Nat) (s : State) :
    l.foldl (dropSuperseded slot p c) s =
      s.setCsc { s.csc with due := (l.foldl (dropSuperseded slot p c) s).csc.due } := by
  induction l generalizing s with
  | nil => rfl
  | cons i l ih => rw [List.foldl_cons, ih, dropSuperseded_spec]; rfl

theorem mem_dropSuperseded {p : CallTrigger → Bool} {c : Call} {i : Nat} {e : DueEntry} :
    e ∈ (dropSuperseded slot p c s i).csc.due ↔
      e ∈ s.csc.due ∧ (supersedeTrigger p (callTrigger c i) ≠ callTrigger c i → e.item ≠ .trigger slot i) := by
  rw [dropSuperseded]
  split
  · next same => simp only [same, ne_eq, not_true_eq_false, false_imp_iff, and_true]
  · next moves => simp only [mem_dueDrop, ne_eq, moves, not_false_eq_true, true_imp_iff]

theorem mem_foldl_dropSuperseded {p : CallTrigger → Bool} {c : Call} {e : DueEntry} (l : List Nat) (s : State) :
    e ∈ (l.foldl (dropSuperseded slot p c) s).csc.due ↔
      e ∈ s.csc.due ∧ ∀ i ∈ l, supersedeTrigger p (callTrigger c i) ≠ callTrigger c i → e.item ≠ .trigger slot i := by
  induction l generalizing s with
  | nil => simp
  | cons i l ih => rw [List.foldl_cons, ih, mem_dropSuperseded, List.forall_mem_cons, and_assoc]

/-- Superseding writes the triggers of one call and takes entries out of the due list. -/
theorem supersede_spec (slot : Nat) (p : CallTrigger → Bool) (s : State) : supersede slot p s = s.setCsc { s.csc with
    calls := tset s.csc.calls slot
      { tget s.csc.calls slot with triggers := (tget s.csc.calls slot).triggers.map (supersedeTrigger p) }
    due := (supersede slot p s).csc.due } := by
  rw [supersede_eq, foldl_dropSuperseded_spec]
  rfl

theorem supersede_call (lt : slot < 256) (p : CallTrigger → Bool) (s : State) :
    tget (supersede slot p s).csc.calls slot =
      { tget s.csc.calls slot with triggers := (tget s.csc.calls slot).triggers.map (supersedeTrigger p) } := by
  rw [supersede_spec]
  exact tget_tset_self _ _ _ lt

/-- The superseded triggers leave the due list, and nothing else does. -/
theorem mem_supersede {p : CallTrigger → Bool} {e : DueEntry} : e ∈ (supersede slot p s).csc.due ↔
    e ∈ s.csc.due ∧ ∀ (i : Nat) (x : CallTrigger), (tget s.csc.calls slot).triggers[i]? = some x → x.state = .pending →
      p x = true → e.item ≠ .trigger slot i := by
  rw [supersede_eq, setCall, State.setCsc_csc, mem_foldl_dropSuperseded]
  refine and_congr_right fun _ => ⟨fun apart i x hx pending passes => ?_, fun apart i hi moves => ?_⟩
  · obtain ⟨lt, -⟩ := List.getElem?_eq_some_iff.mp hx
    refine apart i (List.mem_range.mpr lt) ?_
    rw [callTrigger_of hx, Ne, supersedeTrigger_eq_self_iff, not_not]
    exact ⟨pending, passes⟩
  · have hx := List.getElem?_eq_getElem (List.mem_range.mp hi)
    rw [callTrigger_of hx, Ne, supersedeTrigger_eq_self_iff, not_not] at moves
    exact apart i _ hx moves.1 moves.2

/-- A trigger that either of two tests supersedes, one after the other, whatever the second reads of a SUPERSEDED one. -/
theorem supersedeTrigger_twice {p q : CallTrigger → Bool} {x : CallTrigger} (covered : p x = true ∨ q x = true) :
    supersedeTrigger q (supersedeTrigger p x) = if x.state = .pending then { x with state := .superseded } else x := by
  simp only [supersedeTrigger]
  by_cases pending : x.state = .pending
  · by_cases first : p x = true
    · simp [pending, first]
    · simp [pending, first, covered.resolve_left first]
  · simp [pending]

/-! ### CALL_STATE (R172) -/

theorem raiseCallState_events (slot : Nat) (old : CallState) (s : State) :
    (raiseCallState slot old s).ch.eventLost = true ∨ ∃ u, (raiseCallState slot old s).ch.events = s.ch.events ++
      [⟨0x0C, BitVec.ofNat 8 (callCode (tget s.csc.calls slot).state), BitVec.ofNat 16 slot, s.stc.time, s.stc.phase,
        [f1 (callCode old), f2 (tget s.csc.calls slot).number, fBool (tget s.csc.calls slot).arrival,
          fTime (expectedTime (tget s.csc.calls slot))] ++ u⟩] := by
  unfold raiseCallState
  rw [pushEvent_spec]
  dsimp only
  split
  · exact .inr ⟨_, rfl⟩
  · exact .inl rfl

theorem csc_raiseCallState (slot : Nat) (old : CallState) (s : State) : (raiseCallState slot old s).csc = s.csc := by
  unfold raiseCallState
  rw [pushEvent_spec]
  rfl

/-! ### CALL_CANCEL (R166) -/

theorem exec_callCancel (h : Header) (slot : Byte) (s : State) :
    exec (.callCancel h slot) s = .next (takeCommand h 0x95 (callCancel slot) s) := rfl

theorem callCancel_refused {slot : Byte} (idle : callRuns (tget s.csc.calls slot.toNat) = false) :
    callCancel slot s = refuse .state s := if_pos idle

/-- The state after steps 1 and 2 of R166, with the count of the cancels that took effect. -/
def cancelledRequests (slot : Nat) (s : State) : State × Nat :=
  (List.range (tget s.csc.calls slot).triggers.length).foldl (cancelTrigger slot) (supersede slot cancelSupersedes s, 0)

/-- The state after the three steps of R166, with the outcome of the CANCELLATION trigger. -/
def cancelSteps (slot : Nat) (s : State) : State × SpecialOutcome :=
  cancelSpecial slot (tget s.csc.calls slot).state (cancelledRequests slot s).1

/-- The call is CANCELLED when its steps are made, with CALL_STATE. -/
def enterCancelled (slot : Nat) (old : CallState) (s : State) : State :=
  raiseCallState slot old (setCall slot { tget s.csc.calls slot with state := .cancelled } s)

theorem callCancel_accepted {slot : Byte} (runs : callRuns (tget s.csc.calls slot.toNat) = true) : callCancel slot s =
    ⟨.done, [.b1 slot, f1 (callCode (tget s.csc.calls slot.toNat).state), f2 (supersededCount (tget s.csc.calls slot.toNat)),
        f2 (cancelledRequests slot.toNat s).2, f1 (specialCode (cancelSteps slot.toNat s).2)],
      enterCancelled slot.toNat (tget s.csc.calls slot.toNat).state (cancelSteps slot.toNat s).1⟩ := by
  unfold callCancel
  dsimp only
  rw [if_neg (by rw [runs]; nofun)]
  rfl

namespace ActFrame

/-- A fold of actions that carries a count or a note with it is an action. -/
theorem foldl_fst {α β : Type} {f : State × β → α → State × β} (hf : ∀ p x, ActFrame p.1 (f p x).1) (l : List α)
    (p : State × β) : ActFrame p.1 (l.foldl f p).1 :=
  foldl_keeps (fun q => ActFrame p.1 q.1) f (fun q x a => a.trans (hf q x)) l p (refl p.1)

theorem cancelTrigger (slot : Nat) (p : State × Nat) (i : Nat) : ActFrame p.1 (Machine.cancelTrigger slot p i).1 := by
  unfold Machine.cancelTrigger
  dsimp only
  split
  · split
    · exact (cancelRequest ..).trans (settle _)
    · exact refl _
  · exact refl _

theorem cancelSpecial (slot : Nat) (old : CallState) (s : State) : ActFrame s (Machine.cancelSpecial slot old s).1 := by
  unfold Machine.cancelSpecial
  split
  · exact fireSpecial ..
  · exact supersede ..
  · exact refl s

theorem cancelSteps (slot : Nat) (s : State) : ActFrame s (Machine.cancelSteps slot s).1 :=
  ((supersede slot cancelSupersedes s).trans (foldl_fst (cancelTrigger slot) _ (_, 0))).trans (cancelSpecial ..)

theorem enterCancelled (slot : Nat) (old : CallState) (s : State) : ActFrame s (Machine.enterCancelled slot old s) :=
  (setCall (fixed_state ..)).trans (raiseCallState ..)

end ActFrame

/-- What the frame of the actions keeps of a call record (R172 reads it). -/
theorem ActFrame.call_kept (a : ActFrame s t) (k : Nat) :
    (tget t.csc.calls k).number = (tget s.csc.calls k).number ∧ (tget t.csc.calls k).arrival = (tget s.csc.calls k).arrival ∧
      expectedTime (tget t.csc.calls k) = expectedTime (tget s.csc.calls k) := by
  have fixed := a.calls k
  simp only [Call.fixed, Prod.mk.injEq] at fixed
  obtain ⟨number, arrival, -, -, scheduled, delay, -⟩ := fixed
  exact ⟨number, arrival, by rw [expectedTime, scheduled, delay]; rfl⟩

theorem enterCancelled_state (lt : slot < 256) (old : CallState) (s : State) :
    tget (enterCancelled slot old s).csc.calls slot = { tget s.csc.calls slot with state := .cancelled } := by
  rw [enterCancelled, csc_raiseCallState]
  exact tget_tset_self _ _ _ lt

/-- The last event of a cancel is the CALL_STATE of the call, with what it had before its steps. -/
theorem enterCancelled_event (lt : slot < 256) (old : CallState) (a : ActFrame s t) :
    ∃ u, (enterCancelled slot old t).ch.eventLost = true ∨ (enterCancelled slot old t).ch.events.getLast? =
      some ⟨0x0C, 4, BitVec.ofNat 16 slot, s.stc.time, s.stc.phase,
        [f1 (callCode old), f2 (tget s.csc.calls slot).number, fBool (tget s.csc.calls slot).arrival,
          fTime (expectedTime (tget s.csc.calls slot))] ++ u⟩ := by
  obtain ⟨number, arrival, expected⟩ := a.call_kept slot
  have call : tget (setCall slot { tget t.csc.calls slot with state := .cancelled } t).csc.calls slot =
      { tget t.csc.calls slot with state := .cancelled } := tget_tset_self _ _ _ lt
  obtain lost | ⟨u, events⟩ := raiseCallState_events slot old (setCall slot { tget t.csc.calls slot with state := .cancelled } t)
  · exact ⟨[], .inl lost⟩
  · refine ⟨u, .inr ?_⟩
    rw [call] at events
    rw [enterCancelled, events, List.getLast?_concat, ← number, ← arrival, ← expected, ← a.stc]
    rfl

/-! ### A SCHEDULED call without a FIRED trigger is cancelled in silence -/

/-- No FIRED trigger: no request to cancel (R166, step 2). -/
theorem cancelTrigger_not_fired {n i : Nat} {x : CallTrigger} (hx : (tget s.csc.calls slot).triggers[i]? = some x)
    (still : x.state ≠ .fired) : cancelTrigger slot (s, n) i = (s, n) := by
  unfold cancelTrigger
  dsimp only
  rw [callTrigger_of hx]
  split
  · next fired _ => exact absurd fired still
  · rfl

theorem supersedeTrigger_not_fired {p : CallTrigger → Bool} {x : CallTrigger} (still : x.state ≠ .fired) :
    (supersedeTrigger p x).state ≠ .fired := by
  rw [supersedeTrigger]
  split
  · nofun
  · exact still

theorem cancelledRequests_none_fired (lt : slot < 256)
    (still : ∀ (i : Nat) (x : CallTrigger), (tget s.csc.calls slot).triggers[i]? = some x → x.state ≠ .fired) :
    cancelledRequests slot s = (supersede slot cancelSupersedes s, 0) := by
  refine List.foldlRecOn (motive := fun p => p = (supersede slot cancelSupersedes s, 0)) _ _ rfl fun p hp i hi => ?_
  rw [hp]
  obtain ⟨x, hx⟩ : ∃ x, (tget s.csc.calls slot).triggers[i]? = some x :=
    ⟨_, List.getElem?_eq_getElem (List.mem_range.mp hi)⟩
  refine cancelTrigger_not_fired (x := supersedeTrigger cancelSupersedes x) ?_ (supersedeTrigger_not_fired (still i x hx))
  rw [supersede_call lt, List.getElem?_map, hx]
  rfl

/-- A SCHEDULED call's CANCELLATION trigger, if it has one, is superseded like the others. -/
theorem cancelSpecial_scheduled (slot : Nat) (s : State) :
    cancelSpecial slot .scheduled s = (supersede slot (fun x => x.role == .cancellation) s, .none) ∨
      (cancelSpecial slot .scheduled s = (s, .none) ∧ ∀ x ∈ (tget s.csc.calls slot).triggers, x.role ≠ .cancellation) := by
  unfold cancelSpecial
  cases found : roleIndex (tget s.csc.calls slot) .cancellation with
  | some i => exact .inl rfl
  | none =>
    refine .inr ⟨rfl, fun x hx => ?_⟩
    have absent := List.findIdx?_eq_none_iff.mp found x hx
    simpa using absent

theorem cancelSupersedes_or (x : CallTrigger) : cancelSupersedes x = true ∨ (x.role == .cancellation) = true := by
  rw [cancelSupersedes, bne_iff_ne, beq_iff_eq]
  exact (em _).symm

/-- What a silent cancel leaves: every PENDING trigger SUPERSEDED and out of the due list, the arbiter as it was. -/
structure CancelledSilently (slot : Nat) (s t : State) : Prop where
  triggers : (tget t.csc.calls slot).triggers = (tget s.csc.calls slot).triggers.map
    (fun x => if x.state = .pending then { x with state := .superseded } else x)
  due : ∀ e, e ∈ t.csc.due ↔ e ∈ s.csc.due ∧ ∀ (i : Nat) (x : CallTrigger), (tget s.csc.calls slot).triggers[i]? = some x →
    x.state = .pending → e.item ≠ .trigger slot i
  zar : t.zar = s.zar
  engines : t.engines = s.engines

/-- The two supersedings of a SCHEDULED call: of what is no CANCELLATION trigger, then of that. -/
theorem CancelledSilently.both (lt : slot < 256) (s : State) : CancelledSilently slot s
    (supersede slot (fun x => x.role == .cancellation) (supersede slot cancelSupersedes s)) where
  triggers := by
    rw [supersede_call lt, supersede_call lt, List.map_map]
    exact List.map_congr_left fun x _ => supersedeTrigger_twice (cancelSupersedes_or x)
  due e := by
    rw [mem_supersede, mem_supersede, and_assoc, supersede_call lt]
    refine and_congr_right fun _ => ⟨fun ⟨first, second⟩ i x hx pending => ?_, fun apart => ⟨?_, ?_⟩⟩
    · by_cases now : cancelSupersedes x = true
      · exact first i x hx pending now
      · refine second i x ?_ pending ((cancelSupersedes_or x).resolve_left now)
        rw [List.getElem?_map, hx, Option.map_some, (supersedeTrigger_eq_self_iff ..).mpr fun both => now both.2]
    · exact fun i x hx pending _ => apart i x hx pending
    · intro i y hy pending _
      rw [List.getElem?_map, Option.map_eq_some_iff] at hy
      obtain ⟨x, hx, rfl⟩ := hy
      refine apart i x hx ?_
      rw [supersedeTrigger] at pending
      split at pending
      · cases pending
      · exact pending
  zar := by rw [supersede_spec, supersede_spec]; rfl
  engines := by rw [supersede_spec, supersede_spec]; rfl

/-- Without a CANCELLATION trigger the first superseding is all. -/
theorem CancelledSilently.single (lt : slot < 256) (s : State)
    (without : ∀ x ∈ (tget s.csc.calls slot).triggers, x.role ≠ .cancellation) :
    CancelledSilently slot s (supersede slot cancelSupersedes s) := by
  have all (x) (hx : x ∈ (tget s.csc.calls slot).triggers) : cancelSupersedes x = true :=
    bne_iff_ne.mpr (without x hx)
  constructor
  case triggers =>
    rw [supersede_call lt]
    exact List.map_congr_left fun x hx => by simp only [supersedeTrigger, all x hx, and_true]
  case due =>
    intro e
    rw [mem_supersede]
    exact and_congr_right fun _ => ⟨fun apart i x hx pending => apart i x hx pending (all x (List.mem_of_getElem? hx)),
      fun apart i x hx pending _ => apart i x hx pending⟩
  case zar => rw [supersede_spec]; rfl
  case engines => rw [supersede_spec]; rfl

theorem cancelSteps_silent (lt : slot < 256) (scheduled : (tget s.csc.calls slot).state = .scheduled)
    (still : ∀ (i : Nat) (x : CallTrigger), (tget s.csc.calls slot).triggers[i]? = some x → x.state ≠ .fired) :
    (cancelSteps slot s).2 = .none ∧ CancelledSilently slot s (cancelSteps slot s).1 := by
  rw [cancelSteps, scheduled, cancelledRequests_none_fired lt still]
  obtain special | ⟨special, without⟩ := cancelSpecial_scheduled slot (supersede slot cancelSupersedes s)
  · rw [special]
    exact ⟨rfl, .both lt s⟩
  · rw [special]
    refine ⟨rfl, .single lt s fun x hx => ?_⟩
    have role : (supersedeTrigger cancelSupersedes x).role = x.role := by rw [supersedeTrigger]; split <;> rfl
    rw [← role]
    refine without _ ?_
    rw [supersede_call lt]
    exact List.mem_map_of_mem hx

/-- CALL_STATE and the new state of the call leave what a silent cancel has left. -/
theorem CancelledSilently.enterCancelled (lt : slot < 256) (old : CallState) (c : CancelledSilently slot s t) :
    CancelledSilently slot s (enterCancelled slot old t) where
  triggers := by rw [enterCancelled_state lt]; exact c.triggers
  due e := by rw [Machine.enterCancelled, csc_raiseCallState]; exact c.due e
  zar := by rw [Machine.enterCancelled, Machine.raiseCallState, pushEvent_spec]; exact c.zar
  engines := by rw [Machine.enterCancelled, Machine.raiseCallState, pushEvent_spec]; exact c.engines

/-! ### CALL_CLEAR (R168) -/

theorem exec_callClear (h : Header) (slot : Byte) (s : State) :
    exec (.callClear h slot) s = .next (takeCommand h 0x96 (callClear slot) s) := rfl

theorem callClear_refused {slot : Byte} (busy : ((tget s.csc.calls slot.toNat).state ≠ .closed ∧
    (tget s.csc.calls slot.toNat).state ≠ .cancelled) ∨ anyFired (tget s.csc.calls slot.toNat) = true) :
    callClear slot s = refuse .state s := if_pos busy

theorem callClear_frees {slot : Byte} (done : (tget s.csc.calls slot.toNat).state = .closed ∨
    (tget s.csc.calls slot.toNat).state = .cancelled) (still : anyFired (tget s.csc.calls slot.toNat) = false) :
    callClear slot s = ⟨.done, [.b1 slot, f1 (callCode (tget s.csc.calls slot.toNat).state),
        f2 (tget s.csc.calls slot.toNat).number] ++
        (tget s.csc.calls slot.toNat).triggers.map (fun x => f1 (triggerCode x.state)),
      setCall slot.toNat freeCall s⟩ := by
  refine if_neg ?_
  rintro (⟨c, d⟩ | fired)
  · exact done.elim c d
  · rw [still] at fired
    cases fired

/-- Settles O58: the frame of the steps of a cancel, its last event, and the silent case. -/
theorem callCancelAndCallClear : Obligations.CallCancelAndCallClear := by
  refine ⟨fun h slot s ha sc op => ?_, fun h slot s old ha ho runs => ?_, fun h slot s c ha hc busy => ?_,
    fun h slot s c ha hc done still => ?_⟩
  · rw [exec_callCancel, takeCommand_refused ha (callCancel_refused ?_)]
    exact Bool.eq_false_iff.mpr fun runs => ((callRuns_iff _).mp runs).elim sc op
  · subst ho
    have run := callCancel_accepted ((callRuns_iff _).mpr runs)
    have steps := ActFrame.cancelSteps slot.toNat s
    have frame := steps.trans (.enterCancelled slot.toNat (tget s.csc.calls slot.toNat).state _)
    obtain ⟨u, event⟩ := enterCancelled_event slot.isLt (tget s.csc.calls slot.toNat).state steps
    refine ⟨_, (cancelledRequests slot.toNat s).2, (cancelSteps slot.toNat s).2, u, ?_, frame, by rw [enterCancelled_state slot.isLt], event, fun scheduled still => ?_⟩
    · rw [exec_callCancel, takeCommand_answered ha (by rw [run, frame.replies]; exact ha.room), run]
      rfl
    · obtain ⟨none, silent⟩ := cancelSteps_silent slot.isLt scheduled still
      have left := silent.enterCancelled slot.isLt (tget s.csc.calls slot.toNat).state
      exact ⟨by rw [cancelledRequests_none_fired slot.isLt still], none, left.triggers, left.due, left.zar, left.engines⟩
  · subst hc
    rw [exec_callClear, takeCommand_refused ha (callClear_refused (busy.imp_right (anyFired_iff _).mpr))]
  · subst hc
    have run := callClear_frees done (Bool.eq_false_iff.mpr fun fired => by
      obtain ⟨x, hx, state⟩ := (anyFired_iff _).mp fired
      exact still x hx state)
    rw [exec_callClear, takeCommand_answered ha (by rw [run]; exact ha.room), run]
    rfl

end Sys2Proof.Machine
end

section
/-! An admission of the scheduler where no zone is usable, and the periodic entries: PERIODIC_SET and their firing (R73, R169, R170). -/

namespace Sys2Proof.Machine
set_option Elab.async false

variable {s t : State}

/-! ### Admissions of the scheduler (R73) -/

/-- The request that the arbiter takes of a firing: without the OFF zones, of coverage 1, at full level. -/
def takenRequest (r : Request) (s : State) : Request :=
  { r with requested := zdiff r.requested (offZones s), minCoverage := 1, level := 16384 }

theorem pastLatest_eq_false {r : Request}
    (starts : ∀ l, r.latestStart = some l → earlier l (now s).1 = false ∧ earlier l (lawTime s) = false) :
    pastLatest s r = false :=
  Bool.eq_false_iff.mpr fun past => by
    obtain ⟨l, hl, early⟩ := (pastLatest_iff ..).mp past
    obtain ⟨reads, law⟩ := starts l hl
    rw [reads, law] at early
    exact early.elim nofun nofun

/-- Where no zone is usable, the passes of a cause that makes one pass due leave the state and the work to do as the cause found them. -/
theorem NothingUsable.ownPasses {cause : State → State} {v : State} (hv : v = s.setWork { s.work with passesDue := 0 })
    (q : NothingUsable (cause v)) (one : (cause v).work = { v.work with passesDue := v.work.passesDue + 1 }) :
    ownPasses s cause = (cause v).setWork s.work := by
  unfold Machine.ownPasses
  rw [← hv, passBound, q.passes 256 (by rw [one, hv]; exact Nat.le_of_ble_eq_true rfl)]
  change (cause v).setWork { (cause v).work with passesDue := 0 + s.work.passesDue } = _
  rw [one, hv, Nat.zero_add]
  rfl

/-- Where no zone is usable, the pass of an admission leaves the record that it has taken, and the work to do. -/
theorem NothingUsable.schedulerAdmit {r : Request} {record : Nat → State → State} {k : Nat} {v : State}
    (hv : v = s.setWork { s.work with passesDue := 0 }) (q : NothingUsable s)
    (zones : zdiff r.requested (offZones s) ≠ 0)
    (starts : ∀ l, r.latestStart = some l → earlier l (now s).1 = false ∧ earlier l (lawTime s) = false)
    (room : s.zar.queue.length < 64) (lt : k < 96) (free : (request s k).state = .free)
    (least : ∀ j, j < k → (request s j).state ≠ .free) (usable : ∀ t, NothingUsable t → NothingUsable (record k t))
    (works : ∀ t, (record k t).work = t.work) : schedulerAdmit r record s =
      ((record k (Machine.admitRecord k (takenRequest r s) v)).setWork s.work, .admitted) := by
  have cleared : NothingUsable v := hv ▸ ⟨q.lines, q.engines⟩
  have passed := NothingUsable.ownPasses (cause := fun s' => record k (Machine.admitRecord k (takenRequest r s) s')) hv
    (usable _ (cleared.admitRecord k (takenRequest r s))) (by rw [works, work_admitRecord])
  rw [schedulerAdmit_of zones (pastLatest_eq_false starts) room (freeHandle?_eq_some lt free least)]
  exact congrArg (·, Admission.admitted) passed

/-! ### PERIODIC_SET (R169) -/

theorem exec_periodicSet (h : Header) (p : PeriodicFields) (s : State) :
    exec (.periodicSet h p) s = .next (takeCommand h 0x97 (periodicSet p) s) := rfl

theorem periodicBad_iff (p : PeriodicFields) : periodicBad p = true ↔
    p.template.toNat > 63 ∨ p.flags.toNat > 7 ∨ p.priority.toNat > 15 ∨ p.interval.toNat = 0 ∨ p.zones = 0 := by
  have none : p.interval = 0 ↔ p.interval.toNat = 0 := by rw [← BitVec.toNat_inj]; rfl
  simp only [periodicBad, Bool.or_eq_true, decide_eq_true_iff, beq_iff_eq, none, or_assoc]

section
variable {p : PeriodicFields}

theorem present_iff (p : PeriodicFields) : p.present = 0 ↔ p.present.toNat = 0 := byte_eq_iff p.present 0 (by decide)

theorem periodicSet_badarg (bad : p.index.toNat > 15 ∨ p.present.toNat > 1 ∨
    (p.present.toNat = 1 ∧ periodicBad p = true)) : periodicSet p s = refuse .badarg s := by
  unfold periodicSet
  dsimp only
  by_cases range : p.index.toNat > 15 ∨ p.present.toNat > 1
  · exact if_pos range
  · obtain ⟨present, fields⟩ := (bad.resolve_left fun b => range (.inl b)).resolve_left fun b => range (.inr b)
    rw [if_neg range, if_neg (by rw [present_iff]; omega)]
    exact if_pos fields

/-- PERIODIC_SET with present 1, past its range checks. -/
theorem periodicSet_present (lt : p.index.toNat ≤ 15) (present : p.present.toNat = 1) (good : periodicBad p = false) :
    periodicSet p s = match tget s.tex.templates p.template.toNat with
      | none => refuse .noent s
      | some t =>
        if t.callField then refuse .badarg s else
        ⟨.done, periodicResult p p.firstDue (tget s.csc.periodics p.index.toNat),
          duePlace (.periodic p.index.toNat) p.firstDue
            (s.setCsc { s.csc with
              periodics := tset s.csc.periodics p.index.toNat
                (periodicEntry p (tget s.csc.periodics p.index.toNat).previous) })⟩ := by
  unfold periodicSet
  dsimp only
  exact (if_neg (by omega)).trans ((if_neg (by rw [present_iff]; omega)).trans (if_neg (by rw [good]; nofun)))

theorem periodicSet_absent (lt : p.index.toNat ≤ 15) (absent : p.present.toNat = 0) : periodicSet p s =
    ⟨.done, periodicResult p (openValue 6 s) (tget s.csc.periodics p.index.toNat),
      dueDrop (.periodic p.index.toNat) (s.setCsc { s.csc with
        periodics := tset s.csc.periodics p.index.toNat { tget s.csc.periodics p.index.toNat with present := false } })⟩ := by
  unfold periodicSet
  dsimp only
  rw [if_neg (by omega), if_pos ((present_iff p).mpr absent)]

end

/-! ### The next due (R170) -/

/-- A due time moved on, seen from T: how far it is behind T, less what it is moved. -/
theorem timeDiff_moved {now due : Time} {n : Nat} (low : timeDiff now due - n ≤ 2147483648)
    (high : (n : Int) - timeDiff now due ≤ 2147483647) : timeDiff (due + BitVec.ofNat 32 n) now = n - timeDiff now due := by
  have shifted : due + BitVec.ofNat 32 n - now = BitVec.ofNat 32 n - (now - due) := by
    ring
  unfold timeDiff at low high ⊢
  rw [shifted, BitVec.toInt_sub, BitVec.toInt_ofNat', Int.bmod_sub_bmod]
  exact Int.bmod_eq_of_le (by omega) (by omega)

section
variable {now due : Time} {interval : Nat}

theorem timeDiff_swap (behind : 0 ≤ timeDiff now due) : -timeDiff due now = timeDiff now due := by
  have bound : timeDiff now due < 2147483648 := BitVec.toInt_lt
  have moved := timeDiff_moved (now := now) (due := due) (n := 0) (by omega) (by omega)
  rw [show due + BitVec.ofNat 32 0 = due from add_zero due] at moved
  omega

theorem nextDueTime_of (behind : 0 ≤ timeDiff now due) : nextDueTime now due interval =
    due + BitVec.ofNat 32 (((timeDiff now due).toNat / interval + 1) * interval) := by
  rw [nextDueTime, timeDiff_swap behind]

/-- The smallest multiple of the interval past the delay is past it by one interval at most. -/
theorem multiple_past {d interval : Nat} (pos : 1 ≤ interval) :
    d / interval * interval ≤ d ∧ d < (d / interval + 1) * interval ∧ (d / interval + 1) * interval ≤ d + interval := by
  have split := Nat.div_add_mod' d interval
  have rest := Nat.mod_lt d (show 0 < interval by omega)
  rw [Nat.add_mul, Nat.one_mul]
  omega

end

/-! ### The firing of a periodic entry (R170) -/

theorem skipPeriodic_spec {i : Nat} (s : State) : skipPeriodic i s = s.setCsc { s.csc with
    periodics := tset s.csc.periodics i { tget s.csc.periodics i with
      skips := min 65535 ((tget s.csc.periodics i).skips + 1) } } := rfl

theorem firePeriodic_skips {i : Nat} (why : (tget s.csc.periodics i).previous ≠ none ∨
    tget s.tex.templates (tget s.csc.periodics i).template = none) : firePeriodic i s = skipPeriodic i s := by
  unfold firePeriodic
  dsimp only
  split
  · rfl
  · next absent =>
    have empty := why.resolve_left fun present => absent (Option.isSome_iff_ne_none.mpr present)
    rw [expand_not_loaded empty]

theorem firePeriodic_admitted {i : Nat} {y : Expanded} (free : (tget s.csc.periodics i).previous = none)
    (expands : expand s (tget s.csc.periodics i).template none none
      (some ((now s).1, 100 * (tget s.csc.periodics i).interval)) = some y)
    (admits : schedulerAdmit (periodicRequest (tget s.csc.periodics i) y i) (recordPeriodic i) s = (t, .admitted)) :
    firePeriodic i s = t := by
  unfold firePeriodic
  dsimp only
  rw [if_neg (by rw [free]; nofun), expands]
  dsimp only
  rw [admits]

theorem expand_late {template : Nat} {fire : Time} {limit : Nat} {y : Expanded}
    (expands : expand s template none none (some (fire, limit)) = some y) :
    y.latestStart = some (fire + BitVec.ofNat 32 limit) := by
  obtain ⟨t, -, p, -, rfl⟩ := expand_some expands
  exact congrArg (fun d => some (fire + d)) (BitVec.ofInt_natCast 32 limit)

/-- What an admitted firing of a periodic entry leaves: the request waits, and the entry names it (R170). -/
structure PeriodicWaiting (i k : Nat) (r : Request) (s t : State) : Prop where
  record : request t k = admitted r s
  waits : k ∈ t.zar.queue
  entry : tget t.csc.periodics i = { tget s.csc.periodics i with previous := some k }
  due : t.csc.due = s.csc.due
  events : t.ch.events = s.ch.events

theorem csc_recordPeriodic (i h : Nat) (s : State) : (recordPeriodic i h s).csc =
    { s.csc with periodics := tmod s.csc.periodics i fun p => { p with previous := some h } } := rfl

theorem zar_recordPeriodic (i h : Nat) (s : State) : (recordPeriodic i h s).zar = s.zar := rfl

theorem ch_recordPeriodic (i h : Nat) (s : State) : (recordPeriodic i h s).ch = s.ch := rfl

theorem periodicWaiting_of {i k : Nat} {w : Work} (r : Request) (lt : i < 16) (hk : k < 96) :
    PeriodicWaiting i k r s
      ((recordPeriodic i k (admitRecord k r (s.setWork w))).setWork s.work) where
  record := by
    rw [request_of_zar (State.setWork_zar ..), request_of_zar (zar_recordPeriodic ..), request_admitRecord, if_pos ⟨rfl, hk⟩]
    rfl
  waits := by
    rw [State.setWork_zar, zar_recordPeriodic, zar_admitRecord]
    exact (mem_insertHandle ..).mpr (.inl rfl)
  entry := by
    rw [State.setWork_csc, csc_recordPeriodic, csc_admitRecord, tget_tmod, if_pos ⟨rfl, lt⟩]
    rfl
  due := by rw [State.setWork_csc, csc_recordPeriodic, csc_admitRecord]; rfl
  events := by rw [State.setWork_ch, ch_recordPeriodic, ch_admitRecord]; rfl

/-- Settles O59: the branches of PERIODIC_SET, the firing of an entry, and where its next due stands. -/
theorem periodicEntriesAreSetAndFired : Obligations.PeriodicEntriesAreSetAndFired := by
  refine ⟨fun h p s ha bad => ?_, fun h p s ha lt present good none => ?_, fun h p s x ha lt present good loaded field => ?_,
    ?_, fun h p s old ha lt absent ho => ?_, ?_, fun s i p lt hp why => ?_, ?_, fun s i p next lt hp hn => ?_,
    fun s i time => rfl⟩
  · rw [exec_periodicSet, takeCommand_refused ha (periodicSet_badarg ?_)]
    exact bad.imp_right (Or.imp_right (And.imp_right (periodicBad_iff p).mpr))
  · rw [exec_periodicSet, takeCommand_refused ha]
    rw [periodicSet_present lt present good, none]
  · rw [exec_periodicSet, takeCommand_refused ha]
    rw [periodicSet_present lt present good, loaded]
    exact if_pos field
  · intro h p s x old ha lt present template flags priority interval zones loaded field ho
    subst ho
    have good : periodicBad p = false := Bool.eq_false_iff.mpr fun bad => by
      rw [periodicBad_iff] at bad
      obtain b | b | b | b | b := bad
      · omega
      · omega
      · omega
      · exact interval b
      · exact zones b
    have run := periodicSet_present (s := s) lt present good
    rw [loaded] at run
    dsimp only at run
    rw [field, if_neg Bool.false_ne_true] at run
    refine ⟨duePlace (.periodic p.index.toNat) p.firstDue (s.setCsc { s.csc with
      periodics := tset s.csc.periodics p.index.toNat (periodicEntry p (tget s.csc.periodics p.index.toNat).previous) }),
      ?_, rfl, tget_tset_self _ _ _ (by omega), fun k _ other => tget_tset_of_ne _ _ (Ne.symm other), fun e => mem_duePlace⟩
    rw [exec_periodicSet, takeCommand_answered ha (by rw [run]; exact ha.room), run, periodicResult,
      (byte_eq_iff p.present 1 (by decide)).mpr present]
    rfl
  · subst ho
    have run := periodicSet_absent (s := s) lt absent
    refine ⟨dueDrop (.periodic p.index.toNat) (s.setCsc { s.csc with
      periodics := tset s.csc.periodics p.index.toNat { tget s.csc.periodics p.index.toNat with present := false } }),
      openValue 6 s, ?_, rfl, fun e => mem_dueDrop⟩
    rw [exec_periodicSet, takeCommand_answered ha (by rw [run]; exact ha.room), run, periodicResult,
      (present_iff p).mpr absent]
  · intro now due interval k next pos most behind near hn hk
    obtain ⟨low, past, high⟩ := multiple_past (d := (timeDiff now due).toNat) pos
    have place := nextDueTime_of (interval := interval) behind
    generalize (timeDiff now due).toNat / interval = q at hk low past high place
    rw [← hk] at place past high
    have moved := timeDiff_moved (now := now) (due := due) (n := k * interval) (by omega) (by omega)
    rw [← place, ← hn] at moved
    refine ⟨hn.trans place, by omega, ?_, by omega, ?_⟩
    · have ahead := timeDiff_swap (now := next) (due := now) (by omega)
      exact decide_eq_true (by omega)
    · rw [show k - 1 = q by omega]
      omega
  · subst hp
    rw [firePeriodic_skips why, skipPeriodic_spec]
  · intro s i p y k r lt hp previous expands zones starts law room hk free least lines engines hr
    subst hp
    have latest := expand_late expands
    have quiet : NothingUsable s := ⟨lines, engines⟩
    have admits := quiet.schedulerAdmit (r := periodicRequest (tget s.csc.periodics i) y i)
      (record := recordPeriodic i) rfl zones
      (fun l hl => by obtain rfl := Option.some.inj (latest.symm.trans hl); exact ⟨starts, law⟩)
      room hk free least (fun t q => ⟨q.lines, q.engines⟩) fun t => rfl
    have left := periodicWaiting_of (s := s) (w := { s.work with passesDue := 0 }) (takenRequest (periodicRequest (tget s.csc.periodics i) y i) s) lt hk
    refine ⟨_, rfl, .firePeriodic i s, ?_⟩
    rw [firePeriodic_admitted previous expands admits]
    exact ⟨by rw [left.record, hr]; rfl, by rw [hr]; exact latest, left.waits, left.entry, left.due, left.events⟩
  · subst hp hn
    exact ⟨_, rfl, rfl, fun e => mem_duePlace⟩

end Sys2Proof.Machine
end

section
/-! The scheduler's record of an end, and the close test of calls (R160, R161, R167, R170). -/

namespace Sys2Proof.Machine
set_option Elab.async false

variable {s t : State} {slot i h : Nat}

/-! ### Call records -/

theorem modTrigger_spec (slot i : Nat) (f : CallTrigger → CallTrigger) (s : State) : modTrigger slot i f s =
    s.setCsc { s.csc with
      calls := tset s.csc.calls slot
        { tget s.csc.calls slot with triggers := (tget s.csc.calls slot).triggers.modify i f } } := rfl

theorem modTrigger_call (lt : slot < 256) (f : CallTrigger → CallTrigger) (s : State) :
    tget (modTrigger slot i f s).csc.calls slot =
      { tget s.csc.calls slot with triggers := (tget s.csc.calls slot).triggers.modify i f } := tget_tset_self _ _ _ lt

theorem modTrigger_other {k : Nat} (other : k ≠ slot) (f : CallTrigger → CallTrigger) (s : State) :
    tget (modTrigger slot i f s).csc.calls k = tget s.csc.calls k := tget_tset_of_ne _ _ (Ne.symm other)

theorem due_modTrigger (slot i : Nat) (f : CallTrigger → CallTrigger) (s : State) :
    (modTrigger slot i f s).csc.due = s.csc.due := rfl

theorem planTrigger_congr {c : Call} (same : t.csc = s.csc) : planTrigger t c i = planTrigger s c i := by
  rw [planTrigger, planTrigger, callPlan, callPlan, same]

/-! ### The record of an end (R161) -/

/-- A NORMAL trigger that is withdrawn is PENDING at its fire time from the call's fields. -/
theorem rearmTrigger_normal {tr : Trigger} {x : CallTrigger} (hx : (tget s.csc.calls slot).triggers[i]? = some x)
    (normal : x.role = .normal) (plan : planTrigger s (tget s.csc.calls slot) i = some tr) : rearmTrigger slot i s =
      duePlace (.trigger slot i) (fireTime (tget s.csc.calls slot) tr)
        (modTrigger slot i (fun y => { y with state := .pending, handle := none, fire := fireTime (tget s.csc.calls slot) tr }) s) := by
  unfold rearmTrigger
  dsimp only
  rw [callTrigger_of hx, normal, plan]

/-- A special trigger that is withdrawn is armed again. -/
theorem rearmTrigger_special {x : CallTrigger} (hx : (tget s.csc.calls slot).triggers[i]? = some x)
    (special : x.role ≠ .normal) :
    rearmTrigger slot i s = modTrigger slot i (fun y => { y with state := .pending, handle := none }) s := by
  unfold rearmTrigger
  dsimp only
  rw [callTrigger_of hx]
  split
  · next normal _ => exact absurd normal special
  · rfl

/-- An end of any other cause makes the trigger MISSED (R161, R172). -/
theorem recordCallEnd_missed {cause : EndCause}
    (other : cause ≠ .complete ∧ cause ≠ .cancelled ∧ cause ≠ .withdrawn) : recordCallEnd slot i h cause s =
      raiseMissed slot i 6 (some cause) (some h)
        (modTrigger slot i (fun y => { y with state := .missed, handle := none }) s) := by
  obtain ⟨complete, cancelled, withdrawn⟩ := other
  cases cause with
  | complete => exact absurd rfl complete
  | cancelled => exact absurd rfl cancelled
  | withdrawn => exact absurd rfl withdrawn
  | released | preempted | zoneLost | expired | talkTimeout | sourceLost => rfl

theorem csc_raiseMissed (slot i reason : Nat) (cause : Option EndCause) (handle : Option Nat) (s : State) :
    (raiseMissed slot i reason cause handle s).csc = s.csc := by
  rw [raiseMissed, pushEvent_spec]
  rfl

/-- TRIGGER_MISSED for a trigger whose request has ended (R172). -/
theorem missedEvent_ended {x : CallTrigger} {cause : EndCause} (lt : slot < 256)
    (hx : (tget s.csc.calls slot).triggers[i]? = some x) (room : s.ch.events.length < 32) :
    (raiseMissed slot i 6 (some cause) (some h)
        (modTrigger slot i (fun y => { y with state := .missed, handle := none }) s)).ch.events =
      s.ch.events ++ [⟨0x0A, 6, BitVec.ofNat 16 slot, s.stc.time, s.stc.phase, [f1 i, f1 (roleCode x.role),
        f2 (tget s.csc.calls slot).number, fTime x.fire, f1 (causeCode cause), f1 h]⟩] := by
  have missed := lmod_at (fun y : CallTrigger => { y with state := .missed, handle := none }) hx
  have trigger := callTrigger_of (c := { tget s.csc.calls slot with
    triggers := (tget s.csc.calls slot).triggers.modify i fun y => { y with state := .missed, handle := none } }) missed
  unfold raiseMissed
  rw [modTrigger_call lt]
  dsimp only
  rw [trigger]
  exact events_pushEvent (s := modTrigger slot i (fun y => { y with state := .missed, handle := none }) s) room ..

theorem rearmTrigger_other {k : Nat} (other : k ≠ slot) : tget (rearmTrigger slot i s).csc.calls k = tget s.csc.calls k := by
  unfold rearmTrigger
  dsimp only
  split
  · exact modTrigger_other other ..
  · exact modTrigger_other other ..

/-- The record of an end writes no other call. -/
theorem recordCallEnd_other {k : Nat} (other : k ≠ slot) (cause : EndCause) :
    tget (recordCallEnd slot i h cause s).csc.calls k = tget s.csc.calls k := by
  by_cases missed : cause ≠ .complete ∧ cause ≠ .cancelled ∧ cause ≠ .withdrawn
  · rw [recordCallEnd_missed missed, csc_raiseMissed, modTrigger_other other]
  · cases cause with
    | complete => exact modTrigger_other other ..
    | cancelled => exact modTrigger_other other ..
    | withdrawn => exact rearmTrigger_other other
    | released | preempted | zoneLost | expired | talkTimeout | sourceLost => exact absurd ⟨nofun, nofun, nofun⟩ missed

/-! ### What an end tells the scheduler (R84) -/

/-- The state in which an end tells the scheduler: the request has left its zones, its engine and the queue, ANNOUNCE_ENDED is raised, and its banks are given back. -/
def untold (h : Nat) (cause : EndCause) (s : State) : State :=
  unuseBanks (request s h).fragments (raiseEnded h cause (request s h) (handedOn s (request s h)) (leaving h s))

theorem csc_untold (h : Nat) (cause : EndCause) (s : State) : (untold h cause s).csc = s.csc := by
  rw [untold, raiseEnded, pushEvent_spec, leaving_spec]
  rfl

theorem stc_untold (h : Nat) (cause : EndCause) (s : State) : (untold h cause s).stc = s.stc := by
  rw [untold, raiseEnded, pushEvent_spec, leaving_spec]
  rfl

theorem events_untold (h : Nat) (cause : EndCause) (room : s.ch.events.length < 32) :
    (untold h cause s).ch.events = s.ch.events ++ [endedEvent h cause s] := by
  rw [untold, leaving_spec]
  exact events_pushEvent (s := (s.setZar (leaving h s).zar).setEngines (leaving h s).engines) room ..

theorem csc_endRequest (h : Nat) (cause : EndCause) (s : State) :
    (endRequest h cause s).csc = (tellScheduler (request s h).origin h cause (untold h cause s)).csc := rfl

theorem ch_endRequest (h : Nat) (cause : EndCause) (s : State) :
    (endRequest h cause s).ch = (tellScheduler (request s h).origin h cause (untold h cause s)).ch := rfl

/-- The record of the end of a call's request, made where the end tells the scheduler. -/
theorem csc_endRequest_call (origin : (request s h).origin = .call slot i) (cause : EndCause) :
    (endRequest h cause s).csc = (recordCallEnd slot i h cause (untold h cause s)).csc := by
  rw [csc_endRequest, origin]
  rfl

theorem ch_endRequest_call (origin : (request s h).origin = .call slot i) (cause : EndCause) :
    (endRequest h cause s).ch = (recordCallEnd slot i h cause (untold h cause s)).ch := by
  rw [ch_endRequest, origin]
  rfl

/-- A withdrawn NORMAL trigger stands PENDING at its new fire time, and in the due list there. -/
theorem endRequest_withdrawn {tr : Trigger} {x : CallTrigger} (origin : (request s h).origin = .call slot i)
    (lt : slot < 256) (hx : (tget s.csc.calls slot).triggers[i]? = some x) (normal : x.role = .normal)
    (plan : planTrigger s (tget s.csc.calls slot) i = some tr) :
    tget (endRequest h .withdrawn s).csc.calls slot = { tget s.csc.calls slot with
        triggers := (tget s.csc.calls slot).triggers.modify i fun y =>
          { y with state := .pending, handle := none, fire := fireTime (tget s.csc.calls slot) tr } } ∧
      ∀ e, e ∈ (endRequest h .withdrawn s).csc.due ↔ (e ∈ s.csc.due ∧ e.item ≠ .trigger slot i) ∨
        e = ⟨fireTime (tget s.csc.calls slot) tr, .trigger slot i⟩ := by
  have csc := csc_untold h .withdrawn s
  have call : tget (untold h .withdrawn s).csc.calls slot = tget s.csc.calls slot := by rw [csc]
  have rearms := rearmTrigger_normal (s := untold h .withdrawn s) (call.symm ▸ hx) normal
    ((planTrigger_congr csc).trans (call.symm ▸ plan))
  have told : (endRequest h .withdrawn s).csc = (rearmTrigger slot i (untold h .withdrawn s)).csc :=
    csc_endRequest_call origin _
  rw [call] at rearms
  rw [told, rearms]
  constructor
  · have record := modTrigger_call (i := i) lt (fun y =>
      { y with state := .pending, handle := none, fire := fireTime (tget s.csc.calls slot) tr }) (untold h .withdrawn s)
    rw [call] at record
    exact record
  · intro e
    rw [mem_duePlace, due_modTrigger, csc]

/-- An end that neither re-places the trigger nor leaves it armed: it writes the trigger alone. -/
theorem endRequest_writes {cause : EndCause} {f : CallTrigger → CallTrigger} (origin : (request s h).origin = .call slot i)
    (lt : slot < 256)
    (writes : (recordCallEnd slot i h cause (untold h cause s)).csc = (modTrigger slot i f (untold h cause s)).csc) :
    (endRequest h cause s).csc.due = s.csc.due ∧ tget (endRequest h cause s).csc.calls slot =
      { tget s.csc.calls slot with triggers := (tget s.csc.calls slot).triggers.modify i f } := by
  have call : tget (untold h cause s).csc.calls slot = tget s.csc.calls slot := by rw [csc_untold]
  rw [csc_endRequest_call origin, writes, modTrigger_call lt, call, due_modTrigger, csc_untold]
  exact ⟨rfl, rfl⟩

/-! ### The close test (R167) -/

theorem closeDue_of_plan {c : Call} {p : Plan} (plan : callPlan s c = some p) : closeDue s c =
    ((c.state == .scheduled || c.state == .open) && noneFired c &&
      decide (0 ≤ timeDiff (now s).1 (expectedTime c + BitVec.ofNat 32 p.closeMargin))) := by
  have margin : timeAdd (expectedTime c) p.closeMargin = expectedTime c + BitVec.ofNat 32 p.closeMargin :=
    congrArg (expectedTime c + ·) (BitVec.ofInt_natCast 32 p.closeMargin)
  rw [closeDue, plan, ← margin]

theorem closeDue_iff {c : Call} {p : Plan} (plan : callPlan s c = some p) : closeDue s c = true ↔
    (c.state = .scheduled ∨ c.state = .open) ∧ (∀ x ∈ c.triggers, x.state ≠ .fired) ∧
      0 ≤ timeDiff (now s).1 (expectedTime c + BitVec.ofNat 32 p.closeMargin) := by
  rw [closeDue_of_plan plan]
  simp only [Bool.and_eq_true, Bool.or_eq_true, beq_iff_eq, noneFired_iff, decide_eq_true_iff, and_assoc]

theorem closeCall_stands (standing : closeDue s (tget s.csc.calls slot) = false) : closeCall s slot = s := by
  unfold closeCall
  exact if_neg (by rw [standing]; nofun)

/-- A CLOSED call with what it held superseded. -/
def closedCall (c : Call) : Call :=
  { c with state := .closed, triggers := c.triggers.map fun x => if x.state = .pending then { x with state := .superseded } else x }

theorem map_supersedeTrigger_all (l : List CallTrigger) : l.map (supersedeTrigger fun _ => true) =
    l.map fun x => if x.state = .pending then { x with state := .superseded } else x :=
  List.map_congr_left fun x _ => by simp only [supersedeTrigger, and_true]

/-- The state of a close before its CALL_STATE. -/
def closing (s : State) (slot : Nat) : State :=
  setCall slot { tget (supersede slot (fun _ => true) s).csc.calls slot with state := .closed } (supersede slot (fun _ => true) s)

theorem closeCall_closes (due : closeDue s (tget s.csc.calls slot) = true) :
    closeCall s slot = raiseCallState slot (tget s.csc.calls slot).state (closing s slot) := by
  unfold closeCall
  exact if_pos due

theorem closing_call (lt : slot < 256) (s : State) :
    tget (closing s slot).csc.calls slot = closedCall (tget s.csc.calls slot) := by
  have call := supersede_call lt (fun _ => true) s
  rw [map_supersedeTrigger_all] at call
  rw [closing, setCall, State.setCsc_csc, tget_tset_self _ _ _ lt, call]
  rfl

theorem supersede_other {k : Nat} (other : k ≠ slot) (p : CallTrigger → Bool) (s : State) :
    tget (supersede slot p s).csc.calls k = tget s.csc.calls k := by
  rw [supersede_spec]
  exact tget_tset_of_ne _ _ (Ne.symm other)

/-- The close test of one call leaves every other. -/
theorem closeCall_other {k : Nat} (other : k ≠ slot) (s : State) : tget (closeCall s slot).csc.calls k = tget s.csc.calls k := by
  cases due : closeDue s (tget s.csc.calls slot)
  · rw [closeCall_stands due]
  · rw [closeCall_closes due, csc_raiseCallState]
    exact (tget_tset_of_ne _ _ (Ne.symm other)).trans (supersede_other other ..)

theorem closeCall_call (lt : slot < 256) (s : State) : tget (closeCall s slot).csc.calls slot =
    if closeDue s (tget s.csc.calls slot) then closedCall (tget s.csc.calls slot) else tget s.csc.calls slot := by
  cases due : closeDue s (tget s.csc.calls slot)
  · rw [closeCall_stands due, if_neg Bool.false_ne_true]
  · rw [closeCall_closes due, csc_raiseCallState, closing_call lt, if_pos rfl]

/-- What the close test reads stands in the frame of the actions. -/
theorem ActFrame.closeDue (a : ActFrame s t) (c : Call) : closeDue t c = closeDue s c := by
  unfold Machine.closeDue callPlan now
  rw [a.plans, a.period, a.stc]

theorem foldl_closeCall_other {k : Nat} (l : List Nat) (absent : k ∉ l) (s : State) :
    tget (l.foldl closeCall s).csc.calls k = tget s.csc.calls k :=
  List.foldlRecOn (motive := fun t => tget t.csc.calls k = tget s.csc.calls k) l closeCall rfl fun t kept j hj =>
    (closeCall_other (fun e => absent (by rw [e]; exact hj)) t).trans kept

/-- Of the tests of all calls, that of a call itself decides it. -/
theorem closeCalls_call (lt : slot < 256) (s : State) : tget (closeCalls s).csc.calls slot =
    if closeDue s (tget s.csc.calls slot) then closedCall (tget s.csc.calls slot) else tget s.csc.calls slot := by
  obtain ⟨before, after, split⟩ := List.append_of_mem (List.mem_range.mpr lt)
  have once : (before ++ slot :: after).Nodup := split ▸ List.nodup_range
  obtain ⟨-, tail, apart⟩ := List.nodup_append.mp once
  obtain ⟨absent, -⟩ := List.nodup_cons.mp tail
  have earlier : slot ∉ before := fun mem => apart slot mem slot (.head _) rfl
  rw [closeCalls, split, List.foldl_append, List.foldl_cons, foldl_closeCall_other after absent, closeCall_call lt,
    foldl_closeCall_other before earlier, (ActFrame.foldl ActFrame.closeCall before s).closeDue]

/-! ### A tick end at which nothing is due (R138, R157) -/

theorem walk_of_none_due (none : ∀ e ∈ s.csc.due, 0 < timeDiff e.time (now s).1) : walk s = s := by
  have empty : dueEntries s = [] := List.filter_eq_nil_iff.mpr fun e he => by
    have := none e he
    rw [decide_eq_true_iff]
    omega
  rw [walk, empty]
  rfl

/-- With an empty queue and no entry due, the scheduler's part of a tick end is the close test. -/
theorem csc_tickActions (runs : s.stc.status ≠ .unset) (settled : Settled s) (empty : s.zar.queue = [])
    (none : ∀ e ∈ s.csc.due, 0 < timeDiff e.time (now s).1) :
    (tickActions s).csc = (closeCalls (countHang (countTalk s))).csc := by
  have expired : expireAll s = s := by simp [expireAll, expiring, endAll, empty]
  have counted : (countHang (countTalk s)).csc = s.csc ∧ now (countHang (countTalk s)) = now s ∧
      (countHang (countTalk s)).work = s.work ∧ (countHang (countTalk s)).stc = s.stc := ⟨rfl, rfl, rfl, rfl⟩
  obtain ⟨csc, reads, work, stc⟩ := counted
  have notice : schedulerNotice (countHang (countTalk s)) = closeCalls (countHang (countTalk s)) := by
    rw [schedulerNotice, if_pos (by rw [schedulerRuns, stc, bne_iff_ne]; exact runs),
      walk_of_none_due (by rw [csc, reads]; exact none),
      settle_of_settled ⟨by rw [work]; exact settled.pass, by rw [work]; exact settled.walks⟩]
  rw [tickActions, expired, notice, countHoldover_eq, State.setStc_csc]

/-- Settles O55: the record of an end per cause, the two outcomes of a close test, and the test within a tick end. -/
theorem outcomesAndClosesOfCalls : Obligations.OutcomesAndClosesOfCalls := by
  refine ⟨?_, ?_, ?_, ?_, ?_⟩
  · intro s h cause r slot i c x t lth hr origin lt hc hx ht
    subst hr hc ht
    have call : tget (untold h cause s).csc.calls slot = tget s.csc.calls slot := by rw [csc_untold]
    have missed (other : cause = .released ∨ cause = .preempted ∨ cause = .zoneLost ∨ cause = .expired) :
        cause ≠ .complete ∧ cause ≠ .cancelled ∧ cause ≠ .withdrawn := by
      obtain rfl | rfl | rfl | rfl := other <;> exact ⟨nofun, nofun, nofun⟩
    refine ⟨by rw [work_endRequest, origin]; rfl, fun k _ other => ?_, ?_, ?_, ?_, ?_, fun other => ?_⟩
    · rw [csc_endRequest_call origin, recordCallEnd_other other, csc_untold]
    · rintro rfl
      exact endRequest_writes origin lt rfl
    · rintro rfl
      exact endRequest_writes origin lt rfl
    · rintro rfl special
      exact endRequest_writes origin lt (congrArg State.csc (rearmTrigger_special (call.symm ▸ hx) special))
    · rintro tr fire rfl normal plan hf
      subst hf
      exact endRequest_withdrawn origin lt hx normal plan
    · have record := recordCallEnd_missed (slot := slot) (i := i) (h := h) (s := untold h cause s) (missed other)
      have writes := endRequest_writes (f := fun y => { y with state := .missed, handle := none }) origin lt
        ((congrArg State.csc record).trans (csc_raiseMissed ..))
      refine ⟨writes.1, writes.2, fun room => ⟨endedEvent h cause s, ?_⟩⟩
      have ended := events_untold h cause (s := s) (by omega)
      have event := missedEvent_ended (s := untold h cause s) (h := h) (cause := cause) lt (call.symm ▸ hx)
        (by rw [ended, List.length_append, List.length_singleton]; omega)
      rw [ch_endRequest_call origin, record, event, ended, stc_untold, call, List.append_assoc]
      rfl
  · intro s h cause r i t lth hr origin lt ht
    subst hr ht
    have csc : (endRequest h cause s).csc = (recordPeriodicEnd i (untold h cause s)).csc := by
      rw [csc_endRequest, origin]; rfl
    refine ⟨by rw [work_endRequest, origin]; rfl, ?_⟩
    rw [csc, recordPeriodicEnd, State.setCsc_csc, csc_untold]
    exact ⟨by rw [tget_tmod, if_pos ⟨rfl, lt⟩], rfl, rfl⟩
  · intro s slot c p new lt hc runs still plan past hn
    subst hc
    have due := (closeDue_iff plan).mpr ⟨runs, still, past⟩
    have spec := supersede_spec slot (fun _ => true) s
    have call := closing_call lt s
    have hnew : closedCall (tget s.csc.calls slot) = new := hn ▸ rfl
    rw [hnew] at call
    have raised : raiseCallState slot (tget s.csc.calls slot).state (closing s slot) =
        (closing s slot).setCh (raiseCallState slot (tget s.csc.calls slot).state (closing s slot)).ch := by
      rw [raiseCallState, pushEvent_spec]; rfl
    refine ⟨_, rfl, by rw [closeCall_closes due, csc_raiseCallState, call], fun k _ other => closeCall_other other s,
      fun e => ?_, fun room => ?_, ?_⟩
    · rw [closeCall_closes due, csc_raiseCallState]
      refine mem_supersede.trans (and_congr_right fun _ => ?_)
      exact ⟨fun apart i x hx pending => apart i x hx pending rfl, fun apart i x hx pending _ => apart i x hx pending⟩
    · have still : (closing s slot).ch = s.ch ∧ (closing s slot).stc = s.stc := by
        rw [closing, spec]; exact ⟨rfl, rfl⟩
      rw [closeCall_closes due, raiseCallState, call,
        events_pushEvent (by rw [still.1]; exact room), still.1, still.2, ← hnew]
      rfl
    · rw [closeCall_closes due, raised, closing, spec]
      rfl
  · intro s slot c hc why
    subst hc
    refine closeCall_stands (Bool.eq_false_iff.mpr fun due => ?_)
    cases plan : callPlan s (tget s.csc.calls slot) with
    | none => rw [closeDue, plan, Bool.and_false] at due; cases due
    | some p =>
      obtain ⟨runs, still, past⟩ := (closeDue_iff plan).mp due
      obtain ⟨sc, op⟩ | ⟨x, hx, fired⟩ | none | ⟨q, hq, early⟩ := why
      · exact runs.elim sc op
      · exact still x hx fired
      · rw [none] at plan; cases plan
      · obtain rfl := Option.some.inj (hq.symm.trans plan)
        omega
  · intro s slot c p started untaken ends runs settled empty none lt hc state still plan
    subst hc
    obtain ⟨u, zones, hu, tick, -⟩ := tickEnd_spec untaken ends
    have acts := csc_tickActions (s := tickShown s) runs ⟨settled.pass, settled.walks⟩ empty none
    have test : tget (closeCalls (countHang (countTalk (tickShown s)))).csc.calls slot =
        if closeDue (countHang (countTalk (tickShown s))) (tget s.csc.calls slot)
        then closedCall (tget s.csc.calls slot) else tget s.csc.calls slot := closeCalls_call lt _
    refine ⟨_, exec_tickEnd started, ?_⟩
    rw [tick]
    change tget u.csc.calls slot = _
    have due := closeDue_iff (s := countHang (countTalk (tickShown s))) (c := tget s.csc.calls slot) (p := p) plan
    rw [hu, acts, test]
    by_cases past : 0 ≤ timeDiff (s.stc.time + 1) (expectedTime (tget s.csc.calls slot) + BitVec.ofNat 32 p.closeMargin)
    · rw [if_pos past, if_pos (due.mpr ⟨state, still, past⟩)]
      rfl
    · rw [if_neg past, if_neg fun d => past (due.mp d).2.2]

end Sys2Proof.Machine
end

section
/-! Special triggers, and what an amendment does to one trigger (R162 to R165). -/

namespace Sys2Proof.Machine
set_option Elab.async false

variable {s t : State} {slot i h : Nat}

/-! ### Special triggers (R164) -/

theorem fireSpecial_unset (unset : s.stc.status = .unset) : fireSpecial slot i s = (s, .none) := by
  unfold fireSpecial
  dsimp only
  split
  · rfl
  · exact if_pos (by rw [schedulerRuns, unset]; rfl)

section
variable {tr : Trigger} {x : CallTrigger}

/-- Outside UNSET a special trigger is skipped, missed for want of a platform, or fired at T. -/
theorem fireSpecial_runs (runs : s.stc.status ≠ .unset) (plan : planTrigger s (tget s.csc.calls slot) i = some tr)
    (hx : (tget s.csc.calls slot).triggers[i]? = some x) : fireSpecial slot i s =
      if x.state = .fired then (raiseSkipped slot i s, .skipped)
      else if needsPlatform (tget s.csc.calls slot) tr.target then (missTrigger slot i 5 s, .missed)
      else match fireTrigger slot i tr (now s).1 s with
        | (s, .admitted) => (settle s, .admitted)
        | (s, .missed) | (s, .kept) => (settle s, .missed) := by
  unfold fireSpecial
  dsimp only
  rw [plan]
  dsimp only
  rw [callTrigger_of hx]
  exact if_neg (by rw [Bool.not_eq_false, schedulerRuns, bne_iff_ne]; exact runs)

theorem raiseSkipped_spec (hx : (tget s.csc.calls slot).triggers[i]? = some x) (room : s.ch.events.length < 32) :
    raiseSkipped slot i s = s.setCh { s.ch with events := s.ch.events ++ [⟨0x0B, BitVec.ofNat 8 (roleCode x.role),
      BitVec.ofNat 16 slot, s.stc.time, s.stc.phase, [f1 i, f2 (tget s.csc.calls slot).number, f1? x.handle]⟩] } := by
  unfold raiseSkipped
  dsimp only
  rw [callTrigger_of hx, pushEvent_spec, if_pos room]

theorem needsPlatform_iff (c : Call) (target : Target) :
    needsPlatform c target = true ↔ target ≠ .concourse ∧ c.platform = 0 := by
  rw [needsPlatform, Bool.and_eq_true, bne_iff_ne, beq_iff_eq]

theorem not_needsPlatform {c : Call} {target : Target} (given : target = .concourse ∨ c.platform ≠ 0) :
    ¬ needsPlatform c target = true := by
  rw [needsPlatform_iff]
  rintro ⟨needs, none⟩
  exact given.elim needs (· none)

/-- A special trigger for which there is no platform or no wording becomes MISSED. -/
theorem fireSpecial_missed {plat : Prop} [Decidable plat] (runs : s.stc.status ≠ .unset) (lt : slot < 256)
    (plan : planTrigger s (tget s.csc.calls slot) i = some tr) (hx : (tget s.csc.calls slot).triggers[i]? = some x)
    (still : x.state ≠ .fired) (hp : plat ↔ tr.target ≠ .concourse ∧ (tget s.csc.calls slot).platform = 0)
    (why : plat ∨ tget s.tex.templates tr.template = none) (room : s.ch.events.length < 32) (settled : Settled s) :
    fireSpecial slot i s = (missTrigger slot i (if plat then 5 else 1) s, .missed) := by
  rw [fireSpecial_runs runs plan hx, if_neg still]
  by_cases here : plat
  · rw [if_pos here, if_pos ((needsPlatform_iff ..).mpr (hp.mp here))]
  · rw [if_neg here, if_neg fun needs => here (hp.mpr ((needsPlatform_iff ..).mp needs)),
      fireTrigger_empty _ (why.resolve_left here)]
    have spec := missTrigger_spec (s := s) 1 lt rfl hx room
    dsimp only
    rw [settle_of_settled]
    rw [spec]
    exact ⟨settled.pass, settled.walks⟩

/-- What the opening of a call keeps. -/
theorem openCall_keeps (lt : slot < 256) (s : State) : (openCall slot s).zar = s.zar ∧ (openCall slot s).work = s.work ∧
    (tget (openCall slot s).csc.calls slot).triggers = (tget s.csc.calls slot).triggers := by
  unfold openCall
  dsimp only
  split
  · refine ⟨?_, ?_, ?_⟩
    · rw [raiseCallState, pushEvent_spec, State.setCh_zar, setCall, State.setCsc_zar]
    · rw [raiseCallState, pushEvent_spec, State.setCh_work, setCall, State.setCsc_work]
    · rw [csc_raiseCallState, setCall, State.setCsc_csc, tget_tset_self _ _ _ lt]
  · exact ⟨rfl, rfl, rfl⟩

theorem fireSpecial_admitted {u : State} (runs : s.stc.status ≠ .unset)
    (plan : planTrigger s (tget s.csc.calls slot) i = some tr) (hx : (tget s.csc.calls slot).triggers[i]? = some x)
    (still : x.state ≠ .fired) (given : tr.target = .concourse ∨ (tget s.csc.calls slot).platform ≠ 0)
    (fires : fireTrigger slot i tr (now s).1 s = (u, .admitted)) : fireSpecial slot i s = (settle u, .admitted) := by
  rw [fireSpecial_runs runs plan hx, if_neg still, if_neg (not_needsPlatform given), fires]

/-- What the record of an admitted firing leaves, with the arbiter's record of the request (R159). -/
structure FiredRecord (slot i k : Nat) (x : CallTrigger) (r : Request) (s t : State) : Prop where
  record : request t k = admitted r s
  waits : k ∈ t.zar.queue
  fired : (tget t.csc.calls slot).triggers[i]? = some { x with state := .fired, handle := some k }
  settled : Settled t

theorem firedRecord_of {k : Nat} {w : Work} (r : Request) (settled : Settled s) (lt : slot < 256) (hk : k < 96)
    (hx : (tget s.csc.calls slot).triggers[i]? = some x) : FiredRecord slot i k x r s
      (openCall slot ((recordFired slot i k (admitRecord k r (s.setWork w))).setWork s.work)) := by
  obtain ⟨zar, work, triggers⟩ := openCall_keeps lt
    ((recordFired slot i k (admitRecord k r (s.setWork w))).setWork s.work)
  constructor
  case record =>
    rw [request_of_zar zar, request_of_zar (State.setWork_zar ..), request_of_zar (zar_recordFired ..),
      request_admitRecord, if_pos ⟨rfl, hk⟩]
    rfl
  case waits =>
    rw [zar, State.setWork_zar, zar_recordFired, zar_admitRecord]
    exact (mem_insertHandle ..).mpr (.inl rfl)
  case fired =>
    rw [triggers, State.setWork_csc, csc_recordFired, csc_admitRecord]
    dsimp only
    rw [tget_tset_self _ _ _ lt]
    exact lmod_at _ hx
  case settled =>
    rw [State.setWork_work] at work
    exact ⟨by rw [work]; exact settled.pass, by rw [work]; exact settled.walks⟩

end

/-! ### What qualifies (R165) -/

theorem alterationQualifies_iff (old : Call) (set : Bool) (platform : Nat) : alterationQualifies old set platform = true ↔
    set = true ∧ old.state = .open ∧ platform ≠ old.platform := by
  rw [alterationQualifies, Bool.and_eq_true, Bool.and_eq_true, beq_iff_eq, bne_iff_ne, and_assoc]

theorem delayQualifies_iff (s : State) (old new : Call) (set : Bool) : delayQualifies s old new set = true ↔
    set = true ∧ old.state = .open ∧ new ≠ old ∧ old.lastNotified < new.delay ∧
      ∃ p, callPlan s old = some p ∧ (p.threshold : Int) ≤ new.delay - old.lastNotified := by
  rw [delayQualifies]
  simp only [Bool.and_eq_true, beq_iff_eq, bne_iff_ne, decide_eq_true_iff, and_assoc, gt_iff_lt]
  cases callPlan s old with
  | none => simp
  | some p => simp

theorem noteDelay_eq (slot : Nat) (qualified : Bool) (o : SpecialOutcome) (delay : Int) (s : State) :
    noteDelay slot qualified o delay s = if qualified = true ∧ (o = .admitted ∨ o = .missed)
      then s.setCsc { s.csc with calls := tset s.csc.calls slot { tget s.csc.calls slot with lastNotified := delay } }
      else s := rfl

/-! ### An amendment acts on one trigger (R163) -/

section
variable {tr : Trigger} {x : CallTrigger} {w : Withdrawn}

theorem replaceTrigger_of (plan : planTrigger s (tget s.csc.calls slot) i = some tr) : replaceTrigger slot i s =
    duePlace (.trigger slot i) (fireTime (tget s.csc.calls slot) tr)
      (modTrigger slot i (fun y => { y with fire := fireTime (tget s.csc.calls slot) tr }) s) := by
  unfold replaceTrigger
  dsimp only
  rw [plan]

theorem amendTrigger_pending (hx : (tget s.csc.calls slot).triggers[i]? = some x) (pending : x.state = .pending) :
    amendTrigger slot (s, w) i = if x.role = .normal then (replaceTrigger slot i s, w) else (s, w) := by
  unfold amendTrigger
  dsimp only
  rw [callTrigger_of hx, pending]

theorem amendTrigger_fired (hx : (tget s.csc.calls slot).triggers[i]? = some x) (fired : x.state = .fired)
    (handle : x.handle = some h) : amendTrigger slot (s, w) i = if (request s h).state = .waiting then
        (settle (withdraw h s), if x.role = .normal then { w with normal := w.normal + 1 }
          else { w with special := x.role :: w.special })
      else (s, w) := by
  unfold amendTrigger
  dsimp only
  rw [callTrigger_of hx, fired, handle]

/-- A trigger that is neither PENDING nor FIRED stands. -/
theorem amendTrigger_done (hx : (tget s.csc.calls slot).triggers[i]? = some x) (pending : x.state ≠ .pending)
    (fired : x.state ≠ .fired) : amendTrigger slot (s, w) i = (s, w) := by
  unfold amendTrigger
  dsimp only
  rw [callTrigger_of hx]
  split
  · next _ state => exact absurd state pending
  · next _ state _ => exact absurd state fired
  · rfl

end

/-! ### What follows an action in UNSET, where no zone is usable -/

/-- The walks that are due are not made, and the passes find nothing to do (R75, R171). -/
theorem settleFor_unset (n : Nat) (q : NothingUsable s) (unset : s.stc.status = .unset)
    (few : s.work.walksDue + s.work.passesDue ≤ n) :
    ∃ w, settleFor n s = s.setWork w := by
  induction n generalizing s with
  | zero => exact ⟨s.work, rfl⟩
  | succ n ih =>
    unfold settleFor
    split
    · next walks =>
      have still : schedulerRuns (s.setWork { s.work with walksDue := s.work.walksDue - 1 }) = false := by
        rw [schedulerRuns, State.setWork_stc, unset]; rfl
      dsimp only
      rw [still, if_neg Bool.false_ne_true]
      exact ih (s := s.setWork { s.work with walksDue := s.work.walksDue - 1 }) ⟨q.lines, q.engines⟩ unset
        (show s.work.walksDue - 1 + s.work.passesDue ≤ n by omega)
    · split
      · rw [q.passWithTests]
        exact ih (s := s.setWork { s.work with passesDue := s.work.passesDue - 1 }) ⟨q.lines, q.engines⟩ unset
          (show s.work.walksDue + (s.work.passesDue - 1) ≤ n by omega)
      · exact ⟨s.work, rfl⟩

/-- Settles O56: the branches of `fireSpecial` and `amendTrigger`, an admission that no zone is usable for, and a withdrawal after which nothing is walked. -/
theorem specialTriggersAndWithdrawals : Obligations.SpecialTriggersAndWithdrawals := by
  refine ⟨fun s slot i unset => fireSpecial_unset unset, fun s slot i c tr x runs hc plan hx fired room => ?_,
    fun s slot i c tr x plat _ runs lt hc plan hx still hp why room settled => ?_, ?_, alterationQualifies_iff,
    delayQualifies_iff, fun s slot o delay qualified _ => noteDelay_eq slot qualified o delay s,
    fun s slot i c tr x w fire lt hc hx pending normal plan hf => ?_, ?_, fun s slot i c x w hc hx why => ?_⟩
  · subst hc
    rw [fireSpecial_runs runs plan hx, if_pos fired, raiseSkipped_spec hx room]
  · subst hc
    rw [fireSpecial_missed runs lt plan hx still hp why room settled, missTrigger_spec _ lt rfl hx room]
    by_cases here : plat
    · simp only [if_pos here]; rfl
    · simp only [if_neg here]; rfl
  · intro s slot i c tr x y k r runs lt hc plan hx still given expands zones starts room hk free least lines engines
      settled hr
    subst hc
    have quiet : NothingUsable s := ⟨lines, engines⟩
    have admits := quiet.schedulerAdmit (r := triggerRequest s slot i tr y) (record := recordFired slot i) rfl zones
      starts room hk free least (fun t q => recordFired_usable q) fun t => rfl
    have fires := fireSpecial_admitted runs plan hx still given (fireTrigger_admitted expands admits)
    have left := firedRecord_of (w := { s.work with passesDue := 0 })
      (takenRequest (triggerRequest s slot i tr y) s) settled lt hk hx
    rw [settle_of_settled left.settled] at fires
    refine ⟨_, fires, ?_, ?_, left.waits, left.fired⟩
    · have frame := ActFrame.fireSpecial slot i s
      rw [fires] at frame
      exact frame
    · rw [left.record, hr]
      rfl
  · subst hc hf
    refine ⟨_, (amendTrigger_pending hx pending).trans (if_pos normal), ?_, fun e => ?_⟩
    · rw [replaceTrigger_of plan]; rfl
    · rw [replaceTrigger_of plan, mem_duePlace, due_modTrigger]
      rfl
  · intro s slot i c tr x w fire h r lt hh hc hx fired handle hr waits origin unbound normal plan unset settled lines
      engines hf
    subst hr hc hf
    have ended : NothingUsable (endRequest h .withdrawn s) := by
      refine ⟨fun z hz => ?_, fun e he => ?_⟩
      · rw [lineOf, (ActFrame.endRequest ..).zlc]
        exact lines z hz
      · rw [engines_endRequest, unbound]
        exact engines e he
    have frame : ActFrame s (endRequest h .withdrawn s) := .endRequest ..
    have work := work_endRequest h .withdrawn s
    obtain ⟨v, follows⟩ := settleFor_unset 4096 ended (frame.stc ▸ unset) (by
      rw [work, origin, settled.pass, settled.walks]; exact Nat.le_of_ble_eq_true rfl)
    have left : settle (withdraw h s) = (endRequest h .withdrawn s).setWork v := by
      rw [withdraw, if_pos waits]
      exact follows
    obtain ⟨call, due⟩ := endRequest_withdrawn origin lt hx normal plan
    refine ⟨_, (amendTrigger_fired hx fired handle).trans ((if_pos waits).trans (by rw [if_pos normal])), ?_, ?_, ?_, ?_⟩
    · rw [left]
      exact frame.trans (.setWork ..)
    · rw [left, request_of_zar (State.setWork_zar ..), request_endRequest, if_pos ⟨rfl, hh⟩]
    · rw [left, State.setWork_csc, call]
      exact lmod_at _ hx
    · rw [left, State.setWork_csc]
      exact due
  · subst hc
    obtain done | done | done | ⟨pending, special⟩ | ⟨h, fired, handle, gone⟩ := why
    · exact amendTrigger_done hx (by rw [done]; nofun) (by rw [done]; nofun)
    · exact amendTrigger_done hx (by rw [done]; nofun) (by rw [done]; nofun)
    · exact amendTrigger_done hx (by rw [done]; nofun) (by rw [done]; nofun)
    · exact (amendTrigger_pending hx pending).trans (if_neg special)
    · exact (amendTrigger_fired hx fired handle).trans (if_neg gone)

end Sys2Proof.Machine
end

section
/-! A call without a FIRED special trigger keeps having none, whatever the arbiter and the walks do: the walks fire what the due list names, and it names NORMAL triggers (R156, R164). -/

namespace Sys2Proof.Machine
set_option Elab.async false

variable {s t : State} {slot i : Nat}

/-- What stands at an index of a call's triggers has role NORMAL. -/
def NormalAt (slot i : Nat) (s : State) : Prop := ∀ x, triggerAt s slot i = some x → x.role = .normal

/-- No special trigger of the call is FIRED, and the due list names none. -/
structure SpecialIdle (slot : Nat) (s : State) : Prop where
  unfired : ∀ i x, triggerAt s slot i = some x → x.role ≠ .normal → x.state ≠ .fired
  listed : ∀ e ∈ s.csc.due, ∀ i, e.item = .trigger slot i → NormalAt slot i s

theorem normalAt_iff_roles : NormalAt slot i s ↔
    ∀ r, ((tget s.csc.calls slot).triggers.map (·.role))[i]? = some r → r = .normal := by
  simp only [NormalAt, triggerAt, List.getElem?_map, Option.map_eq_some_iff]
  exact ⟨fun normal r ⟨x, hx, role⟩ => role ▸ normal x hx, fun normal x hx => normal _ ⟨x, hx, rfl⟩⟩

/-- The actions leave the roles of triggers. -/
theorem ActFrame.roles (a : ActFrame s t) (slot : Nat) :
    (tget t.csc.calls slot).triggers.map (·.role) = (tget s.csc.calls slot).triggers.map (·.role) := by
  have fixed := a.calls slot
  simp only [Call.fixed, Prod.mk.injEq] at fixed
  obtain ⟨-, -, -, -, -, -, -, -, -, roles⟩ := fixed
  exact roles

theorem NormalAt.kept (n : NormalAt slot i s) (a : ActFrame s t) : NormalAt slot i t := by
  rw [normalAt_iff_roles, a.roles, ← normalAt_iff_roles]
  exact n

/-- A call record reads as an unfired NORMAL trigger where it has none. -/
theorem normalAt_of_callTrigger (normal : (callTrigger (tget s.csc.calls slot) i).role = .normal) : NormalAt slot i s :=
  fun _ hx => callTrigger_of hx ▸ normal

namespace SpecialIdle

/-- What changes neither the triggers of the call nor what the due list names of it. -/
theorem of_triggers (b : SpecialIdle slot s)
    (triggers : (tget t.csc.calls slot).triggers = (tget s.csc.calls slot).triggers)
    (due : ∀ e ∈ t.csc.due, ∀ i, e.item = .trigger slot i → e ∈ s.csc.due) : SpecialIdle slot t where
  unfired i x hx := b.unfired i x (by rw [triggerAt, ← triggers]; exact hx)
  listed e he i item x hx := b.listed e (due e he i item) i item x (by rw [triggerAt, ← triggers]; exact hx)

theorem same (b : SpecialIdle slot s) (csc : t.csc = s.csc := by rfl) : SpecialIdle slot t :=
  b.of_triggers (by rw [csc]) fun e he _ _ => csc ▸ he

theorem foldl {α : Type} {f : State → α → State} (hf : ∀ t x, SpecialIdle slot t → SpecialIdle slot (f t x))
    (l : List α) (b : SpecialIdle slot s) : SpecialIdle slot (l.foldl f s) :=
  foldl_keeps (SpecialIdle slot) f (fun t x b => hf t x b) l s b

theorem foldl_fst {α β : Type} {f : State × β → α → State × β}
    (hf : ∀ p x, SpecialIdle slot p.1 → SpecialIdle slot (f p x).1) (l : List α) {p : State × β}
    (b : SpecialIdle slot p.1) : SpecialIdle slot (l.foldl f p).1 :=
  foldl_keeps (fun q => SpecialIdle slot q.1) f (fun q x b => hf q x b) l p b

theorem pushEvent (b : SpecialIdle slot s) (kind cause : Byte) (n : Nat) (d : List Field) :
    SpecialIdle slot (Machine.pushEvent kind cause n d s) := by
  rw [pushEvent_spec]
  exact b.same

/-! ### Records of triggers (R156, R159, R161) -/

theorem modTrigger (b : SpecialIdle slot s) (k i : Nat) {f : CallTrigger → CallTrigger} (role : ∀ x, (f x).role = x.role)
    (quiet : k = slot → ∀ x, triggerAt s slot i = some x → x.role ≠ .normal → x.state ≠ .fired → (f x).state ≠ .fired) :
    SpecialIdle slot (Machine.modTrigger k i f s) := by
  by_cases other : slot ≠ k
  · exact b.of_triggers (by rw [modTrigger_other other]) fun e he _ _ => he
  obtain rfl := not_not.mp other
  refine ⟨fun j x hx special => ?_, fun e he j item => (b.listed e he j item).kept (.modTrigger slot i f s role)⟩
  by_cases lt : slot < 256
  · rw [triggerAt, modTrigger_call lt, List.getElem?_modify, Option.map_eq_map, Option.map_eq_some_iff] at hx
    obtain ⟨y, hy, rfl⟩ := hx
    split at special
    · next here =>
      obtain rfl := here
      rw [role] at special
      rw [if_pos rfl]
      exact quiet rfl y hy special (b.unfired i y hy special)
    · next there =>
      rw [if_neg there]
      exact b.unfired j y hy special
  · rw [triggerAt, modTrigger_spec, State.setCsc_csc, tget_tset, if_neg fun both => lt both.2] at hx
    exact b.unfired j x hx special

/-- A record that leaves a trigger in another state than FIRED. -/
theorem unfire (b : SpecialIdle slot s) (k i : Nat) {f : CallTrigger → CallTrigger}
    (role : ∀ x, (f x).role = x.role := by intro _; rfl) (quiet : ∀ x, (f x).state ≠ .fired := by intro _; nofun) :
    SpecialIdle slot (Machine.modTrigger k i f s) := b.modTrigger k i role fun _ x _ _ _ => quiet x

theorem dueDrop (b : SpecialIdle slot s) (item : DueItem) : SpecialIdle slot (Machine.dueDrop item s) :=
  b.of_triggers rfl fun _ he _ _ => (mem_dueDrop.mp he).1

theorem duePlace (b : SpecialIdle slot s) (k i : Nat) (time : Time) (normal : NormalAt k i s) :
    SpecialIdle slot (Machine.duePlace (.trigger k i) time s) where
  unfired := b.unfired
  listed e he j item := by
    obtain ⟨old, -⟩ | rfl := mem_duePlace.mp he
    · exact b.listed e old j item
    · cases item
      exact normal

theorem duePlace_periodic (b : SpecialIdle slot s) (i : Nat) (time : Time) :
    SpecialIdle slot (Machine.duePlace (.periodic i) time s) := by
  refine b.of_triggers rfl fun e he j item => ?_
  obtain ⟨old, -⟩ | rfl := mem_duePlace.mp he
  · exact old
  · cases item

theorem raiseMissed (b : SpecialIdle slot s) (k i reason : Nat) (cause : Option EndCause) (handle : Option Nat) :
    SpecialIdle slot (Machine.raiseMissed k i reason cause handle s) := b.same (csc_raiseMissed ..)

theorem rearmTrigger (b : SpecialIdle slot s) (k i : Nat) : SpecialIdle slot (Machine.rearmTrigger k i s) := by
  unfold Machine.rearmTrigger
  dsimp only
  split
  · next normal _ =>
    exact (b.unfire k i).duePlace k i _ ((normalAt_of_callTrigger normal).kept (.modTrigger k i _ s))
  · exact b.unfire k i

theorem recordCallEnd (b : SpecialIdle slot s) (k i h : Nat) (c : EndCause) :
    SpecialIdle slot (Machine.recordCallEnd k i h c s) := by
  by_cases missed : c ≠ .complete ∧ c ≠ .cancelled ∧ c ≠ .withdrawn
  · rw [recordCallEnd_missed missed]
    exact (b.unfire k i).raiseMissed ..
  · cases c with
    | complete | cancelled => exact b.unfire k i
    | withdrawn => exact b.rearmTrigger k i
    | released | preempted | zoneLost | expired | talkTimeout | sourceLost => exact absurd ⟨nofun, nofun, nofun⟩ missed

theorem tellScheduler (b : SpecialIdle slot s) (o : Origin) (h : Nat) (c : EndCause) :
    SpecialIdle slot (Machine.tellScheduler o h c s) := by
  cases o with
  | external tag => exact b
  | call k i => exact (b.recordCallEnd k i h c).same
  | periodic i => exact b.of_triggers rfl fun _ he _ _ => he

theorem endRequest (b : SpecialIdle slot s) (h : Nat) (c : EndCause) : SpecialIdle slot (Machine.endRequest h c s) :=
  ((b.same (csc_untold h c s)).tellScheduler (request s h).origin h c).same (csc_endRequest h c s)

/-! ### Ends, joins and losses of zones (R79 to R84) -/

theorem enterEnding (b : SpecialIdle slot s) (h : Nat) (o : EndingOutcome) : SpecialIdle slot (Machine.enterEnding h o s) := by
  unfold Machine.enterEnding
  dsimp only
  split
  · exact b.same
  · exact b.same

theorem joinLive (b : SpecialIdle slot s) (h : Nat) : SpecialIdle slot (Machine.joinLive h s) := by
  have joined (r : Request) : SpecialIdle slot (setRequest h r (writeClaims (pendingLive s h) (.joined h) s)) := b.same
  unfold Machine.joinLive
  dsimp only
  split
  · exact b
  · split
    · exact (joined _).pushEvent ..
    · exact b.same

theorem joinLane (b : SpecialIdle slot s) (h : Nat) : SpecialIdle slot (Machine.joinLane h s) := by
  unfold Machine.joinLane
  dsimp only
  split
  · exact b.joinLive h
  · exact b

theorem leavePreroll (b : SpecialIdle slot s) (e : Nat) : SpecialIdle slot (Machine.leavePreroll e s) := by
  have playing (x : Engine) : SpecialIdle slot (setEngine e x s) := b.same
  unfold Machine.leavePreroll
  dsimp only
  repeat' split
  · exact b
  · exact b.endRequest ..
  · exact (playing _).joinLive _
  · exact b

theorem testEngine (b : SpecialIdle slot s) (e : Option Nat) : SpecialIdle slot (Machine.testEngine e s) := by
  cases e with
  | none => exact b
  | some e => exact b.leavePreroll e

theorem displace (b : SpecialIdle slot s) (h : Nat) (c : RemovalCause) : SpecialIdle slot (Machine.displace h c s) := by
  obtain ⟨-, o, -, e⟩ | ⟨c, e⟩ := displace_cases h c s
  · rw [e]; exact b.enterEnding h o
  · rw [e]; exact b.endRequest h c

theorem unwait (b : SpecialIdle slot s) (e : Option Nat) (zs : ZoneSet) : SpecialIdle slot (Machine.unwait e zs s) := by
  unfold Machine.unwait
  split
  · dsimp only
    split
    · exact b.same
    · exact b
  · exact b

theorem shrink (b : SpecialIdle slot s) (h : Nat) (zs : ZoneSet) (c : RemovalCause) (k : Option Nat) :
    SpecialIdle slot (Machine.shrink h zs c k s) := by
  have shrunk (r : Request) : SpecialIdle slot (setRequest h r (writeClaims zs .empty s)) := b.same
  exact ((shrunk _).unwait _ zs).pushEvent ..

theorem loseZones (b : SpecialIdle slot s) (h : Nat) (zs : ZoneSet) (c : RemovalCause) (k : Option Nat) :
    SpecialIdle slot (Machine.loseZones h zs c k s) := by
  rw [loseZones_eq]
  split
  · exact (b.shrink ..).displace ..
  · exact (b.shrink ..).testEngine _

/-! ### The arbitration pass (R75 to R78) -/

theorem takeZones (b : SpecialIdle slot s) (h : Nat) (zs : ZoneSet) : SpecialIdle slot (Machine.takeZones h zs s) :=
  foldl (fun _ k b => b.loseZones k.1 k.2 .preemption (some h)) _ b

theorem bindIdle (b : SpecialIdle slot s) (h : Nat) (zs : ZoneSet) (bind : Bool) :
    SpecialIdle slot (Machine.bindIdle h zs bind s) := by
  obtain ⟨e, -⟩ | ⟨n, -, -, e⟩ := bindIdle_cases h zs bind s
  · rw [e]; exact b
  · rw [e]; exact b.same

theorem grant (b : SpecialIdle slot s) (h : Nat) (zs : ZoneSet) (bind : Bool) :
    SpecialIdle slot (Machine.grant h zs bind s) := by
  have granted : SpecialIdle slot (granting h zs bind s) := b.same
  have claimed : SpecialIdle slot (writeClaims zs (.pendingJoin h) (Machine.takeZones h zs (granting h zs bind s))) :=
    (granted.takeZones h zs).same
  rw [grant_eq]
  exact (claimed.bindIdle h zs bind).joinLane h

theorem stopVictim (b : SpecialIdle slot s) : SpecialIdle slot (Machine.stopVictim s) := by
  unfold Machine.stopVictim
  split
  · exact b
  · split
    · exact b
    · exact (b.enterEnding ..).same

theorem walkRequest (p : State × Bool) (h : Nat) (b : SpecialIdle slot p.1) : SpecialIdle slot (Machine.walkRequest p h).1 := by
  obtain e | ⟨-, -, bind, -, -, e⟩ | e := walkRequest_cases p h
  · rw [e]; exact b
  · rw [e]; exact b.grant ..
  · rw [e]; exact b.stopVictim

theorem addWait (b : SpecialIdle slot s) (e : Option Nat) (zs : ZoneSet) : SpecialIdle slot (Machine.addWait e zs s) := by
  unfold Machine.addWait
  split
  · dsimp only
    split
    · exact b.same
    · exact b
  · exact b

theorem lateJoin (s : State) (h : Nat) (b : SpecialIdle slot s) : SpecialIdle slot (Machine.lateJoin s h) := by
  have taken (zs : ZoneSet) (r : Request) : SpecialIdle slot (setRequest h r (writeClaims zs (.pendingJoin h) s)) := b.same
  obtain e | ⟨-, e⟩ := lateJoin_cases s h
  · rw [e]; exact b
  · rw [e]; exact ((taken ..).addWait ..).joinLane h

theorem passWithTests (b : SpecialIdle slot s) : SpecialIdle slot (Machine.passWithTests s) := by
  have begun : SpecialIdle slot (s.setWork { s.work with passesDue := 0 }) := b.same
  have walked : SpecialIdle slot (lateJoinWalk (waitingWalk (s.setWork { s.work with passesDue := 0 }))) :=
    foldl lateJoin _ (foldl_fst walkRequest _ (p := (_, false)) begun)
  have passed : SpecialIdle slot (Machine.pass s) := walked.same
  exact foldl (fun _ e b => b.leavePreroll e) _ passed

theorem passes (n : Nat) (b : SpecialIdle slot s) : SpecialIdle slot (Machine.passes n s) := by
  induction n generalizing s with
  | zero => exact b
  | succ n ih =>
    unfold Machine.passes
    split
    · exact ih b.passWithTests
    · exact b

/-! ### The scheduler's walk (R73, R157 to R170) -/

theorem admitRecord (b : SpecialIdle slot s) (h : Nat) (r : Request) : SpecialIdle slot (Machine.admitRecord h r s) :=
  b.same (csc_admitRecord ..)

theorem schedulerAdmit (b : SpecialIdle slot s) (r : Request) {record : Nat → State → State}
    (hr : ∀ h t, SpecialIdle slot t → t.csc = s.csc → SpecialIdle slot (record h t)) :
    SpecialIdle slot (Machine.schedulerAdmit r record s).1 := by
  unfold Machine.schedulerAdmit
  dsimp only
  split
  · exact b
  · split
    · exact b
    · split
      · exact b
      · split
        · exact b
        · next h _ =>
          have begun : SpecialIdle slot (s.setWork { s.work with passesDue := 0 }) := b.same
          exact (passes passBound (hr h _ (begun.admitRecord h _) (csc_admitRecord ..))).same

/-- The record of a firing names a NORMAL trigger, where it is one of the call. -/
theorem recordFired (b : SpecialIdle slot s) (k i h : Nat) (normal : k = slot → NormalAt slot i s) :
    SpecialIdle slot (Machine.recordFired k i h s) := by
  have fired : SpecialIdle slot (Machine.modTrigger k i (fun x => { x with state := .fired, handle := some h }) s) :=
    b.modTrigger k i (fun _ => rfl) fun here x hx special _ => absurd (normal here x hx) special
  exact fired.dueDrop _

theorem missTrigger (b : SpecialIdle slot s) (k i n : Nat) : SpecialIdle slot (Machine.missTrigger k i n s) :=
  ((b.unfire k i).dueDrop _).raiseMissed ..

theorem openCall (b : SpecialIdle slot s) (k : Nat) : SpecialIdle slot (Machine.openCall k s) := by
  have opened : SpecialIdle slot (setCall k { tget s.csc.calls k with state := .open } s) := by
    refine b.of_triggers ?_ fun _ he _ _ => he
    rw [setCall, State.setCsc_csc, tget_tset]
    split
    · next here => rw [here.1]
    · rfl
  unfold Machine.openCall
  dsimp only
  split
  · exact opened.pushEvent ..
  · exact b

theorem fireTrigger (b : SpecialIdle slot s) (k i : Nat) (x : Trigger) (f : Time) (normal : k = slot → NormalAt slot i s) :
    SpecialIdle slot (Machine.fireTrigger k i x f s).1 := by
  unfold Machine.fireTrigger
  dsimp only
  split
  · exact b.missTrigger ..
  · next y _ =>
    have admitted := b.schedulerAdmit (triggerRequest s k i x y) (record := Machine.recordFired k i) fun h t c csc =>
      c.recordFired k i h fun here z hz => normal here z (by rw [triggerAt, ← csc]; exact hz)
    split
    · next e => rw [e] at admitted; exact admitted.openCall k
    · next e => rw [e] at admitted; exact admitted.missTrigger ..
    · next e => rw [e] at admitted; exact admitted.missTrigger ..
    · next e =>
      rw [e] at admitted
      split
      · exact admitted
      · exact admitted.missTrigger ..

theorem takeTrigger (b : SpecialIdle slot s) (k i : Nat) (normal : k = slot → NormalAt slot i s) :
    SpecialIdle slot (Machine.takeTrigger k i s) := by
  unfold Machine.takeTrigger
  dsimp only
  split
  · exact b
  · next x _ =>
    have fired := b.fireTrigger k i x (callTrigger (tget s.csc.calls k) i).fire normal
    repeat' split
    · exact b.missTrigger ..
    · exact b
    · next e => rw [e] at fired; exact fired.same
    · next e => rw [e] at fired; exact fired
    · next e => rw [e] at fired; exact fired

/-- The writing of the periodic table. -/
theorem setPeriodics (b : SpecialIdle slot s) (p : Vector Periodic 16) :
    SpecialIdle slot (s.setCsc { s.csc with periodics := p }) := b.of_triggers rfl fun _ he _ _ => he

theorem firePeriodic (b : SpecialIdle slot s) (i : Nat) : SpecialIdle slot (Machine.firePeriodic i s) := by
  unfold Machine.firePeriodic
  dsimp only
  split
  · exact b.setPeriodics _
  · split
    · exact b.setPeriodics _
    · next x _ =>
      have admitted := b.schedulerAdmit (periodicRequest (tget s.csc.periodics i) x i) (record := recordPeriodic i)
        fun _ _ c _ => c.setPeriodics _
      split
      · next e => rw [e] at admitted; exact admitted
      all_goals next e => rw [e] at admitted; exact admitted.setPeriodics _

/-- A walk takes an entry; one of the call names a NORMAL trigger. -/
theorem takeEntry (b : SpecialIdle slot s) (e : DueEntry) (normal : ∀ i, e.item = .trigger slot i → NormalAt slot i s) :
    SpecialIdle slot (Machine.takeEntry s e) := by
  unfold Machine.takeEntry
  split
  · next k i item => exact b.takeTrigger k i fun here => normal i (here ▸ item)
  · exact ((b.firePeriodic _).setPeriodics _).duePlace_periodic ..

theorem foldl_takeEntry (l : List DueEntry) (b : SpecialIdle slot s)
    (normal : ∀ e ∈ l, ∀ i, e.item = .trigger slot i → NormalAt slot i s) :
    SpecialIdle slot (l.foldl Machine.takeEntry s) := by
  induction l generalizing s with
  | nil => exact b
  | cons e l ih =>
    exact ih (b.takeEntry e (normal e (.head _))) fun d hd i item =>
      (normal d (.tail _ hd) i item).kept (.takeEntry s e)

theorem walk (b : SpecialIdle slot s) : SpecialIdle slot (Machine.walk s) :=
  b.foldl_takeEntry _ fun e he => b.listed e (List.mem_filter.mp he).1

theorem settleFor (n : Nat) (b : SpecialIdle slot s) : SpecialIdle slot (Machine.settleFor n s) := by
  induction n generalizing s with
  | zero => exact b
  | succ n ih =>
    unfold Machine.settleFor
    split
    · have fewer : SpecialIdle slot (s.setWork { s.work with walksDue := s.work.walksDue - 1 }) := b.same
      dsimp only
      split
      · exact ih fewer.walk
      · exact ih fewer
    · split
      · exact ih b.passWithTests
      · exact b

theorem settle (b : SpecialIdle slot s) : SpecialIdle slot (Machine.settle s) := b.settleFor _

theorem withdraw (b : SpecialIdle slot s) (h : Nat) : SpecialIdle slot (Machine.withdraw h s) := by
  unfold Machine.withdraw
  split
  · exact b.endRequest ..
  · exact b

end SpecialIdle
end Sys2Proof.Machine
end

section
/-! CALL_AMEND: what it writes, what it withdraws, and its special firings (R162 to R165, R171). -/

namespace Sys2Proof.Machine
set_option Elab.async false

variable {s t : State} {k i : Nat}

/-! ### The frame of an amendment -/

namespace ActFrame

theorem replaceTrigger (k i : Nat) (s : State) : ActFrame s (Machine.replaceTrigger k i s) := by
  unfold Machine.replaceTrigger
  dsimp only
  split
  · exact (modTrigger k i _ s).trans (duePlace ..)
  · exact refl s

theorem amendTrigger (k : Nat) (p : State × Withdrawn) (i : Nat) : ActFrame p.1 (Machine.amendTrigger k p i).1 := by
  unfold Machine.amendTrigger
  dsimp only
  split
  · split
    · exact replaceTrigger ..
    · exact refl _
  · split
    · exact (withdraw ..).trans (settle _)
    · exact refl _
  · exact refl _

theorem amendTriggers (k : Nat) (s : State) : ActFrame s (Machine.amendTriggers k s).1 := by
  have all := foldl_fst (amendTrigger k) (List.range (tget s.csc.calls k).triggers.length) (s, ⟨0, []⟩)
  unfold Machine.amendTriggers
  dsimp only
  split
  · exact (all.trans (walk _)).trans (settle _)
  · exact all

theorem amendSpecial (k : Nat) (role : TriggerRole) (fires : Bool) (s : State) :
    ActFrame s (Machine.amendSpecial k role fires s).1 := by
  unfold Machine.amendSpecial
  split
  · exact fireSpecial ..
  · exact refl s

/-- A call record that both states are given in place of their own. -/
theorem setCall_both (a : ActFrame s t) {c d : Call} (fixed : d.fixed = c.fixed) :
    ActFrame (Machine.setCall k c s) (Machine.setCall k d t) :=
  { a with
    calls := fun j => by
      rw [Machine.setCall, Machine.setCall, State.setCsc_csc, State.setCsc_csc, tget_tset, tget_tset]
      split
      · exact fixed
      · exact a.calls j }

end ActFrame

/-! ### The branches of CALL_AMEND -/

theorem exec_callAmend (h : Header) (slot flags : Byte) (delay : Word) (platform : Byte) (s : State) :
    exec (.callAmend h slot flags delay platform) s = .next (takeCommand h 0x94 (callAmend slot flags delay platform) s) := rfl

section
variable {slot flags platform : Byte} {delay : Word}

theorem callAmend_badarg (bad : flags.toNat = 0 ∨ flags.toNat > 3 ∨ (flags.getLsbD 1 = true ∧ platform.toNat > 32)) :
    callAmend slot flags delay platform s = refuse .badarg s := by
  unfold callAmend
  dsimp only
  exact if_pos (bad.imp_left (byte_eq_iff flags 0 (by decide)).mpr)

/-- CALL_AMEND past its range checks. -/
theorem amend_in_range (low : 1 ≤ flags.toNat) (high : flags.toNat ≤ 3)
    (range : flags.getLsbD 1 = true → platform.toNat ≤ 32) :
    ¬ (flags = 0 ∨ flags.toNat > 3 ∨ (flagBit flags 1 = true ∧ platform.toNat > 32)) := by
  rintro (zero | more | ⟨set, far⟩)
  · have := (byte_eq_iff flags 0 (by decide)).mp zero
    omega
  · omega
  · have := range set
    omega

theorem callAmend_state (low : 1 ≤ flags.toNat) (high : flags.toNat ≤ 3)
    (range : flags.getLsbD 1 = true → platform.toNat ≤ 32) (idle : callRuns (tget s.csc.calls slot.toNat) = false) :
    callAmend slot flags delay platform s = refuse .state s := by
  unfold callAmend
  dsimp only
  rw [if_neg (amend_in_range low high range)]
  exact if_pos idle

end

/-- What the parts of an amendment leave, one after the other: the triggers with what is withdrawn, the ALTERATION, whether DELAY_NOTICE qualifies, and the DELAY_NOTICE. -/
structure Amendment where
  walked : State × Withdrawn
  altered : State × SpecialOutcome
  qualified : Bool
  noticed : State × SpecialOutcome

/-- The state in which an amendment acts on the triggers: the fields are written, and no admission is counted. -/
def amendBase (k : Nat) (new : Call) (s : State) : State := (setCall k new s).setWork { s.work with walkAdmitted := 0 }

/-- The parts of an accepted amendment. -/
def amendment (k : Nat) (old new : Call) (setDelay setPlatform : Bool) (s : State) : Amendment :=
  let walked := amendTriggers k (amendBase k new s)
  let altered := amendSpecial k .alteration
    (alterationQualifies old setPlatform new.platform || walked.2.special.contains .alteration) walked.1
  let qualified := delayQualifies altered.1 old new setDelay
  ⟨walked, altered, qualified,
    amendSpecial k .delayNotice (qualified || walked.2.special.contains .delayNotice) altered.1⟩

/-- The state that an amendment leaves. -/
def Amendment.after (m : Amendment) (k : Nat) (new : Call) : State := noteDelay k m.qualified m.noticed.2 new.delay m.noticed.1

theorem callAmend_accepted {slot flags platform : Byte} {delay : Word} {old new : Call} {m : Amendment}
    (low : 1 ≤ flags.toNat) (high : flags.toNat ≤ 3) (range : flags.getLsbD 1 = true → platform.toNat ≤ 32)
    (ho : old = tget s.csc.calls slot.toNat) (runs : callRuns old = true)
    (hn : new = amendedCall old (flagBit flags 0) (flagBit flags 1) delay platform)
    (hm : m = amendment slot.toNat old new (flagBit flags 0) (flagBit flags 1) s) :
    callAmend slot flags delay platform s =
      ⟨.done, [.b1 slot, f1 (callCode (tget (m.after slot.toNat new).csc.calls slot.toNat).state),
          f4i (tget (m.after slot.toNat new).csc.calls slot.toNat).delay,
          f1 (tget (m.after slot.toNat new).csc.calls slot.toNat).platform,
          fTime (expectedTime (tget (m.after slot.toNat new).csc.calls slot.toNat)),
          f2 m.walked.2.normal, f2 m.walked.1.work.walkAdmitted, f1 (specialCode m.altered.2), f1 (specialCode m.noticed.2),
          f4i (tget (m.after slot.toNat new).csc.calls slot.toNat).lastNotified],
        m.after slot.toNat new⟩ := by
  subst hm hn ho
  unfold callAmend
  dsimp only
  rw [if_neg (amend_in_range low high range), if_neg (by rw [runs]; nofun)]
  rfl

/-! ### What an amendment writes -/

theorem amendment_frame (k : Nat) (old new : Call) (setDelay setPlatform : Bool) (s : State) :
    ActFrame (setCall k new s) (amendment k old new setDelay setPlatform s).noticed.1 :=
  (((ActFrame.setWork (setCall k new s) _).trans (.amendTriggers k _)).trans (.amendSpecial ..)).trans (.amendSpecial ..)

theorem setCall_setCall (k : Nat) (c d : Call) (s : State) : setCall k d (setCall k c s) = setCall k d s := by
  have twice : tset (tset s.csc.calls k c) k d = tset s.csc.calls k d := Vector.setIfInBounds_setIfInBounds ..
  unfold setCall
  rw [State.setCsc_csc, twice]
  rfl

/-- The note of a DELAY_NOTICE writes the last notified delay, and that alone, to the fields of the call. -/
theorem noteDelay_frame {new : Call} {u v : State} (lt : k < 256) (qualified : Bool) (o : SpecialOutcome)
    (a : ActFrame (setCall k new s) u) (hv : v = noteDelay k qualified o new.delay u) :
    ActFrame (setCall k { new with lastNotified := (tget v.csc.calls k).lastNotified } s) v ∧
      ((tget v.csc.calls k).lastNotified = new.lastNotified ∨
        (tget v.csc.calls k).lastNotified = new.delay ∧ qualified = true ∧ (o = .admitted ∨ o = .missed)) := by
  have call := a.calls k
  rw [setCall, State.setCsc_csc, tget_tset_self _ _ _ lt] at call
  have fields := call
  simp only [Call.fixed, Prod.mk.injEq] at fields
  obtain ⟨number, arrival, destination, via, scheduled, delay, platform, plan, last, roles⟩ := fields
  by_cases made : qualified = true ∧ (o = .admitted ∨ o = .missed)
  · have noted : v = setCall k { tget u.csc.calls k with lastNotified := new.delay } u := hv.trans (if_pos made)
    have value : (tget v.csc.calls k).lastNotified = new.delay := by
      rw [noted, setCall, State.setCsc_csc, tget_tset_self _ _ _ lt]
    refine ⟨?_, .inr ⟨value, made⟩⟩
    rw [value, noted, ← setCall_setCall k new]
    refine a.setCall_both ?_
    simp only [Call.fixed, number, arrival, destination, via, scheduled, delay, platform, plan, roles]
  · have kept : v = u := hv.trans (if_neg made)
    subst kept
    exact ⟨by rw [last]; exact a, .inl last⟩

/-! ### No special firing (R162, R165) -/

theorem amendSpecial_unset {role : TriggerRole} {fires : Bool} (unset : s.stc.status = .unset) :
    amendSpecial k role fires s = (s, .none) := by
  unfold amendSpecial
  split
  · exact fireSpecial_unset unset
  · rfl

namespace SpecialIdle

theorem replaceTrigger (b : SpecialIdle k s) (i : Nat) (normal : NormalAt k i s) :
    SpecialIdle k (Machine.replaceTrigger k i s) := by
  unfold Machine.replaceTrigger
  dsimp only
  split
  · next tr _ =>
    have moved : SpecialIdle k (Machine.modTrigger k i (fun x => { x with fire := fireTime (tget s.csc.calls k) tr }) s) :=
      b.modTrigger k i (fun _ => rfl) fun _ _ _ _ still => still
    exact moved.duePlace k i _ (normal.kept (.modTrigger k i _ s))
  · exact b

/-- An amendment of a call without a FIRED special trigger withdraws none. -/
theorem amendTrigger (p : State × Withdrawn) (i : Nat) (b : SpecialIdle k p.1 ∧ p.2.special = []) :
    SpecialIdle k (Machine.amendTrigger k p i).1 ∧ (Machine.amendTrigger k p i).2.special = [] := by
  obtain ⟨idle, none⟩ := b
  unfold Machine.amendTrigger
  dsimp only
  split
  · split
    · next normal => exact ⟨idle.replaceTrigger i (normalAt_of_callTrigger normal), none⟩
    · exact ⟨idle, none⟩
  · next h fired _ =>
    split
    · refine ⟨(idle.withdraw h).settle, ?_⟩
      cases hx : triggerAt p.1 k i with
      | none =>
        rw [callTrigger, List.getD_eq_getElem?_getD, show (tget p.1.csc.calls k).triggers[i]? = _ from hx] at fired
        cases fired
      | some x =>
        have reads := callTrigger_of (c := tget p.1.csc.calls k) hx
        have normal : x.role = .normal := by
          by_contra special
          exact idle.unfired i x hx special (reads ▸ fired)
        rw [reads, if_pos normal]
        exact none
    · exact ⟨idle, none⟩
  · exact ⟨idle, none⟩

/-- What a call without a FIRED special trigger has of an amendment: no special trigger is withdrawn. -/
theorem amendTriggers (b : SpecialIdle k s) : (Machine.amendTriggers k s).2.special = [] := by
  have all := foldl_keeps (fun p => SpecialIdle k p.1 ∧ p.2.special = []) (Machine.amendTrigger k)
    (fun p i b => SpecialIdle.amendTrigger p i b) (List.range (tget s.csc.calls k).triggers.length) (s, ⟨0, []⟩) ⟨b, rfl⟩
  unfold Machine.amendTriggers
  dsimp only
  split
  · exact all.2
  · exact all.2

/-- The due list of a call that follows the laws names NORMAL triggers, whatever its delay and platform are. -/
theorem amendBase {old new : Call} (lt : k < 256) (ho : old = tget s.csc.calls k) (triggers : new.triggers = old.triggers)
    (law : DueListLaw s) (still : ∀ (i : Nat) (x : CallTrigger), old.triggers[i]? = some x → x.role ≠ .normal → x.state ≠ .fired) :
    SpecialIdle k (Machine.amendBase k new s) := by
  have before : SpecialIdle k s := by
    refine ⟨fun i x hx special => still i x (ho ▸ hx) special, fun e he i item x hx => ?_⟩
    have stands := (law.lists e).mp he
    rw [dueStands, item] at stands
    obtain ⟨-, -, y, hy, normal, -⟩ := stands
    obtain rfl := Option.some.inj (hx.symm.trans hy)
    exact normal
  have written : SpecialIdle k (setCall k new s) := by
    refine before.of_triggers ?_ fun _ he _ _ => he
    rw [setCall, State.setCsc_csc, tget_tset_self _ _ _ lt, triggers, ho]
  exact written.same

end SpecialIdle

theorem delayQualifies_silent {old new : Call} (why : old.state = .scheduled ∨ new = old) (u : State) (set : Bool) :
    delayQualifies u old new set = false := Bool.eq_false_iff.mpr fun q => by
  obtain ⟨-, state, moved, -⟩ := (delayQualifies_iff ..).mp q
  obtain scheduled | same := why
  · rw [scheduled] at state; cases state
  · exact moved same

/-- A call amended while SCHEDULED, or with the values it holds, has neither special firing. -/
theorem amendment_silent {old new : Call} {setDelay setPlatform : Bool} (idle : SpecialIdle k (amendBase k new s))
    (why : old.state = .scheduled ∨ new = old) :
    (amendment k old new setDelay setPlatform s).altered.2 = .none ∧
      (amendment k old new setDelay setPlatform s).noticed.2 = .none := by
  have none := idle.amendTriggers
  have alteration : alterationQualifies old setPlatform new.platform = false := Bool.eq_false_iff.mpr fun q => by
    obtain ⟨-, state, platform⟩ := (alterationQualifies_iff ..).mp q
    obtain scheduled | rfl := why
    · rw [scheduled] at state; cases state
    · exact platform rfl
  unfold amendment
  dsimp only
  rw [none, alteration, delayQualifies_silent why]
  exact ⟨rfl, rfl⟩

/-! ### An amendment in UNSET (R163, R171) -/

/-- None of the triggers of a call is FIRED. -/
def NoneFired (k : Nat) (s : State) : Prop := ∀ i, (callTrigger (tget s.csc.calls k) i).state ≠ .fired

/-- An amendment moves a PENDING NORMAL trigger. -/
def moveTrigger (k : Nat) (s : State) (i : Nat) : State :=
  if (callTrigger (tget s.csc.calls k) i).state = .pending ∧ (callTrigger (tget s.csc.calls k) i).role = .normal
  then replaceTrigger k i s else s

theorem amendTrigger_of_noneFired (n : NoneFired k s) (w : Withdrawn) (i : Nat) :
    amendTrigger k (s, w) i = (moveTrigger k s i, w) := by
  have still := n i
  unfold amendTrigger moveTrigger
  dsimp only
  split
  · next _ pending =>
    split
    · next normal => rw [if_pos ⟨pending, normal⟩]
    · next special => rw [if_neg fun both => special both.2]
  · next _ fired _ => exact absurd fired still
  · next other _ =>
    rw [if_neg fun both => other both.1]

/-- A change of a trigger that leaves its state leaves the states of all. -/
theorem callTrigger_modTrigger_state (lt : k < 256) {f : CallTrigger → CallTrigger} (state : ∀ x, (f x).state = x.state)
    (i j : Nat) : (callTrigger (tget (modTrigger k i f s).csc.calls k) j).state =
      (callTrigger (tget s.csc.calls k) j).state := by
  rw [modTrigger_call lt, callTrigger, callTrigger, List.getD_eq_getElem?_getD, List.getD_eq_getElem?_getD,
    List.getElem?_modify]
  cases (tget s.csc.calls k).triggers[j]? with
  | none => rfl
  | some x =>
    change (if i = j then f x else x).state = x.state
    split
    · exact state x
    · rfl

theorem NoneFired.moveTrigger (lt : k < 256) (n : NoneFired k s) (i : Nat) : NoneFired k (moveTrigger k s i) := by
  intro j
  unfold Machine.moveTrigger replaceTrigger
  dsimp only
  repeat' split
  · next tr _ =>
    have state := callTrigger_modTrigger_state (s := s) (f := fun x => { x with fire := fireTime (tget s.csc.calls k) tr })
      lt (fun _ => rfl) i j
    exact fun fired => n j (state.symm.trans fired)
  · exact n j
  · exact n j

theorem foldl_amendTrigger_of_noneFired (lt : k < 256) (l : List Nat) (n : NoneFired k s) (w : Withdrawn) :
    l.foldl (amendTrigger k) (s, w) = (l.foldl (moveTrigger k) s, w) := by
  induction l generalizing s with
  | nil => rfl
  | cons i l ih => rw [List.foldl_cons, amendTrigger_of_noneFired n, ih (n.moveTrigger lt i), List.foldl_cons]

theorem ActFrame.moveTrigger (k : Nat) (s : State) (i : Nat) : ActFrame s (moveTrigger k s i) := by
  unfold Machine.moveTrigger
  split
  · exact replaceTrigger ..
  · exact refl s

/-- In UNSET an amendment of a call without a FIRED trigger moves its triggers, and walks nothing. -/
theorem amendTriggers_unset (lt : k < 256) (unset : s.stc.status = .unset) (n : NoneFired k s) : amendTriggers k s =
    ((List.range (tget s.csc.calls k).triggers.length).foldl (moveTrigger k) s, ⟨0, []⟩) := by
  have frame := ActFrame.foldl (ActFrame.moveTrigger k) (List.range (tget s.csc.calls k).triggers.length) s
  unfold amendTriggers
  dsimp only
  rw [foldl_amendTrigger_of_noneFired lt _ n]
  refine if_neg fun runs => ?_
  rw [schedulerRuns, frame.stc, unset] at runs
  exact absurd runs.2 (by decide)

/-! ### Where the moved triggers stand -/

theorem moveTrigger_at {x : CallTrigger} {tr : Trigger} (lt : k < 256) (hx : triggerAt s k i = some x)
    (pending : x.state = .pending) (normal : x.role = .normal) (plan : planTrigger s (tget s.csc.calls k) i = some tr) :
    triggerAt (moveTrigger k s i) k i = some { x with fire := fireTime (tget s.csc.calls k) tr } ∧
      ⟨fireTime (tget s.csc.calls k) tr, .trigger k i⟩ ∈ (moveTrigger k s i).csc.due := by
  have reads := callTrigger_of (c := tget s.csc.calls k) hx
  rw [moveTrigger, if_pos ⟨by rw [reads]; exact pending, by rw [reads]; exact normal⟩, replaceTrigger_of plan]
  constructor
  · have call := modTrigger_call (i := i) lt (fun y => { y with fire := fireTime (tget s.csc.calls k) tr }) s
    exact (congrArg (fun c : Call => c.triggers[i]?) call).trans
      (lmod_at (fun y : CallTrigger => { y with fire := fireTime (tget s.csc.calls k) tr }) hx)
  · exact mem_duePlace.mpr (.inr rfl)

/-- The move of one trigger leaves the others and their places. -/
theorem moveTrigger_other {j : Nat} (lt : k < 256) (other : j ≠ i) (s : State) :
    triggerAt (moveTrigger k s i) k j = triggerAt s k j ∧
      ∀ e : DueEntry, e.item = .trigger k j → e ∈ s.csc.due → e ∈ (moveTrigger k s i).csc.due := by
  unfold moveTrigger replaceTrigger
  dsimp only
  repeat' split
  · next tr _ =>
    constructor
    · have call := modTrigger_call (i := i) lt (fun y => { y with fire := fireTime (tget s.csc.calls k) tr }) s
      refine (congrArg (fun c : Call => c.triggers[j]?) call).trans ?_
      dsimp only
      rw [List.getElem?_modify, Option.map_eq_map]
      cases hx : (tget s.csc.calls k).triggers[j]? with
      | none => rw [triggerAt, hx]; rfl
      | some x => rw [Option.map_some, if_neg (Ne.symm other), triggerAt, hx]
    · intro e item he
      refine mem_duePlace.mpr (.inl ⟨he, fun same => other ?_⟩)
      rw [item] at same
      injection same
  · exact ⟨rfl, fun _ _ he => he⟩
  · exact ⟨rfl, fun _ _ he => he⟩

theorem foldl_moveTrigger_other {j : Nat} (lt : k < 256) (l : List Nat) (absent : j ∉ l) (s : State) :
    triggerAt (l.foldl (moveTrigger k) s) k j = triggerAt s k j ∧
      ∀ e : DueEntry, e.item = .trigger k j → e ∈ s.csc.due → e ∈ (l.foldl (moveTrigger k) s).csc.due := by
  induction l generalizing s with
  | nil => exact ⟨rfl, fun _ _ he => he⟩
  | cons i l ih =>
    obtain ⟨head, tail⟩ := not_or.mp (List.mem_cons.not.mp absent)
    obtain ⟨trigger, due⟩ := moveTrigger_other lt head s
    obtain ⟨later, stays⟩ := ih tail (moveTrigger k s i)
    exact ⟨later.trans trigger, fun e item he => stays e item (due e item he)⟩

/-- What a fire time reads stands in the frame of the actions. -/
theorem ActFrame.fireTime_kept (a : ActFrame s t) (k : Nat) (tr : Trigger) :
    fireTime (tget t.csc.calls k) tr = fireTime (tget s.csc.calls k) tr ∧
      planTrigger t (tget t.csc.calls k) i = planTrigger s (tget s.csc.calls k) i := by
  have fixed := a.calls k
  simp only [Call.fixed, Prod.mk.injEq] at fixed
  obtain ⟨-, -, -, -, scheduled, delay, -, plan, -⟩ := fixed
  exact ⟨by rw [fireTime, fireTime, expectedTime, expectedTime, scheduled, delay],
    by rw [planTrigger, planTrigger, callPlan, callPlan, a.plans, plan]⟩

/-- Every PENDING NORMAL trigger of the call stands at its new fire time, in its record and in the due list. -/
theorem foldl_moveTrigger_at {x : CallTrigger} {tr : Trigger} (lt : k < 256) (hx : triggerAt s k i = some x)
    (pending : x.state = .pending) (normal : x.role = .normal) (plan : planTrigger s (tget s.csc.calls k) i = some tr)
    {n : Nat} (hi : i < n) :
    triggerAt ((List.range n).foldl (moveTrigger k) s) k i = some { x with fire := fireTime (tget s.csc.calls k) tr } ∧
      ⟨fireTime (tget s.csc.calls k) tr, .trigger k i⟩ ∈ ((List.range n).foldl (moveTrigger k) s).csc.due := by
  obtain ⟨before, after, split⟩ := List.append_of_mem (List.mem_range.mpr hi)
  have once : (before ++ i :: after).Nodup := split ▸ List.nodup_range
  obtain ⟨-, tail, apart⟩ := List.nodup_append.mp once
  obtain ⟨absent, -⟩ := List.nodup_cons.mp tail
  have earlier : i ∉ before := fun mem => apart i mem i (.head _) rfl
  have frame := ActFrame.foldl (ActFrame.moveTrigger k) before s
  obtain ⟨time, planned⟩ := frame.fireTime_kept (i := i) k tr
  obtain ⟨untouched, -⟩ := foldl_moveTrigger_other lt before earlier s
  obtain ⟨trigger, due⟩ := moveTrigger_at lt (untouched.trans hx) pending normal (planned.trans plan)
  obtain ⟨stands, stays⟩ := foldl_moveTrigger_other lt after absent (moveTrigger k (before.foldl (moveTrigger k) s) i)
  rw [time] at trigger due
  rw [split, List.foldl_append, List.foldl_cons]
  exact ⟨stands.trans trigger, stays _ rfl due⟩

/-- In UNSET an amendment of a call without a FIRED trigger moves its triggers and fires nothing. -/
theorem amendment_unset {old new : Call} {setDelay setPlatform : Bool} {u : State} (lt : k < 256)
    (hu : u = amendBase k new s) (unset : s.stc.status = .unset) (n : NoneFired k u) :
    (amendment k old new setDelay setPlatform s).altered.2 = .none ∧
      (amendment k old new setDelay setPlatform s).noticed =
        ((List.range (tget u.csc.calls k).triggers.length).foldl (moveTrigger k) u, .none) := by
  have still : u.stc.status = .unset := by rw [hu]; exact unset
  have walked := amendTriggers_unset lt still n
  have frame := ActFrame.foldl (ActFrame.moveTrigger k) (List.range (tget u.csc.calls k).triggers.length) u
  have after : ((List.range (tget u.csc.calls k).triggers.length).foldl (moveTrigger k) u).stc.status = .unset := by
    rw [frame.stc]; exact still
  unfold amendment
  rw [← hu]
  dsimp only
  rw [walked, amendSpecial_unset after]
  exact ⟨rfl, amendSpecial_unset after⟩

/-- Settles O57: the frame of the amendment's parts, what qualifies, and the moved triggers in UNSET. -/
theorem callAmendRewritesACall : Obligations.CallAmendRewritesACall := by
  refine ⟨fun h slot flags delay platform s ha bad => ?_, fun h slot flags delay platform s ha low high range sc op => ?_, ?_⟩
  · rw [exec_callAmend, takeCommand_refused ha (callAmend_badarg bad)]
  · rw [exec_callAmend, takeCommand_refused ha (callAmend_state low high range ?_)]
    exact Bool.eq_false_iff.mpr fun runs => ((callRuns_iff _).mp runs).elim sc op
  intro h slot flags delay platform s old new ha low high range ho state hn
  have lt : slot.toNat < 256 := slot.isLt
  obtain ⟨m, hm⟩ : ∃ m, m = amendment slot.toNat old new (flagBit flags 0) (flagBit flags 1) s := ⟨_, rfl⟩
  obtain ⟨t, ht⟩ : ∃ t, t = m.after slot.toNat new := ⟨_, rfl⟩
  have run := callAmend_accepted low high range ho ((callRuns_iff _).mpr state) hn hm
  have parts : ActFrame (setCall slot.toNat new s) m.noticed.1 := hm ▸ amendment_frame ..
  obtain ⟨frame, last⟩ := noteDelay_frame lt m.qualified m.noticed.2 parts ht
  have kept : new.lastNotified = old.lastNotified := by rw [hn]
  have triggers : new.triggers = old.triggers := by rw [hn]
  have fields := frame.calls slot.toNat
  rw [setCall, State.setCsc_csc, tget_tset_self _ _ _ lt] at fields
  simp only [Call.fixed, Prod.mk.injEq] at fields
  obtain ⟨-, -, -, -, scheduled, delayed, stands, -⟩ := fields
  rw [← ht] at run
  refine ⟨t, _, (tget t.csc.calls slot.toNat).lastNotified, m.walked.1.work.walkAdmitted, m.walked.2.normal, m.altered.2,
    m.noticed.2, ?_, rfl, last.imp (·.trans kept) (·.1), fun why => ?_, frame, fun why law still => ?_,
    fun unset still => ?_⟩
  · rw [exec_callAmend, takeCommand_answered ha (by rw [run, frame.replies]; exact ha.room), run, delayed, stands,
      expectedTime, scheduled, delayed]
    rfl
  · obtain same | ⟨-, qualified, -⟩ := last
    · exact same.trans kept
    · have none : m.qualified = false := by rw [hm]; exact delayQualifies_silent why ..
      rw [none] at qualified
      cases qualified
  · rw [hm]
    exact amendment_silent (.amendBase lt ho triggers law still) why
  · have record : tget (amendBase slot.toNat new s).csc.calls slot.toNat = new := tget_tset_self _ _ _ lt
    have unfired : NoneFired slot.toNat (amendBase slot.toNat new s) := fun i => by
      rw [record, callTrigger, triggers, List.getD_eq_getElem?_getD]
      cases hx : old.triggers[i]? with
      | none => nofun
      | some x => exact still i x hx
    obtain ⟨alteration, noticed⟩ := amendment_unset (old := old) (setDelay := flagBit flags 0)
      (setPlatform := flagBit flags 1) lt rfl unset unfired
    rw [← hm] at alteration noticed
    have none : m.noticed.2 = .none := by rw [noticed]
    have left : t = m.noticed.1 := by
      rw [ht, Amendment.after, none]
      exact if_neg fun made => made.2.elim nofun nofun
    refine ⟨⟨alteration, none, ?_⟩, fun i x tr hx pending normal plan => ?_⟩
    · obtain same | ⟨-, -, made⟩ := last
      · exact same.trans kept
      · rw [none] at made
        exact made.elim nofun nofun
    · have stood : triggerAt (amendBase slot.toNat new s) slot.toNat i = some x := by
        rw [triggerAt, record, triggers]; exact hx
      have planned : planTrigger (amendBase slot.toNat new s) new i = some tr := by
        rw [hn]; exact plan
      have moved := foldl_moveTrigger_at lt stood pending normal (record.symm ▸ planned)
        (List.getElem?_eq_some_iff.mp (triggers.symm ▸ hx : new.triggers[i]? = some x)).1
      rw [record] at moved noticed
      rw [left, noticed]
      exact moved

end Sys2Proof.Machine
end
